-- ==== Sys2Proof/Word.lean ====
section
/-! DEFINITION. The word types of the machine and their plainest arithmetic (spec/00_scope.md R5, R6, R12). -/
namespace Sys2Proof

abbrev Byte := BitVec 8
abbrev Half := BitVec 16
abbrev Word32 := BitVec 32
abbrev Word64 := BitVec 64
/-- One 24-bit slot of a bundle (R15). -/
abbrev SlotBits := BitVec 24
/-- One 192-bit bundle (R15). -/
abbrev Bundle := BitVec 192
/-- A 64-bit template in the layout of R39. -/
abbrev Template := BitVec 64
/-- An AF48 element (R62). -/
abbrev Af48 := BitVec 48

/-- The slice `x[hi:lo]` of a number, as the manual writes it (R5), with `w = hi - lo + 1`. -/
def bits (x lo w : Nat) : Nat := (x / 2 ^ lo) % 2 ^ w

/-- Bit `n` of a number (R5). -/
def bit (x n : Nat) : Bool := x.testBit n

/-- Read the low `w` bits of `x` as a two's-complement integer. -/
def signedOf (w x : Nat) : Int :=
  let y := x % 2 ^ w
  if y < 2 ^ (w - 1) then (y : Int) else (y : Int) - (2 ^ w : Nat)

/-- The low `w` bits of an integer, as a number. -/
def wrap (w : Nat) (x : Int) : Nat := (x % ((2 ^ w : Nat) : Int)).toNat

/-- Clamp of R10, without its flag. -/
def clampInt (x lo hi : Int) : Int := if x < lo then lo else if hi < x then hi else x

/-- Number from bytes, lowest address first (R6). -/
def leNat : List Byte → Nat
  | [] => 0
  | b :: bs => b.toNat + 256 * leNat bs

/-- The `n` low bytes of a number, lowest address first (R6). -/
def leBytes : Nat → Nat → List Byte
  | 0, _ => []
  | n + 1, x => BitVec.ofNat 8 x :: leBytes n (x / 256)

end Sys2Proof
end

