-- ==== Sys2Proof/Config.lean ====
section
/-! DEFINITION. What an implementation fixes and the manual leaves open. Every free value is opaque: no proof can
evaluate it (notes/assumptions/3.md). -/
namespace Sys2Proof.Config

/-- An indeterminate byte (R14, R244, R346, R350), by the count of free values taken before it (log 3). -/
opaque freeByte : Nat → Byte
/-- An indeterminate or unstated 64-bit value (log 3). -/
opaque freeWord : Nat → Word64

/-- A stage-1 table entry as another module answers a walk, by module, address and beat; none when the read fails (log 31). -/
opaque farEntry : Nat → Nat → Nat → Option Nat
/-- What DIST of an arithmetic trap reads where more beats than it can hold lie between issue and trap (R74), by those beats (log 3). -/
opaque lateDist : Nat → Byte
/-- Beats from the send beat of a memory-class store until it reaches its die's L2, by count of free values (log 32). -/
opaque storeDelay : Nat → Nat

/-- Beats, beyond one, that a transfer between two members of a collective on this module takes (R348), by count of free values (log 3). -/
opaque transferDelay : Nat → Nat

/-- The BF16 bits that a minimum or maximum delivers for an f32hi literal that BF16 cannot hold (R80, R90) (log 3). -/
opaque narrowLiteral : Nat → Half

/-- The package identity read by the identity register and the attestation report (R311, R327). -/
opaque deviceId : Word64
/-- Digests and keys of the attestation report: boot ROM, firmware image, the two identity public keys (R327). -/
opaque identityHash : Nat → List Byte

/-- The identity key seed in the fuses (R326) (log 7). -/
opaque identitySeed : List Byte
/-- The derivation of rank and migration keys from the seed and an input (R326), of which the manual gives no formula (log 7). -/
opaque deriveKey : List Byte → List Byte → List Byte
/-- The shared secret of the key exchange with a peer of a job, before and after an agreement by ML-KEM-1024 (R323, R326) (log 7). -/
opaque keyExchange : Nat → Nat → List Byte
opaque agreedSecret : Nat → List Byte
/-- The report of a peer of a job as it came, and whether it verifies under R326 in hardware mode, by count (R323, R324) (log 7). -/
opaque peerReport : Nat → Nat → List Byte
opaque peerVerifies : Nat → Bool
/-- Signatures of an attestation report (R327): 0 RSASSA-PSS, 1 SLH-DSA (log 7). -/
opaque signReport : Nat → List Byte → List Byte
/-- ML-KEM-1024 encapsulation of R327 to the host's key, with the count of seals before it as its randomness: ciphertext and
shared secret (log 7). -/
opaque encapsulate : List Byte → Nat → List Byte × List Byte

/-- Firmware policy (log 8): the base cluster chosen for a footprint among those that are free (R291, R303). -/
opaque chooseBase : List Nat → Nat → Option Nat
/-- Firmware policy (log 8): the slice that it gives a seat, by base cluster (R291, R303). -/
opaque chooseSlice : Nat → Nat
/-- Spare pages with which the poison function replaces a retired page (R279), by count. -/
opaque sparePage : Nat → Nat
/-- Where in the cold tier firmware puts the next sealed image (R358). -/
opaque coldPlace : Nat → Nat

/-- Pages that the target of a move gives to the pages and tables of a rank (R354), by count; the rights of a leaf that it makes (log 22). -/
opaque movedPage : Nat → Nat × BitVec 2

/-- Firmware's routing (R333): the ports over which a module is reached, one or more (log 8). -/
opaque routes : Nat → Nat × List Nat

end Sys2Proof.Config
end

