-- ==== Sys2Proof/Machine/Num.lean ====
section
/-! DEFINITION. Number formats, exact values, decoding, rounding and the pre-rounding values of division and roots
(spec/03_slot_numbers.md R55 to R74, spec/04_slot_scalar_control.md R89, spec/06_core_matrix.md R134). -/
namespace Sys2Proof.Machine

/-- Element formats of R55. -/
inductive Fmt where
  | raw | f32 | bf16 | t8a | t8b | t6 | i8 | c32 | i32
  deriving DecidableEq, Repr

/-- R55: the format of a code; codes 9 to 15 are reserved. -/
def Fmt.ofCode : Nat → Option Fmt
  | 0 => some .raw | 1 => some .f32 | 2 => some .bf16 | 3 => some .t8a | 4 => some .t8b
  | 5 => some .t6 | 6 => some .i8 | 7 => some .c32 | 8 => some .i32
  | _ => none

/-- R63: elements per block of a geometry code; `some 0` is code 0, `none` a reserved code. -/
def geomSize : Nat → Option Nat
  | 0 => some 0 | 1 => some 32 | 2 => some 16 | 3 => some 64
  | _ => none

/-- R63: which geometry codes a format accepts. -/
def Fmt.geomOk (f : Fmt) (g : Nat) : Bool :=
  match f with
  | .bf16 | .t8a | .t8b | .t6 | .i8 => decide (g ≤ 3)
  | .raw | .f32 | .c32 | .i32 => g == 0

/-- Type suffixes of R40. -/
inductive Ty where
  | u | i8 | i16 | i32 | i64 | n8 | n16 | n32 | n64 | f32 | bf16 | t8a | t8b | t6 | c32
  deriving DecidableEq, Repr

/-- R40: the type of a code; codes not listed are reserved. -/
def Ty.ofCode : Nat → Option Ty
  | 0x00 => some .u | 0x01 => some .i8 | 0x02 => some .i16 | 0x03 => some .i32 | 0x04 => some .i64
  | 0x05 => some .n8 | 0x06 => some .n16 | 0x07 => some .n32 | 0x08 => some .n64
  | 0x10 => some .f32 | 0x11 => some .bf16 | 0x12 => some .t8a | 0x13 => some .t8b | 0x14 => some .t6
  | 0x15 => some .c32
  | _ => none

/-- Bits of a type's value (R40, R80, R109); an untyped operation acts on 64 bits in the scalar file (R80). -/
def Ty.width : Ty → Nat
  | .u => 64 | .i8 | .n8 => 8 | .i16 | .n16 => 16 | .i32 | .n32 => 32 | .i64 | .n64 => 64
  | .f32 => 32 | .bf16 => 16 | .t8a | .t8b => 8 | .t6 => 6 | .c32 => 64

def Ty.signed : Ty → Bool
  | .i8 | .i16 | .i32 | .i64 => true
  | _ => false

def Ty.isInt : Ty → Bool
  | .i8 | .i16 | .i32 | .i64 | .n8 | .n16 | .n32 | .n64 => true
  | _ => false

def Ty.isFloat : Ty → Bool
  | .f32 | .bf16 => true
  | _ => false

/-- The element format that a float or tapered type names. -/
def Ty.fmt : Ty → Option Fmt
  | .f32 => some .f32 | .bf16 => some .bf16 | .t8a => some .t8a | .t8b => some .t8b | .t6 => some .t6
  | .c32 => some .c32
  | _ => none

/-- The limits of an integer type. -/
def Ty.lo (t : Ty) : Int := if t.signed then -((2 ^ (t.width - 1) : Nat) : Int) else 0
def Ty.hi (t : Ty) : Int :=
  if t.signed then ((2 ^ (t.width - 1) : Nat) : Int) - 1 else ((2 ^ t.width : Nat) : Int) - 1

/-- The value of the low bits of `x` by an integer type (R80, R109). -/
def Ty.intOf (t : Ty) (x : Nat) : Int :=
  if t.signed then signedOf t.width x else ((x % 2 ^ t.width : Nat) : Int)

/-- Flag bits of FLAGS[7:0] (R72). -/
abbrev Flags8 := BitVec 8
def fNX : Flags8 := 0x01#8
def fUF : Flags8 := 0x02#8
def fOF : Flags8 := 0x04#8
def fDZ : Flags8 := 0x08#8
def fIV : Flags8 := 0x10#8
def fDN : Flags8 := 0x20#8
def fSAT : Flags8 := 0x40#8
def fNR : Flags8 := 0x80#8
def flagIf (c : Bool) (f : Flags8) : Flags8 := if c then f else 0#8

/-- An exact finite binary value `(-1)^neg * m * 2^e` (R10); a zero keeps its sign. -/
structure Dy where
  neg : Bool
  m : Nat
  e : Int
  deriving DecidableEq, Repr

/-- An exact value or a special value (R10, R71). -/
inductive XVal where
  | nan (sig : Bool)
  | inf (neg : Bool)
  | fin (d : Dy)
  deriving DecidableEq, Repr

def XVal.zero : XVal := .fin ⟨false, 0, 0⟩
def XVal.isNan : XVal → Bool | .nan _ => true | _ => false
def XVal.isSig : XVal → Bool | .nan s => s | _ => false
def XVal.isInf : XVal → Bool | .inf _ => true | _ => false
def XVal.isZero : XVal → Bool | .fin d => d.m == 0 | _ => false
def XVal.sign : XVal → Bool | .nan _ => false | .inf n => n | .fin d => d.neg
def XVal.ofInt (x : Int) : XVal := .fin ⟨decide (x < 0), x.natAbs, 0⟩

/-- `d` as an integer count of `2^e`, for `e` not above its own exponent. -/
def Dy.intAt (d : Dy) (e : Int) : Int :=
  let n : Int := ((d.m * 2 ^ (d.e - e).toNat : Nat) : Int)
  if d.neg then -n else n

/-- Exact sum; the sign of a zero sum is negative only when both are negative zeros (R88). -/
def Dy.add (a b : Dy) : Dy :=
  let e := min a.e b.e
  let x := a.intAt e + b.intAt e
  if x == 0 then ⟨a.neg && b.neg && a.m == 0 && b.m == 0, 0, 0⟩ else ⟨decide (x < 0), x.natAbs, e⟩

def Dy.mul (a b : Dy) : Dy := ⟨a.neg != b.neg, a.m * b.m, a.e + b.e⟩
def Dy.negate (a : Dy) : Dy := { a with neg := !a.neg }
def Dy.scale (a : Dy) (n : Int) : Dy := { a with e := a.e + n }

def XVal.negate : XVal → XVal
  | .nan s => .nan s
  | .inf n => .inf (!n)
  | .fin d => .fin d.negate

/-- Signed comparison of finite values. -/
def Dy.cmp (a b : Dy) : Ordering :=
  let e := min a.e b.e
  compare (a.intAt e) (b.intAt e)

/-- Comparison with `+0 = -0`; `none` when unordered. -/
def XVal.cmp : XVal → XVal → Option Ordering
  | .nan _, _ => none
  | _, .nan _ => none
  | .inf a, .inf b => some (if a == b then .eq else if a then .lt else .gt)
  | .inf a, .fin _ => some (if a then .lt else .gt)
  | .fin _, .inf b => some (if b then .gt else .lt)
  | .fin a, .fin b => some (a.cmp b)

/-- Order of R127 and R129, with `-0` below `+0`; values are not NaN. -/
def XVal.ltZ (a b : XVal) : Bool :=
  match a.cmp b with
  | some .lt => true
  | some .eq => a.isZero && b.isZero && a.sign && !b.sign
  | _ => false

/-- An operation's exact result with the flags that its operands raise (R58). -/
structure XRes where
  v : XVal
  fl : Flags8
  deriving DecidableEq, Repr

/-- R58: flag of the signalling operands. -/
def sigFlag (xs : List XVal) : Flags8 := flagIf (xs.any XVal.isSig) fIV

/-- Exact product; infinity times zero is invalid (R58). -/
def xmul (a b : XVal) : XRes :=
  match a, b with
  | .nan s, y => ⟨.nan false, flagIf (s || y.isSig) fIV⟩
  | _, .nan s => ⟨.nan false, flagIf s fIV⟩
  | .inf n, .inf k => ⟨.inf (n != k), 0#8⟩
  | .inf n, .fin d => if d.m == 0 then ⟨.nan false, fIV⟩ else ⟨.inf (n != d.neg), 0#8⟩
  | .fin d, .inf n => if d.m == 0 then ⟨.nan false, fIV⟩ else ⟨.inf (n != d.neg), 0#8⟩
  | .fin x, .fin y => ⟨.fin (x.mul y), 0#8⟩

/-- Exact sum of finite values, `-0` only when every term is `-0` (R88, R114). -/
def dySum : List Dy → Dy
  | [] => ⟨false, 0, 0⟩
  | d :: ds => ds.foldl Dy.add d

/-- The finite terms of a list. -/
def finTerms (xs : List XVal) : List Dy := xs.filterMap (fun x => match x with | .fin d => some d | _ => none)

/-- Exact sum of terms: NaN, opposite infinities and infinities as R58 and R114 state; opposite infinities are invalid beside a NaN
too. -/
def xsum (xs : List XVal) : XRes :=
  let pos := xs.any (fun x => x == .inf false)
  let ng := xs.any (fun x => x == .inf true)
  if xs.any XVal.isNan then ⟨.nan false, sigFlag xs ||| (if pos && ng then fIV else 0#8)⟩
  else
    if pos && ng then ⟨.nan false, fIV⟩
    else if pos then ⟨.inf false, 0#8⟩
    else if ng then ⟨.inf true, 0#8⟩
    else ⟨.fin (dySum (finTerms xs)), 0#8⟩

/-- Sum of products and plain terms; a product that is invalid makes the sum invalid (R114). -/
def xsumR (rs : List XRes) : XRes :=
  let s := xsum (rs.map XRes.v)
  ⟨s.v, rs.foldl (fun a r => a ||| r.fl) s.fl⟩

/-! ## Binary float formats (R57, R61, R62) -/

/-- A binary format: fraction bits, least normal exponent, exponent of the overflow bound, width. -/
structure Bin where
  p : Nat
  emin : Int
  emax : Int
  ebits : Nat
  deriving DecidableEq, Repr

def Bin.f32 : Bin := ⟨23, -126, 128, 8⟩
def Bin.bf16 : Bin := ⟨7, -126, 128, 8⟩
def Bin.af48 : Bin := ⟨37, -510, 512, 10⟩

def Bin.expMask (b : Bin) : Nat := 2 ^ b.ebits - 1
def Bin.signBit (b : Bin) : Nat := 2 ^ (b.p + b.ebits)
/-- Pattern of the positive infinity. -/
def Bin.infPat (b : Bin) : Nat := b.expMask * 2 ^ b.p
/-- R58: the canonical quiet NaN. -/
def Bin.nanPat (b : Bin) : Nat := b.infPat + 2 ^ (b.p - 1)
def Bin.withSign (b : Bin) (neg : Bool) (pat : Nat) : Nat := if neg then b.signBit + pat else pat

/-- decode of R71 for a binary format (R57, R62). -/
def Bin.decode (b : Bin) (x : Nat) : XVal :=
  let neg := x.testBit (b.p + b.ebits)
  let E := bits x b.p b.ebits
  let F := bits x 0 b.p
  if E == b.expMask then
    if F == 0 then .inf neg else .nan (!(F.testBit (b.p - 1)))
  else if E == 0 then .fin ⟨neg, F, b.emin - b.p⟩
  else .fin ⟨neg, 2 ^ b.p + F, b.emin - b.p + ((E : Int) - 1)⟩

/-- R69, R70: is the pattern a subnormal of the format? -/
def Bin.isSub (b : Bin) (x : Nat) : Bool := bits x b.p b.ebits == 0 && bits x 0 b.p != 0

/-! ## Rounding (R67 to R70) -/

inductive RMode where
  | rne | sr | rz
  deriving DecidableEq, Repr

/-- R67: the mode of MOD[4:3]; code 3 is refused before this is read. -/
def RMode.ofCode : Nat → RMode
  | 1 => .sr | 2 => .rz | _ => .rne

/-- How one rounding is made: mode, gradient class, the lane of random bits, FCTL.FTZ. -/
structure Rnd where
  mode : RMode
  grad : Bool
  lane : Word32
  ftz : Bool
  deriving DecidableEq, Repr

/-- RNE in the gradient class (R155, R183, R344). -/
def Rnd.rneGrad : Rnd := ⟨.rne, true, 0#32, false⟩

/-- Index of the lowest set bit of a nonzero number, looking at `fuel` bits. -/
def trailing : Nat → Nat → Nat
  | 0, _ => 0
  | f + 1, x => if x % 2 == 1 then 0 else trailing f (x / 2) + 1

/-- c of R68, from the `k` cut bits `rem`. -/
def cutCount (rem k : Nat) : Nat := if rem == 0 then 0 else k - trailing k rem

/-- R68: does a rounding of `lo` with the `k` cut bits `rem` go up? -/
def roundsUp (r : Rnd) (lo rem k : Nat) : Bool :=
  let c := cutCount rem k
  match r.mode with
  | .rne => decide (2 * rem > 2 ^ k) || (k != 0 && 2 * rem == 2 ^ k && lo % 2 == 1)
  | .rz => false
  | .sr =>
    let w := if r.grad then 32 else 16
    let n := min c w
    let win :=
      if c > w then
        (rem / 2 ^ (k - (w - 1))) * 2 + (if rem % 2 ^ (k - (w - 1)) == 0 then 0 else 1)
      else rem / 2 ^ (k - c)
    if n == 0 then false else decide (win + r.lane.toNat / 2 ^ (32 - n) ≥ 2 ^ n)

/-- A rounded pattern and its flags. -/
structure Rounded where
  pat : Nat
  fl : Flags8
  deriving DecidableEq, Repr

/-- Exponent of a nonzero magnitude: floor(log2 m). -/
def Dy.log2 (d : Dy) : Int := (Nat.log2 d.m : Int) + d.e

/-- Rounding of a finite value into a binary format (R68, R69, R70). -/
def Bin.roundFin (b : Bin) (r : Rnd) (d : Dy) : Rounded :=
  if d.m == 0 then ⟨b.withSign d.neg 0, 0#8⟩
  else if d.log2 ≥ b.emax then
    let toInf := match r.mode with
      | .rne => true
      | .rz => false
      | .sr => if r.grad then r.lane != 0#32 else bits r.lane.toNat 16 16 != 0
    if toInf then ⟨b.withSign d.neg b.infPat, fOF ||| fNX⟩
    else ⟨b.withSign d.neg (b.infPat - 1), fNX⟩
  else if d.log2 < b.emin && !r.grad && r.ftz then ⟨b.withSign d.neg 0, fUF ||| fNX ||| fDN⟩
  else
    let ue := max d.log2 b.emin - b.p
    let k := (ue - d.e).toNat
    let m' := d.m * 2 ^ (d.e - ue).toNat
    let lo := m' / 2 ^ k
    let rem := m' % 2 ^ k
    let up := roundsUp r lo rem k
    let base := lo + (ue - b.emin + b.p).toNat * 2 ^ b.p
    let pat := if up then base + 1 else base
    let nx := rem != 0
    ⟨b.withSign d.neg pat,
      flagIf nx fNX ||| flagIf (nx && decide (d.log2 < b.emin)) fUF ||| flagIf (pat == b.infPat) fOF⟩

/-- Rounding into a binary format, special operands included (R69). -/
def Bin.round (b : Bin) (r : Rnd) : XVal → Rounded
  | .nan s => ⟨b.nanPat, flagIf s fIV⟩
  | .inf n => ⟨b.withSign n b.infPat, 0#8⟩
  | .fin d => b.roundFin r d

/-! ## Tapered formats (R60) -/

structure Tap where
  n : Nat
  es : Nat
  deriving DecidableEq, Repr

def Tap.t8a : Tap := ⟨8, 1⟩
def Tap.t8b : Tap := ⟨8, 2⟩
def Tap.t6 : Tap := ⟨6, 1⟩

/-- Length of the run of bits equal to `rb` from bit `i` of `q` downward. -/
def runLen (q : Nat) (rb : Bool) : Nat → Nat
  | 0 => 0
  | i + 1 => if q.testBit i == rb then runLen q rb i + 1 else 0

/-- decode of a tapered pattern (R60); NaR decodes to the canonical NaN (R61). -/
def Tap.decode (t : Tap) (p : Nat) : XVal :=
  if p == 0 then .zero
  else if p == 2 ^ (t.n - 1) then .nan false
  else
    let s := p.testBit (t.n - 1)
    let q := if s then 2 ^ t.n - p else p
    let rb := q.testBit (t.n - 2)
    let m := runLen q rb (t.n - 1)
    let k : Int := if rb then (m : Int) - 1 else -(m : Int)
    let restLen := t.n - 1 - m - 1
    let rest := q % 2 ^ restLen
    let e := if restLen ≥ t.es then rest / 2 ^ (restLen - t.es) else rest * 2 ^ (t.es - restLen)
    let fl := restLen - t.es
    let f := rest % 2 ^ fl
    .fin ⟨s, 2 ^ fl + f, k * (2 ^ t.es : Nat) + e - fl⟩

/-- log2 of maxpos (R60). -/
def Tap.maxLog (t : Tap) : Int := ((t.n - 2) * 2 ^ t.es : Nat)

/-- Is the finite nonzero magnitude above maxpos? -/
def Tap.above (t : Tap) (d : Dy) : Bool :=
  decide (d.log2 > t.maxLog) || (d.log2 == t.maxLog && d.m != 2 ^ Nat.log2 d.m)

/-- Rounding into a tapered format (R68, R69). -/
def Tap.round (t : Tap) (r : Rnd) : XVal → Rounded
  | .nan s => ⟨2 ^ (t.n - 1), fNR ||| flagIf s fIV⟩
  | .inf _ => ⟨2 ^ (t.n - 1), fNR⟩
  | .fin d =>
    let sg := fun (x : Nat) => if d.neg then 2 ^ t.n - x else x
    if d.m == 0 then ⟨0, 0#8⟩
    else if t.above d then ⟨sg (2 ^ (t.n - 1) - 1), fSAT ||| fNX⟩
    else if d.log2 < -t.maxLog then ⟨sg 1, fUF ||| fNX⟩
    else
      let L := d.log2
      let k : Int := L / ((2 ^ t.es : Nat) : Int)
      let e := (L % ((2 ^ t.es : Nat) : Int)).toNat
      let reg := if k ≥ 0 then (2 ^ (k.toNat + 1) - 1) * 2 else 1
      let rl := if k ≥ 0 then k.toNat + 2 else (-k).toNat + 1
      let fb := Nat.log2 d.m
      let V := (reg * 2 ^ t.es + e) * 2 ^ fb + (d.m - 2 ^ fb)
      let T := rl + t.es + fb
      let cut := T - (t.n - 1)
      let V' := V * 2 ^ (t.n - 1 - T)
      let lo := V' / 2 ^ cut
      let rem := V' % 2 ^ cut
      let pat := if roundsUp r lo rem cut then lo + 1 else lo
      ⟨sg pat, flagIf (rem != 0) fNX⟩

/-! ## Integers -/

/-- Rounding into an integer range (R68, R69); the result is the integer. -/
def roundInt (r : Rnd) (lo hi : Int) : XVal → Int × Flags8
  | .nan _ => (0, fIV)
  | .inf n => (if n then lo else hi, fIV)
  | .fin d =>
    let k := (-d.e).toNat
    let m' := d.m * 2 ^ d.e.toNat
    let q := m' / 2 ^ k
    let rem := m' % 2 ^ k
    let a : Nat := if roundsUp r q rem k then q + 1 else q
    let x : Int := if d.neg then -(a : Int) else a
    let c := clampInt x lo hi
    (c, flagIf (rem != 0) fNX ||| flagIf (c != x) (fSAT ||| fNX))

/-- decode of R71 for the formats that hold one number a pattern. -/
def Fmt.decode (f : Fmt) (x : Nat) : XVal :=
  match f with
  | .f32 => Bin.f32.decode x
  | .bf16 => Bin.bf16.decode x
  | .t8a => Tap.t8a.decode x
  | .t8b => Tap.t8b.decode x
  | .t6 => Tap.t6.decode x
  | .i8 => XVal.ofInt (signedOf 8 x)
  | .i32 => XVal.ofInt (signedOf 32 x)
  | .raw => XVal.ofInt x
  | .c32 => Bin.f32.decode x

/-- Rounding into a format (R68, R69). -/
def Fmt.round (f : Fmt) (r : Rnd) (x : XVal) : Rounded :=
  match f with
  | .f32 | .c32 => Bin.f32.round r x
  | .bf16 => Bin.bf16.round r x
  | .t8a => Tap.t8a.round r x
  | .t8b => Tap.t8b.round r x
  | .t6 => Tap.t6.round r x
  | .i8 => let (v, fl) := roundInt r (-128) 127 x; ⟨wrap 8 v, fl⟩
  | .i32 => let (v, fl) := roundInt r (-2147483648) 2147483647 x; ⟨wrap 32 v, fl⟩
  | .raw => ⟨0, 0#8⟩

/-- Rounding into a type: float and tapered by R68, integers by the type's range (R91, R122). -/
def Ty.round (t : Ty) (r : Rnd) (x : XVal) : Rounded :=
  match t.fmt with
  | some f => f.round r x
  | none => let (v, fl) := roundInt r t.lo t.hi x; ⟨wrap t.width v, fl⟩

/-- The exact value of a register field by its type (R71, R80, R109). -/
def Ty.decode (t : Ty) (x : Nat) : XVal :=
  match t.fmt with
  | some f => f.decode (x % 2 ^ (match t with | .c32 => 32 | t => t.width))
  | none => XVal.ofInt (t.intOf x)

/-- R70: the operand read under DAZ, with the flag it raises. -/
def Ty.decodeDaz (t : Ty) (daz : Bool) (x : Nat) : XRes :=
  let v := t.decode x
  match t, v with
  | .f32, .fin d => if daz && Bin.f32.isSub x then ⟨.fin ⟨d.neg, 0, 0⟩, fDN⟩ else ⟨v, 0#8⟩
  | .c32, .fin d => if daz && Bin.f32.isSub x then ⟨.fin ⟨d.neg, 0, 0⟩, fDN⟩ else ⟨v, 0#8⟩
  | .bf16, .fin d => if daz && Bin.bf16.isSub x then ⟨.fin ⟨d.neg, 0, 0⟩, fDN⟩ else ⟨v, 0#8⟩
  | _, _ => ⟨v, 0#8⟩

/-! ## Scales (R63 to R65) -/

/-- R65: the value of an element under the E8 scale byte `g`, exactly. -/
def scaled (f : Fmt) (x : Nat) (g : Nat) : XVal :=
  match f.decode x with
  | .nan _ => .nan false
  | .inf _ => .nan false
  | .fin d => if g == 255 then .nan false else .fin (d.scale ((g : Int) - 127))

/-- R65: a scaled value delivered into a float type: saturated at the largest finite value, else rounded. -/
def deliverScaled (f : Fmt) (r : Rnd) (v : XVal) : Rounded :=
  match v with
  | .fin d =>
    let lim : Option (Nat × Nat) := match f with
      | .f32 | .c32 => some (Bin.f32.infPat - 1, Bin.f32.signBit)
      | .bf16 => some (Bin.bf16.infPat - 1, Bin.bf16.signBit)
      | _ => none
    match lim with
    | some (mx, sb) =>
      match (f.decode mx) with
      | .fin l =>
        if (Dy.cmp { d with neg := false } l) == .gt then ⟨(if d.neg then sb else 0) + mx, fSAT⟩
        else f.round { r with mode := .rne } v
      | _ => f.round { r with mode := .rne } v
    | none => f.round { r with mode := .rne } v
  | _ => f.round { r with mode := .rne } v

/-! ## Quotients and roots: the finite pre-rounding value of R89 -/

/-- R89 from an integer `Q ≥ 1` that counts units of `2^e` and a mark that a remainder was dropped. -/
def preRound (neg : Bool) (Q : Nat) (e : Int) (dropped : Bool) : Dy :=
  let L := Nat.log2 Q
  let d := L - 63
  let up := 63 - L
  let t := Q / 2 ^ d * 2 ^ up
  let sticky := dropped || Q % 2 ^ d != 0
  ⟨neg, 2 * t + (if sticky then 1 else 0), e + d - up - 1⟩

/-- The quotient of two finite values, the divisor nonzero (R89). -/
def quotDy (a b : Dy) : Dy :=
  if a.m == 0 then ⟨a.neg != b.neg, 0, 0⟩
  else
    let s := 66 + Nat.log2 b.m - Nat.log2 a.m
    let n := a.m * 2 ^ s
    preRound (a.neg != b.neg) (n / b.m) (a.e - b.e - s) (n % b.m != 0)

/-- Integer square root, bit by bit from bit `i` downward. -/
def isqrtFrom (n : Nat) : Nat → Nat → Nat
  | 0, r => r
  | i + 1, r => if (r + 2 ^ i) * (r + 2 ^ i) ≤ n then isqrtFrom n i (r + 2 ^ i) else isqrtFrom n i r

/-- floor of the square root. -/
def isqrt (n : Nat) : Nat := isqrtFrom n (Nat.log2 n / 2 + 1) 0

/-- The square root of a finite value that is not negative (R89). -/
def sqrtDy (a : Dy) : Dy :=
  if a.m == 0 then ⟨a.neg, 0, 0⟩
  else
    let odd := a.e % 2 != 0
    let m := if odd then 2 * a.m else a.m
    let e := if odd then a.e - 1 else a.e
    let n := m * 2 ^ 132
    let q := isqrt n
    preRound false q (e / 2 - 66) (q * q != n)

/-- The reciprocal square root of a positive finite value (R126, in the form of R89). -/
def rsqrtDy (a : Dy) : Dy :=
  let odd := a.e % 2 != 0
  let m := if odd then 2 * a.m else a.m
  let e := if odd then a.e - 1 else a.e
  let s := Nat.log2 m / 2 + 68
  let n := 2 ^ (2 * s)
  let q := isqrt (n / m)
  preRound false q (-(e / 2) - s) (q * q * m != n)

/-- a / b of R88 and R89. -/
def xdiv (a b : XVal) : XRes :=
  match a, b with
  | .nan s, y => ⟨.nan false, flagIf (s || y.isSig) fIV⟩
  | _, .nan s => ⟨.nan false, flagIf s fIV⟩
  | .inf _, .inf _ => ⟨.nan false, fIV⟩
  | .inf n, .fin d => ⟨.inf (n != d.neg), 0#8⟩
  | .fin d, .inf n => ⟨.fin ⟨d.neg != n, 0, 0⟩, 0#8⟩
  | .fin x, .fin y =>
    if y.m == 0 then
      if x.m == 0 then ⟨.nan false, fIV⟩ else ⟨.inf (x.neg != y.neg), fDZ⟩
    else ⟨.fin (quotDy x y), 0#8⟩

/-- Square root of R88, R89 and R126. -/
def xsqrt (a : XVal) : XRes :=
  match a with
  | .nan s => ⟨.nan false, flagIf s fIV⟩
  | .inf n => if n then ⟨.nan false, fIV⟩ else ⟨.inf false, 0#8⟩
  | .fin d => if d.m != 0 && d.neg then ⟨.nan false, fIV⟩ else ⟨.fin (sqrtDy d), 0#8⟩

end Sys2Proof.Machine
end

