-- ==== Sys2Proof/Syntax.lean ====
section
/-! DEFINITION. The instruction type: one constructor for every row of spec/opcode_table.json.
Direct forms (R37) carry the fields of their encoding; template operations (R39) carry the expanded template, the
literal that serves it and the slot it stands in; the remaining rows are the steps of spec/95_what_each_step_holds.md. -/
namespace Sys2Proof

/-- The fields of an expanded template other than OPC and CLS (R39), the literal that serves it (R43, R46) and the
slot position it stands in (R15). -/
structure TOp where
  slot : Nat
  md : BitVec 5
  ty : BitVec 6
  dst : BitVec 8
  sa : BitVec 8
  sb : BitVec 8
  pr : BitVec 6
  hd : BitVec 8
  lk : BitVec 4
  lit : BitVec 22
  deriving DecidableEq, Repr

/-- A host packet as the device holds it (R318): the queue it came from, its words, slot after slot, and what the host
returned for the DMA reads that the packet names (`none`: a host DMA failure, R310). -/
structure Packet where
  q : Nat
  words : List Word64
  host : Option (List Byte)
  deriving DecidableEq, Repr

/-- Kinds of flat-space access (R276, R330). -/
inductive FlatKind where
  | read | write | atomic
  deriving DecidableEq, Repr

/-- A flat-space access as the target module sees it (R276): job, issuing module, request number, tag (R347), target rank, offset,
bytes wanted or carried, the type and rounding with which the target converts it, and for an atomic its opcode. -/
structure FlatReq where
  kind : FlatKind
  job : Nat
  smod : Nat
  req : Nat
  tagged : Bool
  tag : Nat
  rank : Nat
  off : Nat
  ty : Nat
  rnd : Nat
  lane : Word32
  opc : Nat
  count : Nat
  data : List Byte
  deriving DecidableEq, Repr

/-- A 64-byte fabric flit (R330): the port it arrives at or leaves by, its header and its 56 payload bytes; and what the layout
of kinds 1 to 5 does not name (notes/assumptions/21.md): the data bytes that it carries or asks for, its job, the rank of the member that
collective data is for, the request that it belongs to, none where it is plain bytes, and with a reply the flags that a conversion
raised, or one more than the address at which the request failed. -/
structure Flit where
  port : Nat
  hdr : Word64
  payload : List Byte
  count : Nat
  job : Nat
  rank : Nat
  req : Option FlatReq := none
  info : Nat := 0
  deriving DecidableEq, Repr

/-- What the boot ROM finds in the firmware image and the fuses (R325): readable and well formed, vendor key hash fuses
readable, the two verifications, the security versions, a lock-step mismatch while booting. -/
structure BootImage where
  readable : Bool
  fuses : Bool
  rsaOk : Bool
  slhOk : Bool
  svn : Nat
  fsvn : Nat
  mismatch : Bool
  deriving DecidableEq, Repr

/-- Every row of the opcode table. -/
inductive Instr where
  /-- BUNDLE_ISSUE: A core issues one 192-bit bundle: all eight slots read their sources in the same beat, and the slot operations take effect together (R16) -/
  | bundleIssue (w : Bundle)
  /-- RESULT_DELIVERY: An operation's result is written to its destination at issue plus the latency in use, and its flags are raised (R20) -/
  | resultDelivery
  /-- STORE_PERFORM: A scratchpad store performs at its fixed beat, issue + 2 or + 3, plus 4 for another core (R192) -/
  | storePerform
  /-- BEAT_OVERRUN: A non-YIELD bundle issuing while YLEFT is 0 raises a beat-overrun trap, TRAPC 0x12 (R99) -/
  | beatOverrun
  /-- ADD: Adds two integers, reducing the sum modulo 2^w or saturating it under .sat (R83) -/
  | add (o : TOp)
  /-- ADD_DIRECT_REG: Direct two-address register form of ADD (R37) -/
  | addDirectReg (d : BitVec 6) (a : BitVec 6)
  /-- ADD_DIRECT_IMM: Direct form of ADD that adds a 10-bit signed immediate (R37) -/
  | addDirectImm (d : BitVec 6) (imm : BitVec 10)
  /-- SUB: Subtracts two integers (R83) -/
  | sub (o : TOp)
  /-- SUB_DIRECT: Direct two-address form of SUB (R37) -/
  | subDirect (d : BitVec 6) (a : BitVec 6)
  /-- ADDSH: Computes a + b x 2^k, modulo 2^64 (R83) -/
  | addsh (o : TOp)
  /-- MUL: Integer multiply, reduced or saturated (R83) -/
  | mul (o : TOp)
  /-- MULH: Writes the high part of an integer product (R83) -/
  | mulh (o : TOp)
  /-- DIV: Integer division rounded toward zero; division by zero sets DZ (R84) -/
  | div (o : TOp)
  /-- REM: Integer remainder with the sign of a (R84) -/
  | rem (o : TOp)
  /-- ABS: Writes the absolute value of an integer (R83) -/
  | abs (o : TOp)
  /-- AND: Bitwise AND (R83) -/
  | and (o : TOp)
  /-- AND_DIRECT: Direct two-address form of AND (R37) -/
  | andDirect (d : BitVec 6) (a : BitVec 6)
  /-- OR: Bitwise OR (R83) -/
  | or (o : TOp)
  /-- OR_DIRECT: Direct two-address form of OR (R37) -/
  | orDirect (d : BitVec 6) (a : BitVec 6)
  /-- XOR: Bitwise XOR (R83) -/
  | xor (o : TOp)
  /-- XOR_DIRECT: Direct two-address form of XOR (R37) -/
  | xorDirect (d : BitVec 6) (a : BitVec 6)
  /-- ANDN: Computes a AND NOT b (R83) -/
  | andn (o : TOp)
  /-- SHL: Shift left (R83) -/
  | shl (o : TOp)
  /-- SHL_DIRECT: Direct form of SHL by a 6-bit immediate (R37) -/
  | shlDirect (d : BitVec 6) (imm : BitVec 6)
  /-- SHR: Logical shift right (R83) -/
  | shr (o : TOp)
  /-- SHR_DIRECT: Direct form of SHR by a 6-bit immediate (R37) -/
  | shrDirect (d : BitVec 6) (imm : BitVec 6)
  /-- SAR: Arithmetic shift right (R83) -/
  | sar (o : TOp)
  /-- ROL: Rotate left (R83) -/
  | rol (o : TOp)
  /-- MIN: Smaller of two values, by the type's signedness (R83) -/
  | min (o : TOp)
  /-- MAX: Larger of two values, by the type's signedness (R83) -/
  | max (o : TOp)
  /-- MINU: Unsigned 64-bit minimum (R83) -/
  | minu (o : TOp)
  /-- MAXU: Unsigned 64-bit maximum (R83) -/
  | maxu (o : TOp)
  /-- CMP: Compares two integers, writing -1, 0 or 1 and FLAGS.COND (R85) -/
  | cmp (o : TOp)
  /-- SEL: Selects sa or b according to a condition on FLAGS.COND (R85) -/
  | sel (o : TOp)
  /-- MOV: Moves a register or a literal into sd (R86) -/
  | mov (o : TOp)
  /-- MOV_DIRECT_IMM: Direct form of MOV with a 10-bit signed immediate (R37) -/
  | movDirectImm (d : BitVec 6) (imm : BitVec 10)
  /-- MOV_DIRECT_LIT: Direct form of MOV that takes a paired literal (R37) -/
  | movDirectLit (d : BitVec 6) (lit : BitVec 22)
  /-- MOVHI: Writes a literal into bits [43:22] or [63:44] of sd (R86) -/
  | movhi (o : TOp)
  /-- MOVHI_DIRECT: Direct form of MOVHI (R37) -/
  | movhiDirect (d : BitVec 6) (q : BitVec 2) (lit : BitVec 22)
  /-- CLZ: Counts leading zeros (R83) -/
  | clz (o : TOp)
  /-- CTZ: Counts trailing zeros (R83) -/
  | ctz (o : TOp)
  /-- POPC: Counts set bits (R83) -/
  | popc (o : TOp)
  /-- BREV: Reverses the order of the bits (R83) -/
  | brev (o : TOp)
  /-- BSWAP: Reverses the order of the bytes (R83) -/
  | bswap (o : TOp)
  /-- BEXT: Extracts a bitfield described by a literal descriptor (R87) -/
  | bext (o : TOp)
  /-- BINS: Inserts a bitfield into sd (R87) -/
  | bins (o : TOp)
  /-- EXT: Sign- or zero-extends the low bits of sa (R87) -/
  | ext (o : TOp)
  /-- FADD: Scalar float add, rounded once (R88) -/
  | fadd (o : TOp)
  /-- FSUB: Scalar float subtract (R88) -/
  | fsub (o : TOp)
  /-- FMUL: Scalar float multiply (R88) -/
  | fmul (o : TOp)
  /-- FMA: Scalar fused multiply-add into sd (R88) -/
  | fma (o : TOp)
  /-- FDIV: Scalar float divide from a finite pre-rounding value (R89) -/
  | fdiv (o : TOp)
  /-- FSQRT: Scalar float square root (R89) -/
  | fsqrt (o : TOp)
  /-- FMIN: Float minimum that ignores a single NaN (R90) -/
  | fmin (o : TOp)
  /-- FMAX: Float maximum (R90) -/
  | fmax (o : TOp)
  /-- FCMP: Float compare writing sd and FLAGS.COND (R90) -/
  | fcmp (o : TOp)
  /-- FCLASS: Classifies a float value, setting one bit of sd (R90) -/
  | fclass (o : TOp)
  /-- FSGN: Replaces the sign of a (R90) -/
  | fsgn (o : TOp)
  /-- FCVT: Converts between float formats (R91) -/
  | fcvt (o : TOp)
  /-- FCVTI: Converts a float to an integer (R91) -/
  | fcvti (o : TOp)
  /-- ICVTF: Converts an integer to a float (R91) -/
  | icvtf (o : TOp)
  /-- VADD: Lanewise add (R114) -/
  | vadd (o : TOp)
  /-- VSUB: Lanewise subtract (R114) -/
  | vsub (o : TOp)
  /-- VMUL: Lanewise multiply, including complex (R114) -/
  | vmul (o : TOp)
  /-- VFMA: Lanewise fused multiply-add (R114) -/
  | vfma (o : TOp)
  /-- VFMS: Lanewise d - a x b (R114) -/
  | vfms (o : TOp)
  /-- VMIN: Lanewise minimum (R114) -/
  | vmin (o : TOp)
  /-- VMAX: Lanewise maximum (R114) -/
  | vmax (o : TOp)
  /-- VABS: Lanewise absolute value (R114) -/
  | vabs (o : TOp)
  /-- VNEG: Lanewise negation (R114) -/
  | vneg (o : TOp)
  /-- VAND: Lanewise AND (R116) -/
  | vand (o : TOp)
  /-- VOR: Lanewise OR (R116) -/
  | vor (o : TOp)
  /-- VXOR: Lanewise XOR (R116) -/
  | vxor (o : TOp)
  /-- VANDN: Lanewise a AND NOT b (R116) -/
  | vandn (o : TOp)
  /-- VNOT: Lanewise NOT (R116) -/
  | vnot (o : TOp)
  /-- VSHL: Lanewise shift left (R116) -/
  | vshl (o : TOp)
  /-- VSHR: Lanewise logical shift right (R116) -/
  | vshr (o : TOp)
  /-- VSAR: Lanewise arithmetic shift right (R116) -/
  | vsar (o : TOp)
  /-- VROL: Lanewise rotate left (R116) -/
  | vrol (o : TOp)
  /-- VCMP: Lanewise compare into a predicate (R117) -/
  | vcmp (o : TOp)
  /-- VSEL: Lanewise select by a predicate (R118) -/
  | vsel (o : TOp)
  /-- VMOV: Copies lanes or a constant (R119) -/
  | vmov (o : TOp)
  /-- VBCAST: Broadcasts a scalar to every active lane (R119) -/
  | vbcast (o : TOp)
  /-- VBCAST_LANE: Broadcasts one lane of va (R119) -/
  | vbcastLane (o : TOp)
  /-- VBCAST_IOTA: Writes sa + k into lane k (R119) -/
  | vbcastIota (o : TOp)
  /-- VCVT: Lanewise conversion (R122) -/
  | vcvt (o : TOp)
  /-- VMULH: Lanewise high part of an integer product (R115) -/
  | vmulh (o : TOp)
  /-- VRCP: Lanewise reciprocal (R126) -/
  | vrcp (o : TOp)
  /-- VRSQRT: Lanewise reciprocal square root (R126) -/
  | vrsqrt (o : TOp)
  /-- VSQRT: Lanewise square root (R126) -/
  | vsqrt (o : TOp)
  /-- VEXP2: Lanewise 2^a (R126) -/
  | vexp2 (o : TOp)
  /-- VLOG2: Lanewise log2 (R126) -/
  | vlog2 (o : TOp)
  /-- VTANH: Lanewise tanh (R126) -/
  | vtanh (o : TOp)
  /-- VCLZ: Lanewise count of leading zeros (R116) -/
  | vclz (o : TOp)
  /-- VPOPC: Lanewise count of set bits (R116) -/
  | vpopc (o : TOp)
  /-- VRSUM: Sums the lanes in a fixed tree (R127) -/
  | vrsum (o : TOp)
  /-- VRMAX: Maximum over the lanes (R127) -/
  | vrmax (o : TOp)
  /-- VRMIN: Minimum over the lanes (R127) -/
  | vrmin (o : TOp)
  /-- VSCAN: Prefix sum in lane order (R128) -/
  | vscan (o : TOp)
  /-- VSORT: Stable sort of the keys with their payloads (R129) -/
  | vsort (o : TOp)
  /-- VPERM: Permutes the lanes by index (R120) -/
  | vperm (o : TOp)
  /-- VROT: Rotates the lanes (R120) -/
  | vrot (o : TOp)
  /-- VEXTR: Extracts a lane into a scalar register (R121) -/
  | vextr (o : TOp)
  /-- VINS: Inserts a scalar into a lane (R121) -/
  | vins (o : TOp)
  /-- VRAND: Draws random lanes with RNGC (R132) -/
  | vrand (o : TOp)
  /-- PPACK: Packs p0 to p15 into a vector (R130) -/
  | ppack (o : TOp)
  /-- PUNPACK: Restores predicates from a vector (R130) -/
  | punpack (o : TOp)
  /-- PLOG: Predicate logic (R131) -/
  | plog (o : TOp)
  /-- PCNT: Counts the set bits of a predicate (R131) -/
  | pcnt (o : TOp)
  /-- PFIRST: Index of the first or last set bit (R131) -/
  | pfirst (o : TOp)
  /-- VSAT: Saturates each lane to the type (R125) -/
  | vsat (o : TOp)
  /-- VRND: Rounds F32 lanes onto another grid (R123) -/
  | vrnd (o : TOp)
  /-- VSCL: Scales each lane by 2^n (R124) -/
  | vscl (o : TOp)
  /-- MOP: Accumulates K outer products into a tile (R145) -/
  | mop (o : TOp)
  /-- MOPS: F32 outer product synthesised from slices in six steps (R146) -/
  | mops (o : TOp)
  /-- MOPC: Compensated complex outer product (R147) -/
  | mopc (o : TOp)
  /-- MOPV: Outer product with A unfolded from a tensor (R150) -/
  | mopv (o : TOp)
  /-- MRANK1: Exact F32 rank-one update (R148) -/
  | mrank1 (o : TOp)
  /-- MZERO: Zeroes a tile (R151) -/
  | mzero (o : TOp)
  /-- MFILL: Fills a tile from scratchpad (R151) -/
  | mfill (o : TOp)
  /-- MSTASH: Writes a tile to scratchpad, rounded (R152) -/
  | mstash (o : TOp)
  /-- MUCFG: Loads the unfolding descriptor (R149) -/
  | mucfg (o : TOp)
  /-- MSCALE: Writes the engine scale register MSCL (R138) -/
  | mscale (o : TOp)
  /-- ARD: Reads a tile row into a vector, rounded (R154) -/
  | ard (o : TOp)
  /-- ARDC: Reads a tile row and clears the elements read (R154) -/
  | ardc (o : TOp)
  /-- ASPILL: Spills a tile to scratchpad (R156) -/
  | aspill (o : TOp)
  /-- AFILL: Fills a tile from scratchpad (R156) -/
  | afill (o : TOp)
  /-- ASGD: SGD weight update from a gradient row (R155) -/
  | asgd (o : TOp)
  /-- AMOM: Momentum weight update (R155) -/
  | amom (o : TOp)
  /-- AADAM: Adam weight update (R155) -/
  | aadam (o : TOp)
  /-- ASTAT: Reads engine status (R157) -/
  | astat (o : TOp)
  /-- CSTART: Starts a channel on a chain of transfer records (R257) -/
  | cstart (o : TOp)
  /-- CSTART_IN: Starts a chain and makes it the pending input chain (R257) -/
  | cstartIn (o : TOp)
  /-- CAPPEND: Makes a parked channel read its record again (R258) -/
  | cappend (o : TOp)
  /-- CSTOP: Stops a running or parked channel (R259) -/
  | cstop (o : TOp)
  /-- CWM: Reads channel state (R260) -/
  | cwm (o : TOp)
  /-- CRANGE: Sets a channel's watermark range (R261) -/
  | crange (o : TOp)
  /-- CTAG: Sets a channel's step tag (R261) -/
  | ctag (o : TOp)
  /-- CPREF: Asks the die to prefetch lines into L2 (R261) -/
  | cpref (o : TOp)
  /-- CBANK: Switches a bank's mode once the bank is quiet (R244) -/
  | cbank (o : TOp)
  /-- CQFMT: Writes a quarter format register (R243) -/
  | cqfmt (o : TOp)
  /-- CQFMT_GET: Reads a quarter format register (R261) -/
  | cqfmtGet (o : TOp)
  /-- BUFSWAP: Closes and commits a buffer phase, with a checkpoint (R264) -/
  | bufswap (o : TOp)
  /-- EVPOP: Pops the oldest event-queue entry; an entry acts as an acquire (R262) -/
  | evpop (o : TOp)
  /-- LD: Scalar load, converted by the region format (R199) -/
  | ld (o : TOp)
  /-- LD_DIRECT: Direct 64-bit RAW load (R37) -/
  | ldDirect (d : BitVec 6) (a : BitVec 6) (imm : BitVec 4)
  /-- ST: Scalar store (R199) -/
  | st (o : TOp)
  /-- ST_DIRECT: Direct 64-bit RAW store (R37) -/
  | stDirect (d : BitVec 6) (a : BitVec 6) (imm : BitVec 4)
  /-- VLD: Vector load (R199) -/
  | vld (o : TOp)
  /-- VST: Vector store (R199) -/
  | vst (o : TOp)
  /-- VGATH: Gathers elements by index (R200) -/
  | vgath (o : TOp)
  /-- VSCAT: Scatters elements by index (R200) -/
  | vscat (o : TOp)
  /-- LDC: Load-consume that taints its destination (R207) -/
  | ldc (o : TOp)
  /-- VLDC: Vector load-consume (R207) -/
  | vldc (o : TOp)
  /-- AMADD: Atomic add (R204) -/
  | amadd (o : TOp)
  /-- AMFADD: Atomic float add (R204) -/
  | amfadd (o : TOp)
  /-- AMMIN: Atomic minimum (R204) -/
  | ammin (o : TOp)
  /-- AMMAX: Atomic maximum (R204) -/
  | ammax (o : TOp)
  /-- AMAND: Atomic AND (R204) -/
  | amand (o : TOp)
  /-- AMOR: Atomic OR (R204) -/
  | amor (o : TOp)
  /-- AMXOR: Atomic XOR (R204) -/
  | amxor (o : TOp)
  /-- AMSWAP: Atomic swap (R204) -/
  | amswap (o : TOp)
  /-- AMCAS: Atomic compare and swap (R204) -/
  | amcas (o : TOp)
  /-- AMCASGT: Atomic keyed maximum (R204) -/
  | amcasgt (o : TOp)
  /-- AMCASV: Version-matched atomic swap (R204) -/
  | amcasv (o : TOp)
  /-- AMCASP: Atomic pointer swap with a counter (R204) -/
  | amcasp (o : TOp)
  /-- VAMADD: Vector atomic add (R205) -/
  | vamadd (o : TOp)
  /-- FENCE: Release and acquire at a scope, delivering a status word (R211) -/
  | fence (o : TOp)
  /-- LDACQ: Load with acquire (R209) -/
  | ldacq (o : TOp)
  /-- STREL: Store with release (R210) -/
  | strel (o : TOp)
  /-- CHK: Compares two registers and traps on a mismatch (R213) -/
  | chk (o : TOp)
  /-- STG: Guarded scalar store (R214) -/
  | stg (o : TOp)
  /-- VSTG: Guarded vector store (R214) -/
  | vstg (o : TOp)
  /-- JMP: Unconditional jump (R93) -/
  | jmp (o : TOp)
  /-- JMP_DIRECT: Direct form of JMP (R37) -/
  | jmpDirect (disp : BitVec 16)
  /-- BCMP: Branch on a comparison of two registers (R93) -/
  | bcmp (o : TOp)
  /-- BEQZ: Branch if zero (R93) -/
  | beqz (o : TOp)
  /-- BEQZ_DIRECT: Direct form of BEQZ (R37) -/
  | beqzDirect (a : BitVec 6) (disp : BitVec 10)
  /-- BNEZ: Branch if nonzero (R93) -/
  | bnez (o : TOp)
  /-- BNEZ_DIRECT: Direct form of BNEZ (R37) -/
  | bnezDirect (a : BitVec 6) (disp : BitVec 10)
  /-- BPRED: Branch on a predicate condition (R93) -/
  | bpred (o : TOp)
  /-- BRG: Guarded branch that traps if pa and pb differ (R93) -/
  | brg (o : TOp)
  /-- CALL: Call that writes lr (R94) -/
  | call (o : TOp)
  /-- CALL_DIRECT: Direct form of CALL (R37) -/
  | callDirect (disp : BitVec 16)
  /-- CALLR: Call through a register (R94) -/
  | callr (o : TOp)
  /-- RET: Return through lr (R94) -/
  | ret (o : TOp)
  /-- RET_DIRECT: Direct form of RET (R37) -/
  | retDirect
  /-- JMPR: Jump through a register (R93) -/
  | jmpr (o : TOp)
  /-- JMPR_DIRECT: Direct form of JMPR (R37) -/
  | jmprDirect (a : BitVec 6)
  /-- LOOP: Sets up hardware loop k (R96) -/
  | loop (o : TOp)
  /-- LOOPX: Sets up a software-pipelined hardware loop (R233) -/
  | loopx (o : TOp)
  /-- YIELD: Declares the next YIELD within n beats; a point at which the arbiter may switch (R99) -/
  | yield (o : TOp)
  /-- YIELD_DIRECT: Direct form of YIELD (R37) -/
  | yieldDirect (imm : BitVec 16)
  /-- CONTEXT_SWITCH_OUT: After in-flight work drains, the context is saved and the chosen context restored (R100) -/
  | contextSwitchOut
  /-- WAITB: Makes the next bundle wait until BEAT reaches sa (R101) -/
  | waitb (o : TOp)
  /-- WAITB_DIRECT: Direct form of WAITB (R37) -/
  | waitbDirect (a : BitVec 6)
  /-- WAIT_END: A wait of the WAITB kind ends, and the next bundle issues (R101) -/
  | waitEnd
  /-- GETS: Reads a special register (R103) -/
  | gets (o : TOp)
  /-- GETS_DIRECT: Direct form of GETS (R37) -/
  | getsDirect (d : BitVec 6) (idx : BitVec 6)
  /-- SETS: Writes a special register that has no behaviour of its own (R103) -/
  | sets (o : TOp)
  /-- SETS_DIRECT: Direct form of SETS (R37) -/
  | setsDirect (a : BitVec 6) (idx : BitVec 6)
  /-- SETS_RNGT: Writing RNGT starts the 32-beat reload of the private Tombola copy (R78) -/
  | setsRngt (o : TOp)
  /-- SETS_CKPTS: Writing CKPTS takes a checkpoint and sets guarded mode (R218) -/
  | setsCkpts (o : TOp)
  /-- SETS_LC: Writing LCk sets or ends an active loop's remaining passes (R97) -/
  | setsLc (o : TOp)
  /-- SETS_TRAPPC: Writing TRAPPC makes the written value the return point (R226) -/
  | setsTrappc (o : TOp)
  /-- SETS_ADJOFF: Writes the adjoint offset, allowed only in plain mode (R189) -/
  | setsAdjoff (o : TOp)
  /-- SETS_TAPEB: Moves the tape base, allowed only in plain mode with the tape flushed (R189) -/
  | setsTapeb (o : TOp)
  /-- SETS_TAPEL: Sets the tape limit (R189) -/
  | setsTapel (o : TOp)
  /-- TRAP: Raises a user trap after its bundle (R102) -/
  | trap (o : TOp)
  /-- TRAP_DIRECT: Direct form of TRAP (R37) -/
  | trapDirect (imm : BitVec 8)
  /-- HALT: Ends the context (R102) -/
  | halt (o : TOp)
  /-- HALT_DIRECT: Direct form of HALT (R37) -/
  | haltDirect
  /-- DLD: Loads a dictionary image into the bank not selected (R169) -/
  | dld (o : TOp)
  /-- DLD_DIRECT: Direct form of DLD (R37) -/
  | dldDirect (a : BitVec 6)
  /-- DLD_COMPLETION: A dictionary load completes, leaving entries valid or refused and updating DICTSEL (R169) -/
  | dldCompletion
  /-- DSET: Checks a template and writes it to an entry (R170) -/
  | dset (o : TOp)
  /-- DSET_DIRECT: Direct form of DSET (R37) -/
  | dsetDirect (a : BitVec 6) (bank : BitVec 1) (n : BitVec 8)
  /-- DGET: Reads a dictionary entry (R171) -/
  | dget (o : TOp)
  /-- DGET_DIRECT: Direct form of DGET (R37) -/
  | dgetDirect (d : BitVec 6) (bank : BitVec 1) (n : BitVec 8)
  /-- DSEL: Selects the active dictionary bank (R172) -/
  | dsel (o : TOp)
  /-- DSEL_DIRECT: Direct form of DSEL (R37) -/
  | dselDirect (bank : BitVec 1)
  /-- FFENCE: Makes pending dictionary changes visible to the next bundle (R173) -/
  | ffence (o : TOp)
  /-- FFENCE_DIRECT: Direct form of FFENCE (R37) -/
  | ffenceDirect
  /-- ADJM: Sets the adjoint mode and fences differentiable accesses (R184) -/
  | adjm (o : TOp)
  /-- ADJLD: Writes the address of an adjoint cell (R186) -/
  | adjld (o : TOp)
  /-- ADJCLR: Discards the tape (R187) -/
  | adjclr (o : TOp)
  /-- TAPEFL: Flushes the tape to its home memory (R188) -/
  | tapefl (o : TOp)
  /-- TAPE_SPILL: When the tape bank fills, its oldest bytes are written to their homes (R179) -/
  | tapeSpill
  /-- TAPE_REFILL: When pops empty the tape bank, bytes are refilled from their homes (R179) -/
  | tapeRefill
  /-- CKPT: Takes a checkpoint into the shadow set (R219) -/
  | ckpt (o : TOp)
  /-- CKPT_DIRECT: Direct form of CKPT (R37) -/
  | ckptDirect
  /-- RTE: Returns from handler mode (R230) -/
  | rte (o : TOp)
  /-- BKPT: Breakpoint routed to firmware (R231) -/
  | bkpt (o : TOp)
  /-- TRAP_ENTRY: After deliveries drain, the core enters the handler with the trap registers written (R228) -/
  | trapEntry
  /-- FIRMWARE_ROUTED_TRAP: A double trap or a trap without a handler stops and saves the footprint and ends the launch (R302) -/
  | firmwareRoutedTrap
  /-- URGENT_PREEMPTION: An urgent request drains the LOOPX pipeline at a pass boundary and saves the context (R234) -/
  | urgentPreemption
  /-- CONTEXT_RESTORE: A saved context is written back and issues its NPC (R237) -/
  | contextRestore
  /-- TOMBOLA_RELOAD_DONE: The private copy of the Tombola table finishes loading, and stalled draws proceed (R78) -/
  | tombolaReloadDone
  /-- VARIABLE_LOAD_REPLY: A reply delivers a memory-class load or atomic result, or a poison or failure trap (R194) -/
  | variableLoadReply (id : Nat) (uncorrectable : Bool)
  /-- LOAD_TIMEOUT: A memory load or atomic not delivered in 4,194,304 beats fails with detail 13 (R217) -/
  | loadTimeout (id : Nat)
  /-- STREL_PERFORM: A STREL performs once earlier loads are delivered and covered stores are done (R210) -/
  | strelPerform
  /-- FENCE_COMPLETE: A FENCE completes when no covered store is outstanding, and delivers its status (R211) -/
  | fenceComplete
  /-- FENCE_TIMEOUT: A FENCE with no outcome in 4,194,304 beats completes with TO set (R211) -/
  | fenceTimeout
  /-- STORE_FAILURE_REPORT: A store's failure becomes known and is accumulated in FSW (R212) -/
  | storeFailureReport (id : Nat) (status : Nat) (port : Nat)
  /-- TRANSLATION_WALK: A translation miss walks the two stages of tables, and the waiting bundle proceeds or faults (R278) -/
  | translationWalk (addr : Nat)
  /-- L2_FILL: An L2 sector is filled from home, keeping dirty bytes (R270) -/
  | l2Fill (die sector : Nat) (uncorrectable : Bool)
  /-- L2_WRITEBACK: The dirty bytes of a sector are written back to the home (R269) -/
  | l2Writeback (die sector : Nat) (uncorrectable : Bool)
  /-- TURNSTILE_FIRE: A tile whose count is full in every die fires and starts its transfer (R283) -/
  | turnstileFire (k : Nat)
  /-- HOME_ATOMIC: A memory-class atomic is performed indivisibly at its home (R203) -/
  | homeAtomic (id : Nat) (uncorrectable : Bool)
  /-- FLAT_ACCESS_AT_TARGET: A flat access is translated, checked and served at the target module (R276) -/
  | flatAccessAtTarget (r : FlatReq)
  /-- RECORD_FETCH: The copy engine reads a transfer record once and validates it (R247) -/
  | recordFetch (ch : Nat) (uncorrectable : Bool)
  /-- CHUNK_READ: A chunk of a record is read (R252) -/
  | chunkRead (ch : Nat) (uncorrectable : Bool)
  /-- CHUNK_WRITE: A chunk is processed through its value stages and written (R250) -/
  | chunkWrite (ch : Nat)
  /-- RECORD_COMPLETE: A record completes, and the channel fetches NEXT or goes idle (R252) -/
  | recordComplete (ch : Nat)
  /-- COPY_RECORD_TIMEOUT: A record with no outcome in 4,194,304 beats fails with status 6 (R255) -/
  | copyRecordTimeout (ch : Nat)
  /-- CSTOP_EFFECT: The stop takes effect at issue + L(CP), and the channel goes idle once read chunks are written (R259) -/
  | cstopEffect (ch : Nat)
  /-- FIFO_CHUNK_RELEASE: A chunk waiting on a FIFO bank proceeds once the queue has bytes or room (R240) -/
  | fifoChunkRelease (ch : Nat)
  /-- BANK_MODE_SWITCH: Once the bank is quiet, its mode changes and its contents are reset (R244) -/
  | bankModeSwitch
  /-- BUFFER_PHASE_COMMIT: When every core's BUFSWAP and the input chains are done, the phase commits (R264) -/
  | bufferPhaseCommit
  /-- PHASE_CANCEL: A poison or arithmetic trap in a cancellable phase rolls the footprint back and reruns the input chains (R266) -/
  | phaseCancel
  /-- LAUNCH: Host packet that prepares a rank's step and arms its cores (R298) -/
  | launch (p : Packet)
  /-- CORE_ENTRY: An armed core issues its entry bundle at T0 + Δ + OFS with its entry state (R297) -/
  | coreEntry
  /-- STEP_END: When all named cores have halted and their stores performed, the record and completion are written (R293) -/
  | stepEnd (job rank : Nat)
  /-- IDLE_ACTIVE_PARK: Before another rank starts on the seat, the idle-active rank is parked (R294) -/
  | idleActivePark (job rank : Nat)
  /-- INVAL: Host packet that invalidates held translations of a range (R299) -/
  | inval (p : Packet)
  /-- INVAL_COMPLETE: An INVAL completes when no core holds the range, waiting for pinned launches to end (R299) -/
  | invalComplete (k : Nat)
  /-- PAD: Host padding packet, ignored (R318) -/
  | pad (p : Packet)
  /-- KILL: Host packet that kills a rank (R294) -/
  | kill (p : Packet)
  /-- PARK: Host packet that parks an idle-active rank (R294) -/
  | park (p : Packet)
  /-- RESUME: Host packet that resumes a held or parked rank (R302) -/
  | resume (p : Packet)
  /-- COLD: Host packet that seals a parked rank into the cold tier (R358) -/
  | cold (p : Packet)
  /-- RECALL: Host packet that verifies a cold image and returns it to parked (R358) -/
  | recallRank (p : Packet)
  /-- COPYIN: Host packet that copies host bytes into rank memory (R318) -/
  | copyin (p : Packet)
  /-- COPYOUT: Host packet that copies rank memory to the host (R318) -/
  | copyout (p : Packet)
  /-- DBGREAD: Host packet that writes a sealed footprint image of a held rank (R318) -/
  | dbgread (p : Packet)
  /-- ATTEST: Host packet that writes a signed attestation report and may bind a session (R327) -/
  | attest (p : Packet)
  /-- SVC: Host packet that answers an outstanding service request (R324) -/
  | svc (p : Packet)
  /-- JOIN: Host packet that joins a job to the module and sets its beat reference (R322) -/
  | join (p : Packet)
  /-- RANKNEW: Host packet that creates a parked rank with its seed and table (R322) -/
  | ranknew (p : Packet)
  /-- LEAVE: Host packet that frees a job whose ranks are dead (R322) -/
  | leave (p : Packet)
  /-- PACKET_FETCH: A Barker fetches a packet from a ring and starts it when the start conditions hold (R320) -/
  | packetFetch (p : Packet)
  /-- NOTIFY_TAIL: A host write sets the queue tail (R317) -/
  | notifyTail (q : Nat) (v : Word32)
  /-- NOTIFY_COMPLETION_HEAD: A host write sets the completion head (R317) -/
  | notifyCompletionHead (q : Nat) (v : Word32)
  /-- QCFG_ENABLE: Writing QCFG.EN from 0 to 1 resets the queue and checks its rings (R316) -/
  | qcfgEnable (q : Nat) (v : Word64)
  /-- QCFG_DISABLE: Writing QCFG.EN := 0 disables the queue (R316) -/
  | qcfgDisable (q : Nat) (v : Word64)
  /-- QIFCTL_ENABLE: Writing QIFCTL.EN := 1 enables an interface and clears DROPC (R313) -/
  | qifctlEnable (i : Nat) (v : Word64)
  /-- QIFCTL_CLOSE: Writing QIFCTL.EN := 0 closes the interface (R315) -/
  | qifctlClose (i : Nat) (v : Word64)
  /-- QIFCTL_REVOKE: Setting QIFCTL.REV revokes the interface (R315) -/
  | qifctlRevoke (i : Nat) (v : Word64)
  /-- FSREQ_WRITE: The host requests function split bits, which firmware applies when idle (R323) -/
  | fsreqWrite (v : Word64)
  /-- BAR0_REGISTER_WRITE: A host write to a BAR0 register without behaviour of its own (R311) -/
  | bar0RegisterWrite (off : Nat) (v : Word64)
  /-- SERVICE_REQUEST: A host-assisted function writes a service request record (R323) -/
  | serviceRequest (f : Nat) (object detail : Word64)
  /-- POISON_SCRUB: The poison function scrubs, retires or keeps a poisoned page and clears its bit (R279) -/
  | poisonScrub (page : Nat) (scrub : Bool)
  /-- LOCKSTEP_MISMATCH: A Ringmaster compare mismatch stops the pair and restarts it from committed state (R307) -/
  | lockstepMismatch (security : Bool)
  /-- BOOT: At power-on the boot ROM verifies the firmware image, or stays in recovery (R325) -/
  | boot (b : BootImage)
  /-- GLITCH_SENSOR: The glitch sensor raises the alarm to level 2 (R328) -/
  | glitchSensor
  /-- MESH_BREACH: A mesh breach raises the alarm to level 3 and erases the identity seed (R328) -/
  | meshBreach
  /-- THROTTLE_CHANGE: Power or temperature changes the throttle level, with program-visible effects (R329) -/
  | throttleChange (level : Nat)
  /-- MCTP_READ: The management controller reads temperatures, power and status (R329) -/
  | mctpRead
  /-- WRITE_REQUEST_FLIT: A write request flit arrives at a module (R330) -/
  | writeRequestFlit (f : Flit)
  /-- READ_REQUEST_FLIT: A read request flit arrives (R330) -/
  | readRequestFlit (f : Flit)
  /-- ATOMIC_REQUEST_FLIT: An atomic request flit arrives (R330) -/
  | atomicRequestFlit (f : Flit)
  /-- REPLY_FLIT: A reply flit returns a status and data to the issuer (R331) -/
  | replyFlit (f : Flit)
  /-- COLLECTIVE_DATA_FLIT: A collective flit is placed and counted in its chunk (R343) -/
  | collectiveDataFlit (f : Flit)
  /-- ABORT_FLIT: An ABORT marks a collective failed and writes the failure flag (R350) -/
  | abortFlit (f : Flit)
  /-- SHIFT_FLIT: A SHIFT flit shifts a member's Δ and its unsent stamps (R352) -/
  | shiftFlit (f : Flit)
  /-- BEAT_FLIT: A beat flit checks the beat alignment of a link (R334) -/
  | beatFlit (f : Flit)
  /-- MIGRATION_FLIT: A piece of a sealed migration unit arrives (R331) -/
  | migrationFlit (f : Flit)
  /-- LINK_RETRY: A flit that fails its CRC is resent from its LSEQ; 16 failures kill the link (R332) -/
  | linkRetry (port : Nat)
  /-- LINK_SILENCE_TIMEOUT: A link on which nothing arrives for 4,096 beats is dead (R332) -/
  | linkSilenceTimeout (port : Nat)
  /-- LINK_BRING_UP: Firmware brings a dead link up again (R332) -/
  | linkBringUp (port flight : Nat)
  /-- COLLECTIVE_SEND: A send starts at its stamp, chunk or Turnstile fire and reads its source (R342) -/
  | collectiveSend (coll send : Nat)
  /-- COLLECTIVE_FOLD: A full sum chunk is folded in slot order (R344) -/
  | collectiveFold (coll chunk : Nat)
  /-- COLLECTIVE_COMPLETE: When all its chunks complete, the member's flag word is written (R345) -/
  | collectiveComplete (coll : Nat)
  /-- COLLECTIVE_TIMEOUT: A flag not written by T0 + Δ + TL + 32 fails with reason 2 (R351) -/
  | collectiveTimeout (coll : Nat)
  /-- MAP_ADOPT: A module adopts a new map entry once its accesses to the rank drain (R353) -/
  | mapAdopt (job rank : Nat) (entry : Half)
  /-- MIGRATION: The Carousel moves a parked rank: quiesce, seal, transfer, map, tombstone (R354) -/
  | migration (job rank target : Nat)
  /-- TOMBSTONE_FORWARD: A tombstone forwards a flat access to the rank's new module (R356) -/
  | tombstoneForward (r : FlatReq)
  /-- HOST_DMA_COMPLETION: The host completes a DMA request of the device, with data or with Unsupported Request or Completer Abort, which may halt a queue with code 4, fail a packet with 0x29, or let QIFCTL.BUSY fall to 0 (R310) -/
  | hostDmaCompletion (p : Packet) (ok : Bool)
  deriving DecidableEq, Repr

end Sys2Proof
end

