-- ==== Sys2Proof/Machine/Rules.lean ====
section
/-! DEFINITION. What each template opcode accepts: the checks of R44, from the encoding tables of R83 to R92, R113,
R144, R153, R168, R185, R198, R224 and R256, with the latency class of each result (R19). -/
namespace Sys2Proof

def TOp.mdN (o : TOp) : Nat := o.md.toNat
def TOp.tyN (o : TOp) : Nat := o.ty.toNat
def TOp.lkN (o : TOp) : Nat := o.lk.toNat
/-- The type of a template whose TY is assigned; untyped otherwise. -/
def TOp.t (o : TOp) : Machine.Ty := (Machine.Ty.ofCode o.ty.toNat).getD .u
/-- MOD[4:3] (R39). -/
def TOp.mode (o : TOp) : Machine.RMode := Machine.RMode.ofCode (o.mdN / 8)
/-- MOD[2], the class of a rounding instruction without scope (R67). -/
def TOp.grad (o : TOp) : Bool := o.mdN.testBit 2

end Sys2Proof

namespace Sys2Proof.Machine

/-- Register-specifier files (R39, R12). -/
def isS (x : BitVec 8) : Bool := x.toNat / 64 == 0
def isV (x : BitVec 8) : Bool := x.toNat / 64 == 1
def isP (x : BitVec 8) : Bool := x.toNat / 64 == 2 && x.toNat % 64 < 16
def isA (x : BitVec 8) : Bool := x.toNat / 64 == 3 && x.toNat % 64 < 8
def isZ (x : BitVec 8) : Bool := x == 0#8
def isSV (x : BitVec 8) : Bool := isS x || isV x

/-- Latency classes (R19). -/
inductive LatClass where
  | sa | sm | sl | va | vf | vt | vl | at | mx | ar | br | cp
  deriving DecidableEq, Repr

/-- R19: native beats. -/
def LatClass.native : LatClass → Nat
  | .sa => 1 | .sm => 3 | .sl => 4 | .va => 2 | .vf => 4 | .vt => 8 | .vl => 5 | .at => 6 | .mx => 10 | .ar => 4
  | .br => 2 | .cp => 3

/-- R25: the lowest bit of the class's field of LATH. -/
def LatClass.lathLo : LatClass → Nat
  | .sa => 0 | .sm => 4 | .sl => 8 | .va => 12 | .vf => 16 | .vt => 20 | .vl => 24 | .at => 28 | .mx => 32 | .ar => 36
  | .br => 40 | .cp => 44

def LatClass.all : List LatClass := [.sa, .sm, .sl, .va, .vf, .vt, .vl, .at, .mx, .ar, .br, .cp]

/-- R25: the declared latency. -/
def declared (lath : Nat) (c : LatClass) : Nat := bits lath c.lathLo 4

/-- R26: an interlocked class declares a latency below the native one. -/
def interlocked (lath : Nat) (c : LatClass) : Bool :=
  let d := declared lath c
  d != 0 && d < c.native

/-- R26: the latency in use. -/
def latInUse (lath : Nat) (c : LatClass) : Nat := max (declared lath c) c.native

/-- R24: delay bundles in force. -/
def delayBundles (lath : Nat) : Nat :=
  let d := declared lath .br
  if d == 0 then 2 else d

/-- How the operation uses its predicate field (R44 code 6). -/
inductive PrKind where
  | no | yes | noZeroing
  deriving DecidableEq, Repr

/-- What one opcode accepts (R44). -/
structure Rule where
  cls : Nat
  ty : Nat → Bool
  md : TOp → Bool
  dst : TOp → Bool
  sa : TOp → Bool
  sb : TOp → Bool
  pr : PrKind
  lk : TOp → Bool
  rounds : Bool := false
  takesScope : Bool := false

def tyInt (t : Nat) : Bool := decide (1 ≤ t ∧ t ≤ 8)
def tyVInt (t : Nat) : Bool := decide (1 ≤ t ∧ t ≤ 3) || decide (5 ≤ t ∧ t ≤ 7)
def tyF (t : Nat) : Bool := t == 0x10 || t == 0x11
def tyFT (t : Nat) : Bool := decide (0x10 ≤ t ∧ t ≤ 0x14)
def tyU (t : Nat) : Bool := t == 0
def tyIn (l : List Nat) (t : Nat) : Bool := l.contains t

/-- Only the bits of `mask` may be set in MOD (code 3). -/
def mdMask (mask : Nat) (o : TOp) : Bool := o.mdN &&& (31 - mask) == 0
/-- MOD of a rounding operation: mode not 3, other bits inside `mask` (code 3). -/
def mdRound (mask : Nat) (o : TOp) : Bool := mdMask (mask ||| 24) o && o.mdN / 8 != 3
/-- Integer types take `im`; float types the rounding bits and the class. The manual does not say which bits are valid for a type
that the opcode does not accept: such a type counts as a float (DESIGN CHOICE, log 12). -/
def mdIntOrRound (im : Nat) (o : TOp) : Bool := if tyVInt o.tyN then mdMask im o else mdRound 4 o
def mdScope (o : TOp) : Bool := mdMask 7 o && o.mdN ≤ 4

def lkIn (l : List Nat) (o : TOp) : Bool := l.contains o.lkN
/-- R110: literal kinds of a vector operation by type. -/
def lkVec (o : TOp) : Bool :=
  if o.tyN == 0x15 then o.lkN == 0 else if tyF o.tyN then lkIn [0, 4, 5] o else lkIn [0, 1, 2] o

/-! Shapes of rules. -/

def ruleInt (ty : Nat → Bool) (mask : Nat) : Rule :=
  ⟨0, ty, mdMask mask, (isS ·.dst), (isS ·.sa), (isS ·.sb), .yes, lkIn [0, 1, 2], false, false⟩
def ruleInt1 (ty : Nat → Bool) (mask : Nat) : Rule :=
  ⟨0, ty, mdMask mask, (isS ·.dst), (isS ·.sa), (isZ ·.sb), .yes, lkIn [0], false, false⟩
def ruleF2 : Rule :=
  ⟨0, tyF, mdRound 4, (isS ·.dst), (isS ·.sa), (isS ·.sb), .yes, lkIn [0, 4, 5], true, false⟩
def ruleFN (mask : Nat) : Rule :=
  ⟨0, tyF, mdMask mask, (isS ·.dst), (isS ·.sa), (isS ·.sb), .yes, lkIn [0, 4, 5], false, false⟩
def ruleCvt (ty : Nat → Bool) (sb : TOp → Bool) : Rule :=
  ⟨0, ty, mdRound 4, (isS ·.dst), (isS ·.sa), sb, .yes, lkIn [0], true, false⟩

/-- R110: a vector second source is in file v or s. -/
def ruleV2 (ty : Nat → Bool) (md : TOp → Bool) (lk : TOp → Bool) (rounds : Bool) : Rule :=
  ⟨1, ty, md, (isV ·.dst), (isV ·.sa), (isSV ·.sb), .yes, lk, rounds, false⟩
def ruleV1 (ty : Nat → Bool) (md : TOp → Bool) (pr : PrKind) (rounds : Bool) : Rule :=
  ⟨1, ty, md, (isV ·.dst), (isV ·.sa), (isZ ·.sb), pr, lkIn [0], rounds, false⟩

def ruleM (ty : Nat → Bool) (md : TOp → Bool) (dst sa sb : BitVec 8 → Bool) (rounds : Bool := false) : Rule :=
  ⟨2, ty, md, (dst ·.dst), (sa ·.sa), (sb ·.sb), .no, lkIn [0], rounds, false⟩

/-- R153: the row selector of an A-slot operation. -/
def rowOk (o : TOp) : Bool := if o.mdN.testBit 0 then isS o.sb else decide (o.sb.toNat ≤ 31)
def ruleAR (ty : Nat → Bool) (mult : Nat) : Rule :=
  ⟨5, ty, mdRound 5, (fun o => isV o.dst && o.dst.toNat % mult == 0), (isA ·.sa), rowOk, .yes, lkIn [0], true, false⟩

def ruleC (mask : Nat) (dst sa sb : TOp → Bool) : Rule :=
  ⟨3, tyU, mdMask mask, dst, sa, sb, .no, lkIn [0], false, false⟩

def ruleX (ty : Nat → Bool) (md : TOp → Bool) (dst sa sb : TOp → Bool) (lk : List Nat) : Rule :=
  ⟨4, ty, md, dst, sa, sb, .no, lkIn lk, false, false⟩

/-- Memory templates (R198). -/
def ruleMem (cls : Nat) (ty : Nat → Bool) (md : TOp → Bool) (d sa sb : BitVec 8 → Bool) (lk : List Nat)
    (rounds takesScope : Bool) : Rule :=
  ⟨cls, ty, md, (d ·.dst), (sa ·.sa), (sb ·.sb), .yes, lkIn lk, rounds, takesScope⟩

/-! A field that the opcode does not name must be zero, code 5 (DESIGN CHOICE, log 12; see `ruleControl`). -/

def zD (o : TOp) : Bool := isZ o.dst
def zA (o : TOp) : Bool := isZ o.sa
def zB (o : TOp) : Bool := isZ o.sb
/-- SB of an operation that has it for its literal alone: where LK is 1, 2, 4 or 5 a nonzero SB is refused by check 9 (R43, R44). -/
def litB (o : TOp) : Bool := isZ o.sb || o.lkN == 1 || o.lkN == 2 || o.lkN == 4 || o.lkN == 5
def sD (o : TOp) : Bool := isS o.dst
def sA (o : TOp) : Bool := isS o.sa
def sB (o : TOp) : Bool := isS o.sb
def anyB (_ : BitVec 8) : Bool := true

def tyLd (t : Nat) : Bool := tyInt t || decide (0x10 ≤ t ∧ t ≤ 0x15)
def tyVLd (t : Nat) : Bool := tyVInt t || decide (0x10 ≤ t ∧ t ≤ 0x15)
def tyAt (t : Nat) : Bool := tyIn [3, 4, 7, 8] t

/-- Scalar block, R83 to R91. -/
def ruleScalar : Nat → Option Rule
  | 0x00 => some (ruleInt tyInt 1) | 0x01 => some (ruleInt tyInt 1)
  | 0x02 => some (ruleInt (tyIn [4, 8]) 7)
  | 0x03 => some (ruleInt tyInt 1) | 0x04 => some (ruleInt tyInt 0)
  | 0x05 => some (ruleInt tyInt 0) | 0x06 => some (ruleInt tyInt 0)
  | 0x07 => some (ruleInt1 (tyIn [1, 2, 3, 4]) 1)
  | 0x08 => some (ruleInt tyInt 0) | 0x09 => some (ruleInt tyInt 0) | 0x0A => some (ruleInt tyInt 0)
  | 0x0B => some (ruleInt tyInt 0) | 0x0C => some (ruleInt tyInt 0) | 0x0D => some (ruleInt tyInt 0)
  | 0x0E => some (ruleInt tyInt 0) | 0x0F => some (ruleInt tyInt 0) | 0x10 => some (ruleInt tyInt 0)
  | 0x11 => some (ruleInt tyInt 0)
  | 0x12 => some (ruleInt tyU 0) | 0x13 => some (ruleInt tyU 0)
  | 0x14 => some (ruleInt tyInt 0) | 0x15 => some (ruleInt tyU 7)
  | 0x16 => some { ruleInt tyInt 0 with sa := fun o => if o.lkN == 0 then isS o.sa else isZ o.sa, sb := litB }
  | 0x17 => some { ruleInt tyU 3 with
      md := fun o => mdMask 3 o && (o.mdN == 1 || o.mdN == 2), sa := zA, sb := litB, lk := lkIn [2] }
  | 0x18 => some (ruleInt1 tyInt 0) | 0x19 => some (ruleInt1 tyInt 0) | 0x1A => some (ruleInt1 tyInt 0)
  | 0x1B => some (ruleInt1 tyInt 0) | 0x1C => some (ruleInt1 (tyIn [2, 3, 4, 6, 7, 8]) 0)
  | 0x1D => some { ruleInt1 (tyIn [4, 8]) 0 with lk := lkIn [6] }
  | 0x1E => some { ruleInt1 tyU 0 with lk := lkIn [6] }
  | 0x1F => some (ruleInt tyInt 0)
  | 0x20 => some ruleF2 | 0x21 => some ruleF2 | 0x22 => some ruleF2 | 0x23 => some ruleF2 | 0x24 => some ruleF2
  | 0x25 => some { ruleF2 with sb := zB, lk := lkIn [0] }
  | 0x26 => some (ruleFN 4) | 0x27 => some (ruleFN 4) | 0x28 => some (ruleFN 4)
  | 0x29 => some { ruleFN 0 with sb := zB, lk := lkIn [0] }
  | 0x2A => some { ruleFN 3 with md := fun o => mdMask 3 o && o.mdN != 3 }
  | 0x2B => some (ruleCvt tyFT (fun o => tyFT o.sb.toNat && o.sb.toNat != o.tyN))
  | 0x2C => some (ruleCvt tyInt (fun o => tyFT o.sb.toNat))
  | 0x2D => some (ruleCvt tyFT (fun o => tyInt o.sb.toNat))
  | _ => none

/-- Vector block, R113. -/
def ruleVector : Nat → Option Rule
  | 0x40 => some (ruleV2 (fun t => tyVInt t || tyF t || t == 0x15) (mdIntOrRound 1) lkVec true)
  | 0x41 => some (ruleV2 (fun t => tyVInt t || tyF t || t == 0x15) (mdIntOrRound 1) lkVec true)
  | 0x42 => some (ruleV2 (fun t => tyVInt t || tyF t || t == 0x15) (mdIntOrRound 1) lkVec true)
  | 0x43 => some (ruleV2 (fun t => tyF t || t == 0x15) (mdRound 4) lkVec true)
  | 0x44 => some (ruleV2 (fun t => tyF t || t == 0x15) (mdRound 4) lkVec true)
  | 0x45 => some (ruleV2 (fun t => tyVInt t || tyF t) (mdMask 0) lkVec false)
  | 0x46 => some (ruleV2 (fun t => tyVInt t || tyF t) (mdMask 0) lkVec false)
  | 0x47 => some (ruleV1 (fun t => tyVInt t || tyF t) (fun o => if tyVInt o.tyN then mdMask 1 o else mdMask 0 o) .yes false)
  | 0x48 => some (ruleV1 (fun t => tyVInt t || tyF t) (fun o => if tyVInt o.tyN then mdMask 1 o else mdMask 0 o) .yes false)
  | 0x49 => some (ruleV2 tyU (mdMask 0) (lkIn [0, 1, 2]) false)
  | 0x4A => some (ruleV2 tyU (mdMask 0) (lkIn [0, 1, 2]) false)
  | 0x4B => some (ruleV2 tyU (mdMask 0) (lkIn [0, 1, 2]) false)
  | 0x4C => some (ruleV2 tyU (mdMask 0) (lkIn [0, 1, 2]) false)
  | 0x4D => some (ruleV1 tyU (mdMask 0) .yes false)
  | 0x4E => some (ruleV2 tyVInt (mdMask 0) (lkIn [0, 2]) false)
  | 0x4F => some (ruleV2 tyVInt (mdMask 0) (lkIn [0, 2]) false)
  | 0x50 => some (ruleV2 tyVInt (mdMask 0) (lkIn [0, 2]) false)
  | 0x51 => some (ruleV2 tyVInt (mdMask 0) (lkIn [0, 2]) false)
  | 0x52 => some { ruleV2 (fun t => tyVInt t || tyF t) (fun o => mdMask 7 o && !(tyVInt o.tyN && o.mdN ≥ 6)) lkVec false with
      dst := (isP ·.dst) }
  | 0x53 => some { ruleV2 tyU (mdMask 0) (lkIn [0, 1, 2, 4]) false with pr := .noZeroing }
  | 0x54 => some { ruleV2 tyU (mdMask 0) (lkIn [0, 1, 2, 4, 5]) false with
      sa := fun o => if o.lkN == 0 then isV o.sa else isZ o.sa, sb := litB }
  | 0x55 => some { ruleV2 tyU (fun o => mdMask 3 o && o.mdN != 3) (fun o => o.lkN == 0 || (o.lkN == 2 && o.mdN == 1)) false with
      sa := fun o => if o.mdN == 1 then isV o.sa else isS o.sa
      sb := fun o => if o.mdN == 1 then isS o.sb else isZ o.sb }
  | 0x56 => some { ruleV1 (fun t => tyVInt t || tyFT t) (mdRound 4) .yes true with
      sb := fun o => (tyVInt o.sb.toNat || tyFT o.sb.toNat) && o.sb.toNat != o.tyN && !(tyVInt o.sb.toNat && tyVInt o.tyN) }
  | 0x57 => some (ruleV2 tyVInt (mdMask 0) (lkIn [0, 1, 2]) false)
  | 0x58 => some (ruleV1 tyF (mdRound 4) .yes true) | 0x59 => some (ruleV1 tyF (mdRound 4) .yes true)
  | 0x5A => some (ruleV1 tyF (mdRound 4) .yes true) | 0x5B => some (ruleV1 tyF (mdRound 4) .yes true)
  | 0x5C => some (ruleV1 tyF (mdRound 4) .yes true) | 0x5D => some (ruleV1 tyF (mdRound 4) .yes true)
  | 0x5E => some (ruleV1 tyVInt (mdMask 0) .yes false) | 0x5F => some (ruleV1 tyVInt (mdMask 0) .yes false)
  | 0x60 => some (ruleV1 (fun t => tyVInt t || tyF t)
      (fun o => if tyVInt o.tyN then mdMask 1 o else mdRound 4 o && o.mdN / 8 != 1) .noZeroing true)
  | 0x61 => some (ruleV1 (fun t => tyVInt t || tyF t) (mdMask 0) .noZeroing false)
  | 0x62 => some (ruleV1 (fun t => tyVInt t || tyF t) (mdMask 0) .noZeroing false)
  | 0x63 => some (ruleV1 (fun t => tyVInt t || tyF t)
      (fun o => if tyVInt o.tyN then mdMask 3 o else mdRound 5 o && o.mdN / 8 != 1) .noZeroing true)
  | 0x64 => some { ruleV2 (fun t => tyVInt t || tyF t) (mdMask 1) (lkIn [0]) false with
      dst := fun o => isV o.dst && o.dst.toNat % 2 == 0, sb := (isV ·.sb), pr := .noZeroing }
  | 0x65 => some (ruleV2 tyU (mdMask 0) (lkIn [0]) false)
  | 0x66 => some { ruleV2 tyU (mdMask 0) (lkIn [0, 2]) false with sb := sB }
  | 0x67 => some { ruleV2 tyVInt (mdMask 0) (lkIn [0, 2]) false with dst := sD, sb := sB, pr := .no }
  | 0x68 => some { ruleV2 tyU (mdMask 0) (lkIn [0, 2]) false with sa := sA, sb := sB, pr := .no }
  | 0x69 => some { ruleV1 tyU (mdMask 1) .yes false with sa := zA }
  | 0x6A => some { ruleV1 tyU (mdMask 0) .no false with sa := zA }
  | 0x6B => some { ruleV1 tyU (mdMask 0) .no false with dst := (isP ·.dst) }
  | 0x6C => some { ruleV1 tyU (fun o => mdMask 7 o && o.mdN ≤ 4) .no false with
      dst := (isP ·.dst), sa := (isP ·.sa), sb := fun o => if o.mdN == 4 then isZ o.sb else isP o.sb }
  | 0x6D => some { ruleV1 tyU (mdMask 0) .no false with dst := sD, sa := (isP ·.sa) }
  | 0x6E => some { ruleV1 tyU (mdMask 1) .no false with dst := sD, sa := (isP ·.sa) }
  | 0x6F => some (ruleV1 tyVInt (mdMask 1) .yes false)
  | 0x70 => some (ruleV1 (tyIn [3, 0x11, 0x12, 0x13, 0x14]) (mdRound 4) .yes true)
  | 0x71 => some (ruleV2 tyF (mdRound 4) (lkIn [0, 1]) true)
  | _ => none

/-- Matrix and accumulator blocks, R144 and R153. -/
def ruleMatrix : Nat → Option Rule
  | 0x80 => some (ruleM (tyIn [1, 0x11, 0x12, 0x13, 0x14]) (mdMask 7) isA isV isV)
  | 0x81 => some (ruleM (tyIn [0x10]) (mdMask 6) isA isV isV)
  | 0x82 => some (ruleM (tyIn [0x15]) (mdMask 6) isA isV isV)
  | 0x83 => some (ruleM (tyIn [1, 0x11, 0x12, 0x13, 0x14]) (mdMask 7) isA isS isV)
  | 0x84 => some (ruleM (tyIn [0x10]) (mdMask 6) isA isV isV)
  | 0x85 => some (ruleM tyU (mdMask 0) isA isZ isZ)
  | 0x86 => some (ruleM tyU (mdMask 1) isA isS isZ)
  | 0x87 => some (ruleM tyU (mdRound 1) isA isS isZ true)
  | 0x88 => some (ruleM tyU (mdMask 0) isZ isS isZ)
  | 0x89 => some (ruleM tyU (mdMask 0) isZ isS isZ)
  | 0x90 => some (ruleAR (tyIn [3, 0x10, 0x11, 0x12, 0x13, 0x14, 0x15]) 1)
  | 0x91 => some (ruleAR (tyIn [3, 0x10, 0x11, 0x12, 0x13, 0x14, 0x15]) 1)
  | 0x92 => some { ruleM (tyIn [0, 0x10]) (mdMask 0) isA isS isZ with cls := 5 }
  | 0x93 => some { ruleM (tyIn [0, 0x10]) (mdMask 0) isA isS isZ with cls := 5 }
  | 0x94 => some (ruleAR tyF 2) | 0x95 => some (ruleAR tyF 4) | 0x96 => some (ruleAR tyF 4)
  | 0x97 => some { ruleM tyU (mdMask 0) isS isZ isZ with cls := 5, sb := fun o => decide (o.sb.toNat ≤ 4) }
  | _ => none

/-- Copy block, R256. -/
def ruleCopy : Nat → Option Rule
  | 0xA0 => some (ruleC 1 zD sA zB)
  | 0xA1 => some (ruleC 0 zD zA zB) | 0xA2 => some (ruleC 0 zD zA zB)
  | 0xA3 => some (ruleC 0 sD zA (fun o => decide (o.sb.toNat ≤ 5)))
  | 0xA4 => some (ruleC 0 zD sA sB) | 0xA5 => some (ruleC 0 zD sA zB) | 0xA6 => some (ruleC 0 zD sA sB)
  | 0xA7 => some (ruleC 3 (fun o => decide (o.dst.toNat ≤ 3)) zA zB)
  | 0xA8 => some (ruleC 1 (fun o => if o.mdN == 1 then isS o.dst else decide (o.dst.toNat ≤ 15))
      (fun o => if o.mdN == 1 then decide (o.sa.toNat ≤ 15) else isS o.sa) zB)
  | 0xA9 => some (ruleC 0 zD zA zB)
  | _ => none

/-- Memory and atomics block, R198 and R256. -/
def ruleMemory : Nat → Option Rule
  | 0xB0 => some (ruleMem 0 tyLd (mdRound 0) isS isS isS [0, 1] true false)
  | 0xB1 => some (ruleMem 0 tyLd (mdRound 0) isS isS isS [0, 1] true false)
  | 0xB2 => some (ruleMem 1 tyVLd (mdRound 0) isV isS isS [0, 1] true false)
  | 0xB3 => some (ruleMem 1 tyVLd (mdRound 0) isV isS isS [0, 1] true false)
  | 0xB4 => some (ruleMem 1 tyVLd (mdRound 0) isV isS isV [0] true false)
  | 0xB5 => some (ruleMem 1 tyVLd (mdRound 0) isV isS isV [0] true false)
  | 0xB6 => some (ruleMem 0 tyAt mdScope isS isS isS [0, 1] false true)
  | 0xB7 => some (ruleMem 1 (tyIn [3, 7]) mdScope isV isS isS [0, 1] false true)
  | 0xB8 => some (ruleMem 0 tyAt (mdMask 0) isS isS isS [0, 1, 2] false false)
  | 0xB9 => some (ruleMem 0 tyF (mdRound 0) isS isS isS [0] true false)
  | 0xBA => some (ruleMem 0 (tyIn [3, 4, 7, 8, 0x10]) (mdMask 0) isS isS isS [0, 1, 2] false false)
  | 0xBB => some (ruleMem 0 (tyIn [3, 4, 7, 8, 0x10]) (mdMask 0) isS isS isS [0, 1, 2] false false)
  | 0xBC => some (ruleMem 0 tyAt (mdMask 0) isS isS isS [0, 1, 2] false false)
  | 0xBD => some (ruleMem 0 tyAt (mdMask 0) isS isS isS [0, 1, 2] false false)
  | 0xBE => some (ruleMem 0 tyAt (mdMask 0) isS isS isS [0, 1, 2] false false)
  | 0xBF => some (ruleMem 0 tyAt (mdMask 0) isS isS isS [0, 1, 2] false false)
  | 0xC0 => some (ruleMem 0 tyAt (mdMask 0) isS isS isS [0] false false)
  | 0xC1 => some (ruleMem 0 (tyIn [8]) (mdMask 0) isS isS isS [0] false false)
  | 0xC2 => some (ruleMem 0 (tyIn [8]) (mdMask 0) isS isS isS [0] false false)
  | 0xC3 => some (ruleMem 0 (tyIn [8]) (mdMask 0) isS isS isS [0] false false)
  | 0xC4 => some (ruleMem 1 (tyIn [3, 7, 0x10, 0x11]) (mdRound 0)
      isV isS isV [0] true false)
  | 0xC5 => some { ruleX tyU mdScope sD zA zB [0] with takesScope := true }
  | 0xC6 => some (ruleMem 0 tyAt mdScope isS isS isS [0, 1] false true)
  | 0xC7 => some (ruleMem 0 tyAt mdScope isS isS isS [0, 1] false true)
  | 0xC8 => some (ruleX tyU (mdMask 0) zD (fun o => isSV o.sa || isP o.sa)
      (fun o => (isSV o.sb || isP o.sb) && o.sb.toNat / 64 == o.sa.toNat / 64) [0])
  | 0xC9 => some (ruleMem 0 tyLd (mdRound 0) isS isS isS [0] true false)
  | 0xCA => some (ruleMem 1 tyVLd (mdRound 0) isV isS isV [0] true false)
  | 0xCB => some { ruleMem 0 tyU (mdMask 0) isS isZ isZ [0] false false with cls := 0 }
  | _ => none

/-- Control, dictionary, adjoint and system blocks, R92, R168, R185 and R224. The manual does not say, but for CKPT, RTE and BKPT
(R224), whether a nonzero DST, SA or SB field that the description of the opcode leaves unnamed is refused (DST of JMP, SA of
MOVHI or HALT): every such field must be zero here, with code 5 (DESIGN CHOICE, log 12). -/
def ruleControl : Nat → Option Rule
  | 0xD0 => some (ruleX tyU (mdMask 0) zD zA zB [3])
  | 0xD1 => some (ruleX tyInt (fun o => mdMask 7 o && o.mdN ≤ 5) zD sA sB [3])
  | 0xD2 => some (ruleX tyU (mdMask 1) zD sA zB [3])
  | 0xD3 => some (ruleX tyU (mdMask 3) zD (isP ·.sa) zB [3])
  | 0xD4 => some (ruleX tyU (mdMask 3) zD (isP ·.sa) (isP ·.sb) [3])
  | 0xD5 => some (ruleX tyU (mdMask 0) zD zA zB [3])
  | 0xD6 => some (ruleX tyU (mdMask 0) zD sA zB [0])
  | 0xD7 => some (ruleX tyU (mdMask 0) zD zA zB [0])
  | 0xD8 => some (ruleX tyU (mdMask 0) zD sA zB [0])
  | 0xD9 => some (ruleX tyU (mdMask 3) zD sA zB [3])
  | 0xDA => some (ruleX tyU (mdMask 31) zD sA zB [3])
  | 0xDB => some (ruleX tyU (mdMask 0) zD zA litB [2])
  | 0xDC => some (ruleX tyU (mdMask 0) zD sA zB [0])
  | 0xDD => some (ruleX tyU (mdMask 0) sD (fun o => decide (o.sa.toNat ≤ 0x3F)) zB [0])
  | 0xDE => some (ruleX tyU (mdMask 0) (fun o => decide (o.dst.toNat ≤ 0x3F)) sA zB [0])
  | 0xDF => some (ruleX tyU (mdMask 0) zD (fun _ => true) zB [0])
  | 0xE0 => some (ruleX tyU (mdMask 0) zD sA zB [0])
  | 0xE1 => some (ruleX tyU (mdMask 3) (fun o => if o.mdN.testBit 1 then isZ o.dst else true) sA
      (fun o => if o.mdN.testBit 1 then isS o.sb else isZ o.sb) [0])
  | 0xE2 => some (ruleX tyU (mdMask 3) sD (fun o => if o.mdN.testBit 1 then isZ o.sa else true)
      (fun o => if o.mdN.testBit 1 then isS o.sb else isZ o.sb) [0])
  | 0xE3 => some (ruleX tyU (mdMask 1) zD zA zB [0])
  | 0xE4 => some (ruleX tyU (mdMask 0) zD zA zB [0])
  | 0xE5 => some (ruleX tyU (fun o => mdMask 3 o && o.mdN != 3) zD zA zB [0])
  | 0xE6 => some (ruleX tyU (mdMask 0) sD sA litB [0, 1])
  | 0xE7 => some (ruleX tyU (mdMask 0) zD zA zB [0])
  | 0xE8 => some (ruleX tyU (mdMask 0) zD zA zB [0])
  | 0xE9 => some (ruleX tyU (mdMask 0) zD zA zB [0])
  | 0xEA => some (ruleX tyU (mdMask 0) zD zA zB [0])
  | 0xEB => some (ruleX tyU (mdMask 0) zD zA zB [0])
  | 0xEC => some (ruleX tyU (mdMask 0) zD zA zB [0])
  | _ => none

/-- R52: the rule of an opcode; `none` for an unassigned one. -/
def ruleOf (opc : Nat) : Option Rule :=
  if opc < 0x40 then ruleScalar opc
  else if opc < 0x80 then ruleVector opc
  else if opc < 0xA0 then ruleMatrix opc
  else if opc < 0xB0 then ruleCopy opc
  else if opc < 0xD0 then ruleMemory opc
  else ruleControl opc

/-- HD fields (R39, R41, R42). -/
def hdH1 (hd : BitVec 8) : Nat := hd.toNat / 32
def hdH2 (hd : BitVec 8) : Nat := hd.toNat / 4 % 8
def hdH3 (hd : BitVec 8) : Nat := hd.toNat % 4

/-- Check 7 of R44; CKPT, RTE and BKPT take no hole at all (R224). -/
def hdOk (opc : Nat) (r : Rule) (hd : BitVec 8) : Bool :=
  let h1 := hdH1 hd
  let h2 := hdH2 hd
  h1 != 7 && h2 != 7 && !(h1 != 0 && h1 == h2) &&
  (match hdH3 hd with
    | 0 => true
    | 1 => r.rounds
    | 2 => r.takesScope
    | _ => h1 == 1 || h1 == 2 || h1 == 3) &&
  !((opc == 0xE9 || opc == 0xEA || opc == 0xEC) && hd != 0#8)

/-- Check 6 of R44. -/
def prOk (k : PrKind) (pr : BitVec 6) : Bool :=
  match k with
  | .no => pr == 0#6
  | .yes => true
  | .noZeroing => !pr.getLsbD 0

/-- Check 9 of R44. -/
def lkOk (r : Rule) (o : TOp) : Bool :=
  r.lk o && !((o.lkN == 1 || o.lkN == 2 || o.lkN == 4 || o.lkN == 5) && o.sb != 0#8)

/-- Checks 1 to 7 and 9 of R44 on an operation of an opcode and a class field: the lowest failing code, or 0. -/
def checkExpanded (opc cls : Nat) (o : TOp) : Nat :=
  match ruleOf opc with
  | none => 1
  | some r =>
    if cls != r.cls then 2
    else if !r.md o then 3
    else if !r.ty o.tyN then 4
    else if !(r.dst o && r.sa o && r.sb o) then 5
    else if !prOk r.pr o.pr then 6
    else if !hdOk opc r o.hd then 7
    else if !lkOk r o then 9
    else 0

/-- Check 8 of R44: no bit that a hole replaces is set in the stored template. The bits replaced are those that R41 lists for H1 and
H2; R42 gives H3 its effect apart from that list, and its file bits hold the file that check 5 wants (DEDUCED, log 12). -/
def holesClear (o : TOp) : Bool :=
  let clear := fun (c : Nat) => match c with
    | 1 => o.dst.toNat % 64 == 0
    | 2 => o.sa.toNat % 64 == 0
    | 3 => o.sb.toNat % 64 == 0
    | 4 => o.pr.toNat % 32 == 0
    | 5 => o.md == 0#5
    | 6 => o.ty == 0#6
    | _ => true
  clear (hdH1 o.hd) && clear (hdH2 o.hd)

/-- Checks 1 to 9 of R44 on a stored template. -/
def checkStored (opc cls : Nat) (o : TOp) : Nat :=
  let c := checkExpanded opc cls o
  if c != 0 && c ≤ 7 then c else if !holesClear o then 8 else c

end Sys2Proof.Machine
end

