-- ==== Sys2Proof/Machine/Opcodes.lean ====
section
/-! DEFINITION. The template opcode map (R52): which constructor an opcode names, and the other way round; where one
opcode holds two mnemonics, the field that tells them apart. -/
namespace Sys2Proof

/-- The opcode and operation of a template instruction; `none` for direct forms and steps. -/
def Instr.tmpl : Instr → Option (Nat × TOp)
  | .bundleIssue _ => none
  | .resultDelivery => none
  | .storePerform => none
  | .beatOverrun => none
  | .add o => some (0x00, o)
  | .addDirectReg _ _ => none
  | .addDirectImm _ _ => none
  | .sub o => some (0x01, o)
  | .subDirect _ _ => none
  | .addsh o => some (0x02, o)
  | .mul o => some (0x03, o)
  | .mulh o => some (0x04, o)
  | .div o => some (0x05, o)
  | .rem o => some (0x06, o)
  | .abs o => some (0x07, o)
  | .and o => some (0x08, o)
  | .andDirect _ _ => none
  | .or o => some (0x09, o)
  | .orDirect _ _ => none
  | .xor o => some (0x0A, o)
  | .xorDirect _ _ => none
  | .andn o => some (0x0B, o)
  | .shl o => some (0x0C, o)
  | .shlDirect _ _ => none
  | .shr o => some (0x0D, o)
  | .shrDirect _ _ => none
  | .sar o => some (0x0E, o)
  | .rol o => some (0x0F, o)
  | .min o => some (0x10, o)
  | .max o => some (0x11, o)
  | .minu o => some (0x12, o)
  | .maxu o => some (0x13, o)
  | .cmp o => some (0x14, o)
  | .sel o => some (0x15, o)
  | .mov o => some (0x16, o)
  | .movDirectImm _ _ => none
  | .movDirectLit _ _ => none
  | .movhi o => some (0x17, o)
  | .movhiDirect _ _ _ => none
  | .clz o => some (0x18, o)
  | .ctz o => some (0x19, o)
  | .popc o => some (0x1A, o)
  | .brev o => some (0x1B, o)
  | .bswap o => some (0x1C, o)
  | .bext o => some (0x1D, o)
  | .bins o => some (0x1E, o)
  | .ext o => some (0x1F, o)
  | .fadd o => some (0x20, o)
  | .fsub o => some (0x21, o)
  | .fmul o => some (0x22, o)
  | .fma o => some (0x23, o)
  | .fdiv o => some (0x24, o)
  | .fsqrt o => some (0x25, o)
  | .fmin o => some (0x26, o)
  | .fmax o => some (0x27, o)
  | .fcmp o => some (0x28, o)
  | .fclass o => some (0x29, o)
  | .fsgn o => some (0x2A, o)
  | .fcvt o => some (0x2B, o)
  | .fcvti o => some (0x2C, o)
  | .icvtf o => some (0x2D, o)
  | .vadd o => some (0x40, o)
  | .vsub o => some (0x41, o)
  | .vmul o => some (0x42, o)
  | .vfma o => some (0x43, o)
  | .vfms o => some (0x44, o)
  | .vmin o => some (0x45, o)
  | .vmax o => some (0x46, o)
  | .vabs o => some (0x47, o)
  | .vneg o => some (0x48, o)
  | .vand o => some (0x49, o)
  | .vor o => some (0x4A, o)
  | .vxor o => some (0x4B, o)
  | .vandn o => some (0x4C, o)
  | .vnot o => some (0x4D, o)
  | .vshl o => some (0x4E, o)
  | .vshr o => some (0x4F, o)
  | .vsar o => some (0x50, o)
  | .vrol o => some (0x51, o)
  | .vcmp o => some (0x52, o)
  | .vsel o => some (0x53, o)
  | .vmov o => some (0x54, o)
  | .vbcast o => some (0x55, o)
  | .vbcastLane o => some (0x55, o)
  | .vbcastIota o => some (0x55, o)
  | .vcvt o => some (0x56, o)
  | .vmulh o => some (0x57, o)
  | .vrcp o => some (0x58, o)
  | .vrsqrt o => some (0x59, o)
  | .vsqrt o => some (0x5A, o)
  | .vexp2 o => some (0x5B, o)
  | .vlog2 o => some (0x5C, o)
  | .vtanh o => some (0x5D, o)
  | .vclz o => some (0x5E, o)
  | .vpopc o => some (0x5F, o)
  | .vrsum o => some (0x60, o)
  | .vrmax o => some (0x61, o)
  | .vrmin o => some (0x62, o)
  | .vscan o => some (0x63, o)
  | .vsort o => some (0x64, o)
  | .vperm o => some (0x65, o)
  | .vrot o => some (0x66, o)
  | .vextr o => some (0x67, o)
  | .vins o => some (0x68, o)
  | .vrand o => some (0x69, o)
  | .ppack o => some (0x6A, o)
  | .punpack o => some (0x6B, o)
  | .plog o => some (0x6C, o)
  | .pcnt o => some (0x6D, o)
  | .pfirst o => some (0x6E, o)
  | .vsat o => some (0x6F, o)
  | .vrnd o => some (0x70, o)
  | .vscl o => some (0x71, o)
  | .mop o => some (0x80, o)
  | .mops o => some (0x81, o)
  | .mopc o => some (0x82, o)
  | .mopv o => some (0x83, o)
  | .mrank1 o => some (0x84, o)
  | .mzero o => some (0x85, o)
  | .mfill o => some (0x86, o)
  | .mstash o => some (0x87, o)
  | .mucfg o => some (0x88, o)
  | .mscale o => some (0x89, o)
  | .ard o => some (0x90, o)
  | .ardc o => some (0x91, o)
  | .aspill o => some (0x92, o)
  | .afill o => some (0x93, o)
  | .asgd o => some (0x94, o)
  | .amom o => some (0x95, o)
  | .aadam o => some (0x96, o)
  | .astat o => some (0x97, o)
  | .cstart o => some (0xA0, o)
  | .cstartIn o => some (0xA0, o)
  | .cappend o => some (0xA1, o)
  | .cstop o => some (0xA2, o)
  | .cwm o => some (0xA3, o)
  | .crange o => some (0xA4, o)
  | .ctag o => some (0xA5, o)
  | .cpref o => some (0xA6, o)
  | .cbank o => some (0xA7, o)
  | .cqfmt o => some (0xA8, o)
  | .cqfmtGet o => some (0xA8, o)
  | .bufswap o => some (0xA9, o)
  | .evpop o => some (0xCB, o)
  | .ld o => some (0xB0, o)
  | .ldDirect _ _ _ => none
  | .st o => some (0xB1, o)
  | .stDirect _ _ _ => none
  | .vld o => some (0xB2, o)
  | .vst o => some (0xB3, o)
  | .vgath o => some (0xB4, o)
  | .vscat o => some (0xB5, o)
  | .ldc o => some (0xB6, o)
  | .vldc o => some (0xB7, o)
  | .amadd o => some (0xB8, o)
  | .amfadd o => some (0xB9, o)
  | .ammin o => some (0xBA, o)
  | .ammax o => some (0xBB, o)
  | .amand o => some (0xBC, o)
  | .amor o => some (0xBD, o)
  | .amxor o => some (0xBE, o)
  | .amswap o => some (0xBF, o)
  | .amcas o => some (0xC0, o)
  | .amcasgt o => some (0xC1, o)
  | .amcasv o => some (0xC2, o)
  | .amcasp o => some (0xC3, o)
  | .vamadd o => some (0xC4, o)
  | .fence o => some (0xC5, o)
  | .ldacq o => some (0xC6, o)
  | .strel o => some (0xC7, o)
  | .chk o => some (0xC8, o)
  | .stg o => some (0xC9, o)
  | .vstg o => some (0xCA, o)
  | .jmp o => some (0xD0, o)
  | .jmpDirect _ => none
  | .bcmp o => some (0xD1, o)
  | .beqz o => some (0xD2, o)
  | .beqzDirect _ _ => none
  | .bnez o => some (0xD2, o)
  | .bnezDirect _ _ => none
  | .bpred o => some (0xD3, o)
  | .brg o => some (0xD4, o)
  | .call o => some (0xD5, o)
  | .callDirect _ => none
  | .callr o => some (0xD6, o)
  | .ret o => some (0xD7, o)
  | .retDirect => none
  | .jmpr o => some (0xD8, o)
  | .jmprDirect _ => none
  | .loop o => some (0xD9, o)
  | .loopx o => some (0xDA, o)
  | .yield o => some (0xDB, o)
  | .yieldDirect _ => none
  | .contextSwitchOut => none
  | .waitb o => some (0xDC, o)
  | .waitbDirect _ => none
  | .waitEnd => none
  | .gets o => some (0xDD, o)
  | .getsDirect _ _ => none
  | .sets o => some (0xDE, o)
  | .setsDirect _ _ => none
  | .setsRngt o => some (0xDE, o)
  | .setsCkpts o => some (0xDE, o)
  | .setsLc o => some (0xDE, o)
  | .setsTrappc o => some (0xDE, o)
  | .setsAdjoff o => some (0xDE, o)
  | .setsTapeb o => some (0xDE, o)
  | .setsTapel o => some (0xDE, o)
  | .trap o => some (0xDF, o)
  | .trapDirect _ => none
  | .halt o => some (0xEB, o)
  | .haltDirect => none
  | .dld o => some (0xE0, o)
  | .dldDirect _ => none
  | .dldCompletion => none
  | .dset o => some (0xE1, o)
  | .dsetDirect _ _ _ => none
  | .dget o => some (0xE2, o)
  | .dgetDirect _ _ _ => none
  | .dsel o => some (0xE3, o)
  | .dselDirect _ => none
  | .ffence o => some (0xE4, o)
  | .ffenceDirect => none
  | .adjm o => some (0xE5, o)
  | .adjld o => some (0xE6, o)
  | .adjclr o => some (0xE7, o)
  | .tapefl o => some (0xE8, o)
  | .tapeSpill => none
  | .tapeRefill => none
  | .ckpt o => some (0xE9, o)
  | .ckptDirect => none
  | .rte o => some (0xEA, o)
  | .bkpt o => some (0xEC, o)
  | .trapEntry => none
  | .firmwareRoutedTrap => none
  | .urgentPreemption => none
  | .contextRestore => none
  | .tombolaReloadDone => none
  | .variableLoadReply _ _ => none
  | .loadTimeout _ => none
  | .strelPerform => none
  | .fenceComplete => none
  | .fenceTimeout => none
  | .storeFailureReport _ _ _ => none
  | .translationWalk _ => none
  | .l2Fill _ _ _ => none
  | .l2Writeback _ _ _ => none
  | .turnstileFire _ => none
  | .homeAtomic _ _ => none
  | .flatAccessAtTarget _ => none
  | .recordFetch _ _ => none
  | .chunkRead _ _ => none
  | .chunkWrite _ => none
  | .recordComplete _ => none
  | .copyRecordTimeout _ => none
  | .cstopEffect _ => none
  | .fifoChunkRelease _ => none
  | .bankModeSwitch => none
  | .bufferPhaseCommit => none
  | .phaseCancel => none
  | .launch _ => none
  | .coreEntry => none
  | .stepEnd _ _ => none
  | .idleActivePark _ _ => none
  | .inval _ => none
  | .invalComplete _ => none
  | .pad _ => none
  | .kill _ => none
  | .park _ => none
  | .resume _ => none
  | .cold _ => none
  | .recallRank _ => none
  | .copyin _ => none
  | .copyout _ => none
  | .dbgread _ => none
  | .attest _ => none
  | .svc _ => none
  | .join _ => none
  | .ranknew _ => none
  | .leave _ => none
  | .packetFetch _ => none
  | .notifyTail _ _ => none
  | .notifyCompletionHead _ _ => none
  | .qcfgEnable _ _ => none
  | .qcfgDisable _ _ => none
  | .qifctlEnable _ _ => none
  | .qifctlClose _ _ => none
  | .qifctlRevoke _ _ => none
  | .fsreqWrite _ => none
  | .bar0RegisterWrite _ _ => none
  | .serviceRequest _ _ _ => none
  | .poisonScrub _ _ => none
  | .lockstepMismatch _ => none
  | .boot _ => none
  | .glitchSensor => none
  | .meshBreach => none
  | .throttleChange _ => none
  | .mctpRead => none
  | .writeRequestFlit _ => none
  | .readRequestFlit _ => none
  | .atomicRequestFlit _ => none
  | .replyFlit _ => none
  | .collectiveDataFlit _ => none
  | .abortFlit _ => none
  | .shiftFlit _ => none
  | .beatFlit _ => none
  | .migrationFlit _ => none
  | .linkRetry _ => none
  | .linkSilenceTimeout _ => none
  | .linkBringUp _ _ => none
  | .collectiveSend _ _ => none
  | .collectiveFold _ _ => none
  | .collectiveComplete _ => none
  | .collectiveTimeout _ => none
  | .mapAdopt _ _ _ => none
  | .migration _ _ _ => none
  | .tombstoneForward _ => none
  | .hostDmaCompletion _ _ => none

/-- SETS by the register it names (R104). -/
def setsOf (o : TOp) : Instr :=
  match o.dst.toNat with
  | 0x07 => .setsTrappc o
  | 0x0B => .setsRngt o
  | 0x11 => .setsAdjoff o
  | 0x12 => .setsTapeb o
  | 0x13 => .setsTapel o
  | 0x17 => .setsCkpts o
  | 0x1B => .setsLc o
  | 0x1C => .setsLc o
  | 0x1D => .setsLc o
  | 0x1E => .setsLc o
  | _ => .sets o

/-- Opcodes 0x00 to 0x0F of R52. -/
def tmplRow0 (o : TOp) : Nat → Option Instr
  | 0 => some (.add o)
  | 1 => some (.sub o)
  | 2 => some (.addsh o)
  | 3 => some (.mul o)
  | 4 => some (.mulh o)
  | 5 => some (.div o)
  | 6 => some (.rem o)
  | 7 => some (.abs o)
  | 8 => some (.and o)
  | 9 => some (.or o)
  | 10 => some (.xor o)
  | 11 => some (.andn o)
  | 12 => some (.shl o)
  | 13 => some (.shr o)
  | 14 => some (.sar o)
  | 15 => some (.rol o)
  | _ => none

/-- Opcodes 0x10 to 0x1F of R52. -/
def tmplRow1 (o : TOp) : Nat → Option Instr
  | 0 => some (.min o)
  | 1 => some (.max o)
  | 2 => some (.minu o)
  | 3 => some (.maxu o)
  | 4 => some (.cmp o)
  | 5 => some (.sel o)
  | 6 => some (.mov o)
  | 7 => some (.movhi o)
  | 8 => some (.clz o)
  | 9 => some (.ctz o)
  | 10 => some (.popc o)
  | 11 => some (.brev o)
  | 12 => some (.bswap o)
  | 13 => some (.bext o)
  | 14 => some (.bins o)
  | 15 => some (.ext o)
  | _ => none

/-- Opcodes 0x20 to 0x2F of R52. -/
def tmplRow2 (o : TOp) : Nat → Option Instr
  | 0 => some (.fadd o)
  | 1 => some (.fsub o)
  | 2 => some (.fmul o)
  | 3 => some (.fma o)
  | 4 => some (.fdiv o)
  | 5 => some (.fsqrt o)
  | 6 => some (.fmin o)
  | 7 => some (.fmax o)
  | 8 => some (.fcmp o)
  | 9 => some (.fclass o)
  | 10 => some (.fsgn o)
  | 11 => some (.fcvt o)
  | 12 => some (.fcvti o)
  | 13 => some (.icvtf o)
  | _ => none

/-- Opcodes 0x40 to 0x4F of R52. -/
def tmplRow4 (o : TOp) : Nat → Option Instr
  | 0 => some (.vadd o)
  | 1 => some (.vsub o)
  | 2 => some (.vmul o)
  | 3 => some (.vfma o)
  | 4 => some (.vfms o)
  | 5 => some (.vmin o)
  | 6 => some (.vmax o)
  | 7 => some (.vabs o)
  | 8 => some (.vneg o)
  | 9 => some (.vand o)
  | 10 => some (.vor o)
  | 11 => some (.vxor o)
  | 12 => some (.vandn o)
  | 13 => some (.vnot o)
  | 14 => some (.vshl o)
  | 15 => some (.vshr o)
  | _ => none

/-- Opcodes 0x50 to 0x5F of R52. -/
def tmplRow5 (o : TOp) : Nat → Option Instr
  | 0 => some (.vsar o)
  | 1 => some (.vrol o)
  | 2 => some (.vcmp o)
  | 3 => some (.vsel o)
  | 4 => some (.vmov o)
  | 5 => match o.mdN with | 0 => some (.vbcast o) | 1 => some (.vbcastLane o) | 2 => some (.vbcastIota o) | _ => none
  | 6 => some (.vcvt o)
  | 7 => some (.vmulh o)
  | 8 => some (.vrcp o)
  | 9 => some (.vrsqrt o)
  | 10 => some (.vsqrt o)
  | 11 => some (.vexp2 o)
  | 12 => some (.vlog2 o)
  | 13 => some (.vtanh o)
  | 14 => some (.vclz o)
  | 15 => some (.vpopc o)
  | _ => none

/-- Opcodes 0x60 to 0x6F of R52. -/
def tmplRow6 (o : TOp) : Nat → Option Instr
  | 0 => some (.vrsum o)
  | 1 => some (.vrmax o)
  | 2 => some (.vrmin o)
  | 3 => some (.vscan o)
  | 4 => some (.vsort o)
  | 5 => some (.vperm o)
  | 6 => some (.vrot o)
  | 7 => some (.vextr o)
  | 8 => some (.vins o)
  | 9 => some (.vrand o)
  | 10 => some (.ppack o)
  | 11 => some (.punpack o)
  | 12 => some (.plog o)
  | 13 => some (.pcnt o)
  | 14 => some (.pfirst o)
  | 15 => some (.vsat o)
  | _ => none

/-- Opcodes 0x70 to 0x7F of R52. -/
def tmplRow7 (o : TOp) : Nat → Option Instr
  | 0 => some (.vrnd o)
  | 1 => some (.vscl o)
  | _ => none

/-- Opcodes 0x80 to 0x8F of R52. -/
def tmplRow8 (o : TOp) : Nat → Option Instr
  | 0 => some (.mop o)
  | 1 => some (.mops o)
  | 2 => some (.mopc o)
  | 3 => some (.mopv o)
  | 4 => some (.mrank1 o)
  | 5 => some (.mzero o)
  | 6 => some (.mfill o)
  | 7 => some (.mstash o)
  | 8 => some (.mucfg o)
  | 9 => some (.mscale o)
  | _ => none

/-- Opcodes 0x90 to 0x9F of R52. -/
def tmplRow9 (o : TOp) : Nat → Option Instr
  | 0 => some (.ard o)
  | 1 => some (.ardc o)
  | 2 => some (.aspill o)
  | 3 => some (.afill o)
  | 4 => some (.asgd o)
  | 5 => some (.amom o)
  | 6 => some (.aadam o)
  | 7 => some (.astat o)
  | _ => none

/-- Opcodes 0xA0 to 0xAF of R52. -/
def tmplRowA (o : TOp) : Nat → Option Instr
  | 0 => if o.md.getLsbD 0 then some (.cstartIn o) else some (.cstart o)
  | 1 => some (.cappend o)
  | 2 => some (.cstop o)
  | 3 => some (.cwm o)
  | 4 => some (.crange o)
  | 5 => some (.ctag o)
  | 6 => some (.cpref o)
  | 7 => some (.cbank o)
  | 8 => if o.md.getLsbD 0 then some (.cqfmtGet o) else some (.cqfmt o)
  | 9 => some (.bufswap o)
  | _ => none

/-- Opcodes 0xB0 to 0xBF of R52. -/
def tmplRowB (o : TOp) : Nat → Option Instr
  | 0 => some (.ld o)
  | 1 => some (.st o)
  | 2 => some (.vld o)
  | 3 => some (.vst o)
  | 4 => some (.vgath o)
  | 5 => some (.vscat o)
  | 6 => some (.ldc o)
  | 7 => some (.vldc o)
  | 8 => some (.amadd o)
  | 9 => some (.amfadd o)
  | 10 => some (.ammin o)
  | 11 => some (.ammax o)
  | 12 => some (.amand o)
  | 13 => some (.amor o)
  | 14 => some (.amxor o)
  | 15 => some (.amswap o)
  | _ => none

/-- Opcodes 0xC0 to 0xCF of R52. -/
def tmplRowC (o : TOp) : Nat → Option Instr
  | 0 => some (.amcas o)
  | 1 => some (.amcasgt o)
  | 2 => some (.amcasv o)
  | 3 => some (.amcasp o)
  | 4 => some (.vamadd o)
  | 5 => some (.fence o)
  | 6 => some (.ldacq o)
  | 7 => some (.strel o)
  | 8 => some (.chk o)
  | 9 => some (.stg o)
  | 10 => some (.vstg o)
  | 11 => some (.evpop o)
  | _ => none

/-- Opcodes 0xD0 to 0xDF of R52. -/
def tmplRowD (o : TOp) : Nat → Option Instr
  | 0 => some (.jmp o)
  | 1 => some (.bcmp o)
  | 2 => if o.md.getLsbD 0 then some (.bnez o) else some (.beqz o)
  | 3 => some (.bpred o)
  | 4 => some (.brg o)
  | 5 => some (.call o)
  | 6 => some (.callr o)
  | 7 => some (.ret o)
  | 8 => some (.jmpr o)
  | 9 => some (.loop o)
  | 10 => some (.loopx o)
  | 11 => some (.yield o)
  | 12 => some (.waitb o)
  | 13 => some (.gets o)
  | 14 => some (setsOf o)
  | 15 => some (.trap o)
  | _ => none

/-- Opcodes 0xE0 to 0xEF of R52. -/
def tmplRowE (o : TOp) : Nat → Option Instr
  | 0 => some (.dld o)
  | 1 => some (.dset o)
  | 2 => some (.dget o)
  | 3 => some (.dsel o)
  | 4 => some (.ffence o)
  | 5 => some (.adjm o)
  | 6 => some (.adjld o)
  | 7 => some (.adjclr o)
  | 8 => some (.tapefl o)
  | 9 => some (.ckpt o)
  | 10 => some (.rte o)
  | 11 => some (.halt o)
  | 12 => some (.bkpt o)
  | _ => none

/-- The instruction of an opcode and an expanded operation (R52). -/
def Instr.ofTmpl (opc : Nat) (o : TOp) : Option Instr :=
  match opc / 16 with
  | 0 => tmplRow0 o (opc % 16)
  | 1 => tmplRow1 o (opc % 16)
  | 2 => tmplRow2 o (opc % 16)
  | 4 => tmplRow4 o (opc % 16)
  | 5 => tmplRow5 o (opc % 16)
  | 6 => tmplRow6 o (opc % 16)
  | 7 => tmplRow7 o (opc % 16)
  | 8 => tmplRow8 o (opc % 16)
  | 9 => tmplRow9 o (opc % 16)
  | 10 => tmplRowA o (opc % 16)
  | 11 => tmplRowB o (opc % 16)
  | 12 => tmplRowC o (opc % 16)
  | 13 => tmplRowD o (opc % 16)
  | 14 => tmplRowE o (opc % 16)
  | _ => none

end Sys2Proof
end

