-- ==== Sys2Proof/Decode.lean ====
section
/-! DEFINITION. Decoding and encoding of slots, templates and bundles (R34 to R48, R53). Decoding is total: every
24-bit slot value has one fate (R53), and a refused one is rejected by the cause and detail of R48. -/
namespace Sys2Proof

/-- Why an expansion stops: cause, slot position, detail, class field of the entry (R46, R48). -/
structure XFault where
  cause : Nat
  slot : Nat
  detail : Nat
  ecls : Nat
  deriving DecidableEq, Repr

/-! ## Templates (R39) -/

/-- The fields of a template other than OPC and CLS (R39), in a slot position. -/
def TOp.ofTemplate (slot : Nat) (t : Template) : TOp where
  slot := slot
  md := t.extractLsb' 48 5
  ty := t.extractLsb' 42 6
  dst := t.extractLsb' 34 8
  sa := t.extractLsb' 26 8
  sb := t.extractLsb' 18 8
  pr := t.extractLsb' 12 6
  hd := t.extractLsb' 4 8
  lk := t.extractLsb' 0 4
  lit := 0#22

def tmplOpc (t : Template) : Nat := (t.extractLsb' 56 8).toNat
def tmplCls (t : Template) : Nat := (t.extractLsb' 53 3).toNat

/-- The template of an operation (R39). -/
def TOp.toTemplate (opc cls : Nat) (o : TOp) : Template :=
  BitVec.ofNat 8 opc ++ BitVec.ofNat 3 cls ++ o.md ++ o.ty ++ o.dst ++ o.sa ++ o.sb ++ o.pr ++ o.hd ++ o.lk

/-- R15: the class that a slot position accepts. -/
def classOf : Nat → Nat
  | 0 => 0 | 1 => 1 | 2 => 1 | 3 => 2 | 4 => 3 | 5 => 3 | 6 => 4 | _ => 5

/-- R44 checks 1 to 9 on a 64-bit template as DSET and DLD store it: the lowest failing code, or 0. -/
def checkTemplate (t : Template) : Nat := Machine.checkStored (tmplOpc t) (tmplCls t) (TOp.ofTemplate 0 t)

/-! ## Holes (R41, R42) -/

/-- Replace the low 6 bits of a specifier. -/
def low6 (x : BitVec 8) (h : BitVec 6) : BitVec 8 := x.extractLsb' 6 2 ++ h
/-- Replace the file bits of a specifier. -/
def high2 (x : BitVec 8) (h : BitVec 2) : BitVec 8 := h ++ x.extractLsb' 0 6

/-- R41: put hole bits into the field of a destination code; an error is the detail of R48. -/
def placeHole (code : Nat) (h : BitVec 6) (o : TOp) : Except Nat TOp :=
  match code with
  | 0 => if h == 0#6 then .ok o else .error 4
  | 1 => .ok { o with dst := low6 o.dst h }
  | 2 => .ok { o with sa := low6 o.sa h }
  | 3 => .ok { o with sb := low6 o.sb h }
  | 4 => if h.getLsbD 5 then .error 5 else .ok { o with pr := o.pr.extractLsb' 5 1 ++ h.extractLsb' 0 5 }
  | 5 => if h.getLsbD 5 then .error 5 else .ok { o with md := h.extractLsb' 0 5 }
  | 6 => .ok { o with ty := h }
  | _ => .error 4

/-- R42: apply H3. -/
def applyH3 (code h1 : Nat) (h : BitVec 2) (o : TOp) : Except Nat TOp :=
  match code with
  | 0 => if h == 0#2 then .ok o else .error 4
  | 1 => if h == 3#2 then .ok o else .ok { o with md := h ++ o.md.extractLsb' 0 3 }
  | 2 => .ok { o with md := o.md.extractLsb' 3 2 ++ (0#1 ++ h) }
  | _ => match h1 with
    | 1 => .ok { o with dst := high2 o.dst h }
    | 2 => .ok { o with sa := high2 o.sa h }
    | 3 => .ok { o with sb := high2 o.sb h }
    | _ => .ok o

/-- Expansion of a stored template by its hole bits (R46, the dictionary form). -/
def fillHoles (t : Template) (slot : Nat) (h1 h2 : BitVec 6) (h3 : BitVec 2) : Except Nat TOp :=
  let o := TOp.ofTemplate slot t
  match placeHole (Machine.hdH1 o.hd) h1 o with
  | .error d => .error d
  | .ok o1 =>
    match placeHole (Machine.hdH2 o.hd) h2 o1 with
    | .error d => .error d
    | .ok o2 =>
      match applyH3 (Machine.hdH3 o.hd) (Machine.hdH1 o.hd) h3 o2 with
      | .error d => .error d
      | .ok o3 => if Machine.checkExpanded (tmplOpc t) (tmplCls t) o3 == 0 then .ok o3 else .error 7

/-! ## Direct forms (R37, R38) -/

/-- R37: the operation of a direct form, before its literal is served; an error is the detail of R48. -/
def decodeDirect (pos : Nat) (w : SlotBits) : Except Nat Instr :=
  let d := w.extractLsb' 10 6
  let a := w.extractLsb' 10 6
  let a2 := w.extractLsb' 4 6
  let z4 := w.extractLsb' 0 4 == 0#4
  let op := (w.extractLsb' 16 6).toNat
  let ok (c : Bool) (i : Instr) : Except Nat Instr := if c then .ok i else .error 3
  if pos == 0 then
    match op with
    | 0x01 => .ok (.movDirectImm d (w.extractLsb' 0 10))
    | 0x02 => ok (w.extractLsb' 0 10 == 0#10) (.movDirectLit d 0#22)
    | 0x03 =>
      let q := w.extractLsb' 8 2
      ok (w.extractLsb' 0 8 == 0#8 && (q == 1#2 || q == 2#2)) (.movhiDirect d q 0#22)
    | 0x04 => ok z4 (.addDirectReg d a2)
    | 0x05 => .ok (.addDirectImm d (w.extractLsb' 0 10))
    | 0x06 => ok z4 (.subDirect d a2)
    | 0x07 => ok z4 (.andDirect d a2)
    | 0x08 => ok z4 (.orDirect d a2)
    | 0x09 => ok z4 (.xorDirect d a2)
    | 0x0A => ok z4 (.shlDirect d a2)
    | 0x0B => ok z4 (.shrDirect d a2)
    | 0x0C => .ok (.ldDirect d a2 (w.extractLsb' 0 4))
    | 0x0D => .ok (.stDirect d a2 (w.extractLsb' 0 4))
    | _ => .error 2
  else
    match op with
    | 0x20 => .ok (.jmpDirect (w.extractLsb' 0 16))
    | 0x21 => .ok (.beqzDirect a (w.extractLsb' 0 10))
    | 0x22 => .ok (.bnezDirect a (w.extractLsb' 0 10))
    | 0x23 => .ok (.callDirect (w.extractLsb' 0 16))
    | 0x24 => ok (w.extractLsb' 0 16 == 0#16) .retDirect
    | 0x25 => ok (w.extractLsb' 0 10 == 0#10) (.jmprDirect a)
    | 0x26 => ok (w.extractLsb' 6 4 == 0#4) (.getsDirect d (w.extractLsb' 0 6))
    | 0x27 => ok (w.extractLsb' 6 4 == 0#4) (.setsDirect a (w.extractLsb' 0 6))
    | 0x28 => ok (w.extractLsb' 0 10 == 0#10) (.dldDirect a)
    | 0x29 => ok (w.extractLsb' 9 1 == 0#1) (.dsetDirect a (w.extractLsb' 8 1) (w.extractLsb' 0 8))
    | 0x2A => ok (w.extractLsb' 9 1 == 0#1) (.dgetDirect d (w.extractLsb' 8 1) (w.extractLsb' 0 8))
    | 0x2B => ok (w.extractLsb' 1 15 == 0#15) (.dselDirect (w.extractLsb' 0 1))
    | 0x2C => ok (w.extractLsb' 0 16 == 0#16) .ffenceDirect
    | 0x2D => .ok (.yieldDirect (w.extractLsb' 0 16))
    | 0x2E => ok (w.extractLsb' 0 10 == 0#10) (.waitbDirect a)
    | 0x2F => ok (w.extractLsb' 8 8 == 0#8) (.trapDirect (w.extractLsb' 0 8))
    | 0x30 => ok (w.extractLsb' 0 16 == 0#16) .haltDirect
    | 0x31 => ok (w.extractLsb' 0 16 == 0#16) .ckptDirect
    | _ => .error 2

/-! ## Literals (R43, R46, R47) -/

/-- Does the operation want a literal (R37, R43)? -/
def Instr.wantsLit (i : Instr) : Bool :=
  match i with
  | .movDirectLit _ _ => true
  | .movhiDirect _ _ _ => true
  | i => match i.tmpl with
    | some (_, o) => o.lk != 0#4
    | none => false

/-- R46: is the literal value allowed for the kind of the operation (LK 5; MOVHI q = 2, R86; the descriptor of R87;
YIELD, R99)? -/
def Instr.litOk (i : Instr) (lit : BitVec 22) : Bool :=
  match i with
  | .movhiDirect _ q _ => !(q == 2#2 && lit.extractLsb' 20 2 != 0#2)
  | i => match i.tmpl with
    | some (opc, o) =>
      if o.lk == 5#4 then lit.extractLsb' 16 6 == 0#6
      else if o.lk == 6#4 then
        lit.extractLsb' 13 9 == 0#9 && decide (1 ≤ (lit.extractLsb' 6 7).toNat ∧ (lit.extractLsb' 6 7).toNat ≤ 64)
      else if opc == 0x17 then !(o.md == 2#5 && lit.extractLsb' 20 2 != 0#2)
      else if opc == 0xDB then lit.extractLsb' 16 6 == 0#6
      else true
    | none => true

/-- The operation with the literal that serves it. -/
def Instr.serve (i : Instr) (lit : BitVec 22) : Instr :=
  match i with
  | .movDirectLit d _ => .movDirectLit d lit
  | .movhiDirect d q _ => .movhiDirect d q lit
  | i => match i.tmpl with
    | some (opc, o) => (Instr.ofTmpl opc { o with lit := lit }).getD i
    | none => i

/-! ## Expansion (R46) -/

/-- What stands in a slot after phase 1. -/
inductive Piece where
  | none
  | lit (v : BitVec 22)
  | op (i : Instr) (served : Bool)
  deriving DecidableEq, Repr

/-- Phase 1 of R46 for one slot. -/
def expandSlot (dict : Nat → Option Template) (pos : Nat) (w : SlotBits) : Except XFault Piece :=
  match (w.extractLsb' 22 2).toNat with
  | 3 => if w.extractLsb' 0 22 == 0#22 then .ok .none else .error ⟨0x03, pos, 0, 0⟩
  | 2 => .ok (.lit (w.extractLsb' 0 22))
  | 0 =>
    if pos != 0 && pos != 6 then .error ⟨0x03, pos, 1, 0⟩
    else match decodeDirect pos w with
      | .ok i => .ok (.op i false)
      | .error d => .error ⟨0x03, pos, d, 0⟩
  | _ =>
    let n := (w.extractLsb' 14 8).toNat
    if n == 0 then
      if w.extractLsb' 0 14 == 0#14 then .ok .none else .error ⟨0x03, pos, 6, 0⟩
    else match dict n with
      | none => .error ⟨0x01, pos, 0, 0⟩
      | some t =>
        if tmplCls t != classOf pos then .error ⟨0x02, pos, 0, tmplCls t⟩
        else match fillHoles t pos (w.extractLsb' 8 6) (w.extractLsb' 2 6) (w.extractLsb' 0 2) with
          | .error d => .error ⟨0x03, pos, d, 0⟩
          | .ok o => match Instr.ofTmpl (tmplOpc t) o with
            | some i => .ok (.op i false)
            | none => .error ⟨0x03, pos, 7, 0⟩

/-- R15: slot `i` of a bundle. -/
def slotOf (b : Bundle) (i : Nat) : SlotBits := b.extractLsb' (24 * i) 24

/-- Phase 1 of R46 over positions `pos`, `pos + 1`, … -/
def expandForms (dict : Nat → Option Template) (b : Bundle) : Nat → Nat → Except XFault (List Piece)
  | 0, _ => .ok []
  | n + 1, pos =>
    match expandSlot dict pos (slotOf b pos) with
    | .error f => .error f
    | .ok p => match expandForms dict b n (pos + 1) with
      | .error f => .error f
      | .ok ps => .ok (p :: ps)

/-- The highest position whose operation wants a literal and is not served; the list is in descending position. -/
def topUnserved : List (Nat × Piece) → Option (Nat × Instr)
  | [] => none
  | (k, .op i false) :: ps => if i.wantsLit then some (k, i) else topUnserved ps
  | _ :: ps => topUnserved ps

/-- Mark position `k` served with a literal. -/
def markServed (k : Nat) (lit : BitVec 22) : List (Nat × Piece) → List (Nat × Piece)
  | [] => []
  | (j, .op i b) :: ps => if j == k then (j, .op (i.serve lit) true) :: ps else (j, .op i b) :: markServed k lit ps
  | p :: ps => p :: markServed k lit ps

/-- Phase 2 of R46: literals in ascending position; `below` holds the positions already passed, highest first. -/
def pairLits (below : List (Nat × Piece)) : Nat → List Piece → Except XFault (List (Nat × Piece))
  | _, [] => .ok below
  | j, .lit v :: ps =>
    match topUnserved below with
    | none => .error ⟨0x04, j, 0, 0⟩
    | some (k, i) =>
      if i.litOk v then pairLits ((j, .none) :: markServed k v below) (j + 1) ps else .error ⟨0x04, k, 2, 0⟩
  | j, p :: ps => pairLits ((j, p) :: below) (j + 1) ps

/-- The last loop of phase 2: the first operation that wants a literal and found none. -/
def unserved : List (Nat × Piece) → Option Nat
  | [] => none
  | (k, .op i false) :: ps => if i.wantsLit then some k else unserved ps
  | _ :: ps => unserved ps

def pieceOp : Nat × Piece → Option Instr
  | (_, .op i _) => some i
  | _ => none

/-- Expansion of a bundle (R46, phases 1 and 2): its operations in ascending position. -/
def expandBundle (dict : Nat → Option Template) (b : Bundle) : Except XFault (List Instr) :=
  match expandForms dict b 8 0 with
  | .error f => .error f
  | .ok ps => match pairLits [] 0 ps with
    | .error f => .error f
    | .ok qs =>
      match unserved qs.reverse with
      | some k => .error ⟨0x04, k, 1, 0⟩
      | none => .ok (qs.reverse.filterMap pieceOp)

/-! ## Encoding -/

/-- The words of one instruction: its slot position and slot bits, the value of the literal slot that serves it, and the
dictionary entry 1 that its slot names. -/
structure Words where
  pos : Nat
  slot : SlotBits
  lit : Option (BitVec 22)
  tmpl : Option Template
  deriving DecidableEq, Repr

/-- A direct form: form bits, opcode and 16 operand bits (R34, R37). -/
def directWord (op : BitVec 6) (x : BitVec 16) : SlotBits := 0#2 ++ op ++ x

/-- R41: the hole bits that give a field its value. -/
def holeBits (code : Nat) (o : TOp) : BitVec 6 :=
  match code with
  | 1 => o.dst.extractLsb' 0 6
  | 2 => o.sa.extractLsb' 0 6
  | 3 => o.sb.extractLsb' 0 6
  | 4 => 0#1 ++ o.pr.extractLsb' 0 5
  | 5 => 0#1 ++ o.md
  | 6 => o.ty
  | _ => 0#6

/-- R44 check 8: the field with the bits of a hole cleared. -/
def clearHole (code : Nat) (o : TOp) : TOp :=
  match code with
  | 1 => { o with dst := low6 o.dst 0#6 }
  | 2 => { o with sa := low6 o.sa 0#6 }
  | 3 => { o with sb := low6 o.sb 0#6 }
  | 4 => { o with pr := o.pr.extractLsb' 5 1 ++ 0#5 }
  | 5 => { o with md := 0#5 }
  | 6 => { o with ty := 0#6 }
  | _ => o

/-- R42: the H3 bits that give an operation its rounding, scope or file bits. -/
def h3Bits (code h1 : Nat) (o : TOp) : BitVec 2 :=
  match code with
  | 1 => 3#2
  | 2 => o.md.extractLsb' 0 2
  | 3 => match h1 with
    | 1 => o.dst.extractLsb' 6 2
    | 2 => o.sa.extractLsb' 6 2
    | 3 => o.sb.extractLsb' 6 2
    | _ => 0#2
  | _ => 0#2

/-- Check 8 for H3: the bits that H3 replaces, cleared. -/
def clearH3 (code h1 : Nat) (o : TOp) : TOp :=
  match code with
  | 2 => { o with md := o.md.extractLsb' 3 2 ++ 0#3 }
  | 3 => match h1 with
    | 1 => { o with dst := high2 o.dst 0#2 }
    | 2 => { o with sa := high2 o.sa 0#2 }
    | 3 => { o with sb := high2 o.sb 0#2 }
    | _ => o
  | _ => o

/-- The words of a template operation: its stored template in entry 1 and the dictionary-form slot (R34, R41, R42). -/
def encodeTmpl (opc cls : Nat) (o : TOp) : Words :=
  let h1 := Machine.hdH1 o.hd
  let h2 := Machine.hdH2 o.hd
  let h3 := Machine.hdH3 o.hd
  let stored := clearH3 h3 h1 (clearHole h2 (clearHole h1 o))
  ⟨o.slot, 1#2 ++ 1#8 ++ holeBits h1 o ++ holeBits h2 o ++ h3Bits h3 h1 o,
    if o.lk == 0#4 then none else some o.lit, some (stored.toTemplate opc cls)⟩

/-- The class that the opcode map gives an opcode (R52). -/
def clsOf (opc : Nat) : Nat := match Machine.ruleOf opc with | some r => r.cls | none => 7

/-- The words of a direct instruction (R37). -/
def encodeDirect : Instr → Option Words
  | .movDirectImm d i => some ⟨0, directWord 0x01#6 (d ++ i), none, none⟩
  | .movDirectLit d l => some ⟨0, directWord 0x02#6 (d ++ 0#10), some l, none⟩
  | .movhiDirect d q l => some ⟨0, directWord 0x03#6 (d ++ q ++ 0#8), some l, none⟩
  | .addDirectReg d a => some ⟨0, directWord 0x04#6 (d ++ a ++ 0#4), none, none⟩
  | .addDirectImm d i => some ⟨0, directWord 0x05#6 (d ++ i), none, none⟩
  | .subDirect d a => some ⟨0, directWord 0x06#6 (d ++ a ++ 0#4), none, none⟩
  | .andDirect d a => some ⟨0, directWord 0x07#6 (d ++ a ++ 0#4), none, none⟩
  | .orDirect d a => some ⟨0, directWord 0x08#6 (d ++ a ++ 0#4), none, none⟩
  | .xorDirect d a => some ⟨0, directWord 0x09#6 (d ++ a ++ 0#4), none, none⟩
  | .shlDirect d a => some ⟨0, directWord 0x0A#6 (d ++ a ++ 0#4), none, none⟩
  | .shrDirect d a => some ⟨0, directWord 0x0B#6 (d ++ a ++ 0#4), none, none⟩
  | .ldDirect d a i => some ⟨0, directWord 0x0C#6 (d ++ a ++ i), none, none⟩
  | .stDirect d a i => some ⟨0, directWord 0x0D#6 (d ++ a ++ i), none, none⟩
  | .jmpDirect x => some ⟨6, directWord 0x20#6 x, none, none⟩
  | .beqzDirect a x => some ⟨6, directWord 0x21#6 (a ++ x), none, none⟩
  | .bnezDirect a x => some ⟨6, directWord 0x22#6 (a ++ x), none, none⟩
  | .callDirect x => some ⟨6, directWord 0x23#6 x, none, none⟩
  | .retDirect => some ⟨6, directWord 0x24#6 0#16, none, none⟩
  | .jmprDirect a => some ⟨6, directWord 0x25#6 (a ++ 0#10), none, none⟩
  | .getsDirect d i => some ⟨6, directWord 0x26#6 (d ++ 0#4 ++ i), none, none⟩
  | .setsDirect a i => some ⟨6, directWord 0x27#6 (a ++ 0#4 ++ i), none, none⟩
  | .dldDirect a => some ⟨6, directWord 0x28#6 (a ++ 0#10), none, none⟩
  | .dsetDirect a b n => some ⟨6, directWord 0x29#6 (a ++ 0#1 ++ b ++ n), none, none⟩
  | .dgetDirect d b n => some ⟨6, directWord 0x2A#6 (d ++ 0#1 ++ b ++ n), none, none⟩
  | .dselDirect b => some ⟨6, directWord 0x2B#6 (0#15 ++ b), none, none⟩
  | .ffenceDirect => some ⟨6, directWord 0x2C#6 0#16, none, none⟩
  | .yieldDirect x => some ⟨6, directWord 0x2D#6 x, none, none⟩
  | .waitbDirect a => some ⟨6, directWord 0x2E#6 (a ++ 0#10), none, none⟩
  | .trapDirect x => some ⟨6, directWord 0x2F#6 (0#8 ++ x), none, none⟩
  | .haltDirect => some ⟨6, directWord 0x30#6 0#16, none, none⟩
  | .ckptDirect => some ⟨6, directWord 0x31#6 0#16, none, none⟩
  | _ => none

/-- The words of an instruction that stands in a slot; a step of the part has none. -/
def encode (i : Instr) : Option Words :=
  match i.tmpl with
  | some (opc, o) => some (encodeTmpl opc (clsOf opc) o)
  | none => encodeDirect i

/-- The instruction that its words name, by the expansion of R46 in a dictionary whose entry 1 is `w.tmpl`. -/
def decode (w : Words) : Option Instr :=
  match expandSlot (fun n => if n == 1 then w.tmpl else none) w.pos w.slot with
  | .ok (.op i _) =>
    match w.lit with
    | none => if i.wantsLit then none else some i
    | some l => if i.wantsLit && i.litOk l then some (i.serve l) else none
  | _ => none

/-- The instruction that the decoder reads from the 24 bits of a direct slot, in the position its opcode belongs to (R37);
a form that wants a literal is served the literal of value zero. -/
def decodeTableWord (nbits w : Nat) : Option Instr :=
  let s : SlotBits := BitVec.ofNat 24 w
  if nbits != 24 then none
  else if s.extractLsb' 22 2 != 0#2 then none
  else match decodeDirect (if (s.extractLsb' 16 6).toNat < 0x20 then 0 else 6) s with
    | .ok i => some i
    | .error _ => none

end Sys2Proof
end

