-- ==== Sys2Proof/Machine/CoreState.lean ====
section
/-! DEFINITION. The state of one core and of its copy channels (R12, R16 to R30, R72 to R79, R105, R134 to R143, R162 to
R167, R176 to R179, R206 to R212, R218 to R237, R242, R246 to R264), as plain data. -/
namespace Sys2Proof.Machine

/-- A vector of length `n` by index; it evaluates by list recursion. -/
def vecOf {α : Type} (n : Nat) (f : Nat → α) : Vector α n := ⟨⟨(List.range n).map f⟩, by simp⟩

abbrev Lanes := Vector Word32 32
/-- A tile: 32 rows of 32 AF48 elements (R12, R13). -/
abbrev Tile := Vector (Vector Af48 32) 32

def lanes0 : Lanes := Vector.replicate 32 0#32
def tile0 : Tile := Vector.replicate 32 (Vector.replicate 32 0#48)

/-- Where a byte lies: scratchpad of a cluster's core (R192), physical memory of this module (R267) or of another module
of the job (R275), flat space (R276). -/
inductive Loc where
  | spad (clus core off : Nat)
  | pa (a : Nat)
  | far (module a : Nat)
  | flat (rank off : Nat)
  deriving DecidableEq, Repr

/-- A masked write of one byte. -/
structure ByteW where
  loc : Loc
  mask : Byte
  val : Byte
  deriving DecidableEq, Repr

/-- One element of an access (R199, R394): its lane, address, bytes, the bit where it starts in them and its width, the
format, geometry and class of its region, and the address and place of its scale byte. -/
structure Elem where
  lane : Nat
  addr : Nat
  locs : List Loc
  sh : Nat
  width : Nat
  fmt : Nat
  geom : Nat
  rc : Bool
  scale : Option (Nat × Loc)
  deriving DecidableEq, Repr, Inhabited

/-- A translation fault: stage 2, level, detail (R277). -/
structure TFault where
  stg2 : Bool
  level : Nat
  detail : Nat
  deriving DecidableEq, Repr

/-- A taint: 0 none, else 1 + the scope code (R206, in the form of R237). -/
abbrev Taint := Nat

/-- One hardware loop (R96). -/
structure Loop where
  start : Nat
  stop : Nat
  active : Bool
  deriving DecidableEq, Repr

/-- A pending redirect (R24). -/
structure Redirect where
  left : Nat
  target : Nat
  /-- The transfer ends loops that its target leaves (R97). -/
  ends : Bool
  /-- Issue beat of the transfer (R26). -/
  issue : Nat
  deriving DecidableEq, Repr

/-- The state that a checkpoint copies (R219). -/
structure Arch where
  s : Vector Word64 64
  v : Vector Lanes 64
  p : Vector Word32 16
  /-- The tiles as the A slot sees them (R141). -/
  tiles : Vector Tile 8
  ts : Vector Taint 64
  tv : Vector Taint 64
  mxc : Word64
  mscl : Word64
  unf0 : Word64
  unf1 : Word64
  /-- Format register of the tensor's quarters when MUCFG loaded the descriptor (R150). -/
  unfq : Word64
  cond : BitVec 4
  fsw : Word64
  fctl : Word64
  stklo : Word64
  rngt : Word64
  rngc : Word64
  rngs : Word64
  adjoff : Word64
  adjmode : BitVec 2
  tapeb : Word64
  tapel : Word64
  tapep : Word64
  lc : Vector Word64 4
  lstg : Word64
  pend : List Redirect
  loops : Vector Loop 4
  /-- Tape bytes that the tape bank holds, lowest offset first; the last of them is byte TAPEP - 1 (R179). -/
  tape : List Byte
  /-- How many tape bytes, from the bottom, are at their homes (R188, R189). -/
  tapeHome : Nat
  /-- A TAPEFL, or a bank switch that wrote the tape home, with no push since (R189). -/
  tapeFl : Bool
  /-- Target of a taken branch whose issue ends the loops that it leaves (R97). -/
  leave : Option Nat
  /-- Stage predicates that the next bundle at the start of the LOOPX loop writes in its issue beat (R233). -/
  stage : Bool
  deriving DecidableEq, Repr

/-- One write of a delivery (R20). `on = false` and clear mask bits count as a delivery and change nothing. -/
inductive Wr where
  | s (n : BitVec 6) (x : Word64) (on : Bool) (taint : Taint)
  | v (n : BitVec 6) (mask : Word32) (x : Lanes) (taint : Taint)
  | p (n : BitVec 4) (mask x : Word32)
  | spec (idx : BitVec 6) (x : Word64)
  | cond (on : Bool) (x : BitVec 4)
  /-- An A-slot write of tile elements: rows with element masks (R142). -/
  | tile (n : BitVec 3) (rows : List (Nat × Word32)) (x : Tile)
  /-- An engine step becoming visible to the A slot, with its place in engine order (R141). -/
  | vis (n : BitVec 3) (order : Nat) (x : Tile)
  /-- Increments of MXC: IVC, OFC, NANC, INXC (R136). -/
  | mxc (ivc ofc nanc inxc : Bool)
  | lc (k : BitVec 2) (x : Word64)
  | dset (bank : Bool) (n : BitVec 8) (t : Option Template) (status : Nat)
  | dsel (bank : Bool)
  | tapeClear
  /-- An unfolding descriptor and the format register of its quarters (R149, R150). -/
  | unf (w0 w1 q : Word64)
  | crange (ch : Nat) (lo hi : Nat)
  | ctag (ch : Nat) (tag : Nat)
  | cqfmt (q : Nat) (x : Word64)
  deriving DecidableEq, Repr

/-- A result in flight (R20): delivery beat, issue beat, slot, latency class (none: a fixed beat of R21), writes, flags,
and a delivery fault (cause, TRAPAUX) in place of them (R217). -/
structure Flight where
  due : Nat
  issue : Nat
  slot : Nat
  cls : Option LatClass
  ws : List Wr
  fl : Flags8
  fault : Option (Nat × Word64)
  /-- An acquire at delivery that invalidates the L1 and sets ACQ when its scope says so (R209, R262, R272). -/
  acq : Option Nat
  deriving DecidableEq, Repr

/-- What an engine step does at its beat (R141). -/
inductive StepKind where
  /-- accum with K products of decoded operands, one list of 32 A values and 32 B values a product (R140). -/
  | accum (neg init : Bool) (prods : List (List XVal × List XVal))
  /-- MOPS (R146): which of the six steps, and the operands. -/
  | mops (k : Nat) (neg init : Bool) (a b : List XVal)
  | mopc (neg init : Bool) (a b : List XVal)
  | zero
  /-- Rows read so far, lowest first, and the offset of element 0 in the core's scratchpad (R151). -/
  | fill (x : List (List XVal)) (tr : Bool) (off : Nat)
  | stash (tr : Bool) (mode : RMode) (lane : Lanes) (off : Nat)
  /-- AFILL (R156): rows read so far. -/
  | aread (raw : Bool) (rows : List (List Af48)) (off : Nat)
  /-- MUCFG (R149): the offset of the descriptor, and its bundle. -/
  | ucfg (off pc : Nat)
  deriving DecidableEq, Repr

structure EngStep where
  due : Nat
  visible : Nat
  issue : Nat
  tile : BitVec 3
  kind : StepKind
  deriving DecidableEq, Repr

/-- What a request does (R169, R192, R194, R203). -/
inductive ReqKind where
  | load
  | store
  | atomic
  | acquire (scope : Nat)
  /-- Reverse-mode accumulation of the captured register (R181). -/
  | accum
  /-- Reverse-mode read and clear (R182). -/
  | clear
  deriving DecidableEq, Repr

/-- A memory access with the operands that it captured at issue. -/
structure Req where
  id : Nat
  kind : ReqKind
  opc : Nat
  o : TOp
  issue : Nat
  /-- The address formed (R192) and the elements as issue found them. -/
  addr : Nat
  elems : List Elem
  mask : Word32
  /-- Scalar source b or the vector second source, and the data register at issue. -/
  b : Word64
  vb : Lanes
  d : Word64
  vd : Lanes
  rnd : Lanes
  ftz : Bool
  daz : Bool
  taint : Taint
  /-- Bytes already taken: because a later store of the core to them performed first (R194), because they are read at issue (R200), or
  because they came from outside the module; and those among them that were poisoned. -/
  got : List (Loc × Byte)
  gotBad : List Loc
  /-- The home has performed the atomic: old bytes (R203). -/
  homed : Option (List Byte)
  /-- What the target module or a port answered: 0 not yet, 1 data, else a failure (16 + the detail of R216, or 9 for
  poison). -/
  answer : Nat
  reply : List Byte
  /-- Scratchpad access: the beat at which it reads or performs, and the delivery beat; none for the memory class. -/
  fixed : Option (Nat × Nat)
  /-- Held in guarded mode until its checkpoint (R191). -/
  held : Bool
  /-- A differentiable access (R175). -/
  diff : Bool
  /-- Target rank and offset of a flat access (R276). -/
  flat : Nat × Nat
  /-- The 4 KiB pages among its bytes that its translations gave as poisoned at issue (R279). -/
  psn : List Nat
  /-- Offset on the tape of the record that a forward store pushed (R178). -/
  tape : Option Nat
  deriving DecidableEq, Repr

/-- A store, row or tape write on its way (R192): perform beat, who wrote it, its slot among writes of that beat, its
identity in the core's store record (R208), the store itself with its operands, or else plain bytes (R152, R156, R182,
R188), the release scope it waits for (R210) and the FSW bits that earlier failures left it (R210). -/
structure Perf where
  due : Nat
  issue : Nat
  clus : Nat
  core : Nat
  slot : Nat
  id : Nat
  req : Option Req
  ws : List ByteW
  release : Option Nat
  bad : Nat
  /-- Entries of the store-withholding buffer that it takes (R220). -/
  n : Nat
  /-- Released by a checkpoint: the beat from which its own core sees it (R219, R220). -/
  own : Option Nat
  /-- A memory-class store that was sent: its bytes are encoded and on their way to the die's L2 (R195, R269). -/
  sent : Bool
  /-- Pages that the translations of plain bytes gave as poisoned, for a restore (R182, R279); `none`: those poisoned when it performs. -/
  psn : Option (List Nat)
  deriving DecidableEq, Repr

/-- A store of the core whose outcome at .pkg is outstanding (R208): identity, issue beat, the scope already reached,
its bytes, whether it leaves the module, whether it goes to the flat space, its address. -/
structure Outst where
  id : Nat
  issue : Nat
  reached : Nat
  locs : List Loc
  away : Bool
  flat : Bool
  addr : Nat
  /-- A store to a differentiable page (R175). -/
  diff : Bool
  deriving DecidableEq, Repr

/-- A trap found and not yet entered (R228). -/
structure TrapReq where
  cause : Nat
  kind : Nat
  pc : Nat
  aux : Word64
  beat : Nat
  mult : Bool
  deriving DecidableEq, Repr

/-- What the core waits for before its next bundle, in the kind of wait of R101. -/
inductive Wait where
  | beat (b : Nat)
  | fence (scope : Nat) (dst : BitVec 6) (issue : Nat) (slot : Nat)
  | adj
  | tapefl
  | bank (n : Nat) (mode : Nat)
  | phase
  /-- RTE: earlier results (R230). -/
  | rte (earliest : Nat)
  deriving DecidableEq, Repr

/-- The trap frame (R228 step 5), with the waits that the trap interrupted (R101). -/
structure Frame where
  npc : Nat
  pend : List Redirect
  waits : List Wait
  deriving DecidableEq, Repr

/-- A dictionary change made and not yet visible (R165): the number of the first bundle that sees it. -/
inductive DChange where
  | entry (bank : Bool) (n : BitVec 8) (t : Option Template)
  | bank (b : Bool)
  | image (b : Bool) (ts : List (Option Template))
  deriving DecidableEq, Repr

/-- A DLD in flight (R169): target bank, the beat from which it is busy, its read and completion beats when known, its image bytes
when read, and whether a byte was poisoned; the bytes that came from other modules, the detail with which a read failed there, and the
pages that its translation gave as poisoned (R275, R276, R279). -/
structure Dld where
  bank : Bool
  issue : Nat
  readAt : Option Nat
  done : Option Nat
  src : Nat
  locs : List Loc
  bytes : List Byte
  poisoned : Bool
  got : List (Loc × Byte)
  failed : Option Nat
  psn : List Nat
  /-- The taint of its address (R207). -/
  taint : Taint
  deriving DecidableEq, Repr

/-- How a core stands (R102, R229, R293, R297); a saved one has the cause, trap PC and TRAPAUX of its save header (R237). -/
inductive Run where
  | idle
  | armed (entry : Nat)
  | running
  | stopping
  | halted
  | saved (cause pc : Nat) (aux : Word64)
  deriving DecidableEq, Repr

/-- A chunk that was read and is not yet written (R250, R252): its number, its read and write beats, the elements of a
value record with their values and bits, or the bytes of a plain one, random lanes, poison, and the tag that stamps it. -/
structure Ready where
  k : Nat
  readAt : Nat
  writeAt : Nat
  items : List (Nat × XVal × Nat)
  bytes : List Byte
  lanes : Lanes
  poison : Bool
  tag : Nat
  /-- Bytes of a source element, and whether scales applied (R65, R250). -/
  srcN : Nat
  scaled : Bool
  deriving DecidableEq, Repr

/-- A transfer record as it was read at its fetch beat (R247), and its progress. -/
structure CRec where
  addr : Nat
  words : List Word64
  fetch : Nat
  /-- The beat at which chunk 0 is read; deferrals add to it (R245, R252). -/
  base : Nat
  chunks : Nat
  nread : Nat
  ready : List Ready
  /-- Bytes that came from other modules, a chunk's elements that came from a target (R276), and chunks asked for. -/
  far : List (Loc × Byte)
  reply : List Byte
  asked : Nat
  /-- Among those bytes are poisoned ones (R251, R281). -/
  farBad : Bool
  /-- Its destination lies in the flat space (R337). -/
  flatDst : Bool
  /-- Flat-space writes sent and not acknowledged (R252). -/
  acks : Nat
  /-- Bytes of the unfolding descriptor (R249). -/
  unf : Word64 × Word64
  lastRead : Option Nat
  lastWrite : Nat
  deriving DecidableEq, Repr

/-- A copy write to the flat space or to another module (R265, R337): channel, chunk number, address as the channel's
record has it, the module of a stage-2 leaf, the request, the beat at which its chunk was read. -/
structure FlatOut where
  chan : Nat
  k : Nat
  addr : Nat
  far : Option Nat
  body : FlatReq
  readAt : Nat
  deriving DecidableEq, Repr

/-- A flat-space copy write that failed and that no release has counted yet (R337): its channel and chunk, the beat of its read, its FSW
bits, port, address. -/
structure CopyFail where
  chan : Nat
  k : Nat
  readAt : Nat
  bits : Nat
  port : Nat
  addr : Nat
  deriving DecidableEq, Repr

/-- A copy channel (R246). -/
structure Chan where
  st : Nat
  tag : Nat
  rlo : Nat
  rhi : Nat
  wm : Nat
  /-- Address at which the next fetch reads, and its beat. -/
  fetchAt : Option (Nat × Nat)
  cur : Option CRec
  parked : Nat
  stopAt : Option Nat
  lastStat : Nat
  /-- Head of the pending and of the current input chain (R257, R264), and whether the chain running is that one. -/
  pendIn : Option Nat
  pendDone : Option Nat
  curIn : Option Nat
  quiet : Bool
  /-- Pieces of the range above WM that are written (R253), and the beat at which the chain was started. -/
  wrote : List (Nat × Nat)
  started : Nat
  /-- Bytes of the record at the fetch address, or of its descriptor, that are at hand, and how far they were asked for (R247, R275). -/
  got : List (Loc × Byte)
  gotAsk : Nat
  /-- The beat at which the engine acts on the latest CSTART, CAPPEND or CSTOP of the channel (R26, R257 to R259). -/
  cpAt : Nat
  /-- Bank ports that it was served, with the beat: whether the write port, and the banks (R245). -/
  ports : List (Bool × Nat × List (Nat × Nat))
  deriving DecidableEq, Repr

def Chan.idle : Chan := ⟨0, 0, 0, 0, 0, none, none, 0, none, 0, none, none, none, false, [], 0, [], 0, 0, []⟩

/-- A held translation (R278): virtual page, its size, the physical or flat base, module, permissions of both stages,
stage-1 attributes. -/
structure Tlb where
  va : Nat
  size : Nat
  out : Nat
  module : Nat
  tier : Nat
  fmt : Nat
  geom : Nat
  rc : Bool
  d : Bool
  g : Bool
  r : Bool
  w : Bool
  x : Bool
  /-- Its copy of the poison bits: the 4 KiB pages of the physical page that are poisoned (R278, R279). -/
  bad : List Nat
  /-- The level of its stage-1 leaf (R277). -/
  level : Nat
  deriving DecidableEq, Repr

/-- A line of a CACHE-mode bank (R239). -/
structure L1Line where
  bank : Nat
  line : Nat
  data : BitVec 1024
  poison : Bool
  deriving DecidableEq, Repr

/-- One core with the context it runs. -/
structure Core where
  /-- Physical place: cluster 0 to 31 of the package, core 0 to 127 of the cluster (R1). -/
  pclus : Nat
  pcore : Nat
  run : Run
  job : Nat
  rank : Nat
  timetabled : Bool
  a : Arch
  /-- The tiles in engine order (R141), and the order numbers of the engine's steps. -/
  eng : Vector Tile 8
  order : Nat
  visOrder : Vector Nat 8
  shadow : Arch
  cpc : Nat
  ckNext : Frame
  gm : Bool
  held : List Perf
  sticky : Flags8
  hvec : Nat
  hm : Bool
  rb : Bool
  mult : Bool
  kind : Nat
  cause : Nat
  trappc : Nat
  trapaux : Word64
  frame : Frame
  pcWritten : Bool
  trap : Option TrapReq
  dict : Vector (Option Template) 512
  dictX : Vector (Option Template) 512
  act : Bool
  sel : Bool
  dictv : Word64
  dsidx : Nat
  dstat : Nat
  lbank : Bool
  ldref : Nat
  ldidx : Nat
  ldcode : Nat
  changes : List (Nat × DChange)
  dld : Option Dld
  /-- The latest bundle held an FFENCE that issued while a DLD was in flight (R166). -/
  ffenced : Bool
  lath : Word64
  budget : BitVec 2
  yleft : Nat
  yrun : Nat
  phase : Word64
  step : Word64
  rankid : Word64
  coreid : Nat
  base : Nat
  pc : Nat
  bundles : Nat
  readyAt : Nat
  waits : List Wait
  codeBase : Nat
  ncode : Nat
  flights : List Flight
  steps : List EngStep
  engBusy : Nat
  aBusy : Nat
  tomb : Vector (BitVec 1024) 32
  tombLoad : Option Nat
  /-- The bundle of the SETS that started the load (R78). -/
  tombPc : Nat
  /-- Bytes of the table that came from other modules, and reads of them that failed, with the places of the bytes that they name (R78,
  R275). -/
  tombGot : List (Loc × Byte)
  tombBad : List (Nat × List Loc)
  /-- The beat at which a refill of the tape bank under way completes (R179). -/
  tapeFill : Option Nat
  reqs : List Req
  outst : List Outst
  acq : Nat
  tlb : List Tlb
  /-- The fault with which a walk for the waiting bundle ended, and its page (R277, R278). -/
  walkFault : Option (Nat × TFault)
  /-- Bytes of the next bundle, or of the tape, that came from other modules; whether those of the bundle were asked for, and the status
  with which that read failed (R179, R275). -/
  fetchGot : List (Loc × Byte)
  fetchAsk : Bool
  fetchBad : Option Nat
  l1 : List L1Line
  l1last : List (Nat × Nat)
  chan0 : Chan
  chan1 : Chan
  events : List Word64
  ovf : Bool
  /-- Entries of this beat, which enter in channel order: status, channel, address (R255). -/
  evDue : List (Nat × Nat × Nat)
  /-- Urgent pre-emption: requested, and the RNGS and RNGC recorded while draining (R234). -/
  urgent : Bool
  drain : Option (Word64 × Word64)
  /-- Event queue recorded at the last commit, and copy writes withheld since (R264, R265). -/
  evSaved : List Word64
  withheld : List FlatOut
  copyFails : List CopyFail
  swapAt : Option Nat
  switchOut : Bool
  /-- The arbiter has chosen another context at the next YIELD (R100, R304). -/
  switchReq : Bool
  /-- Beat of the latest delivery, perform or DLD completion (R228). -/
  lastDone : Nat
  /-- BEAT when the context was saved (R237). -/
  savedAt : Nat
  /-- The cause that a failed restore put into its save word (R237). -/
  saveErr : Option Nat
  /-- Predicates written by the latest delivery: beat, target, issue beat and slot of the write (R28, R233). -/
  landed : List (Nat × Nat × Nat × Nat)
  /-- Stores that failed since the last FENCE: issue beat and FSW bits. A later STREL or FENCE covers them (R210, R212). -/
  failed : List (Nat × Nat)
  /-- Failures known in this beat, in order: issue beat of the store, FSW bits, port, address. FSW takes them at the end of the
  beat, after a SETS or the clear of a FENCE (R212). -/
  fswDue : List (Nat × Nat × Nat × Nat)
  deriving DecidableEq, Repr

/-- Byte offset of a core within the cluster scratchpad window (R192). -/
def spadBase : Nat := 0x00800000000000

def arch0 : Arch where
  s := Vector.replicate 64 0#64
  v := Vector.replicate 64 lanes0
  p := Vector.replicate 16 0#32
  tiles := Vector.replicate 8 tile0
  ts := Vector.replicate 64 0
  tv := Vector.replicate 64 0
  mxc := 0#64
  mscl := 0x7F7F7F7F7F7F7F7F#64
  unf0 := 0#64
  unf1 := 0#64
  unfq := 0#64
  cond := 0#4
  fsw := 0#64
  fctl := 0#64
  stklo := 0#64
  rngt := 0#64
  rngc := 0#64
  rngs := 0#64
  adjoff := 0#64
  adjmode := 0#2
  tapeb := 0#64
  tapel := 0#64
  tapep := 0#64
  lc := Vector.replicate 4 0#64
  lstg := 0#64
  pend := []
  loops := Vector.replicate 4 ⟨0, 0, false⟩
  tape := []
  tapeHome := 0
  tapeFl := false
  leave := none
  stage := false

/-- A core after reset, in its place: registers the manual gives no reset value hold 0 (notes/assumptions/1.md). -/
def core0 (pclus pcore : Nat) : Core where
  pclus := pclus
  pcore := pcore
  run := .idle
  job := 0
  rank := 0
  timetabled := false
  a := arch0
  eng := Vector.replicate 8 tile0
  order := 0
  visOrder := Vector.replicate 8 0
  shadow := arch0
  cpc := 0
  ckNext := ⟨0, [], []⟩
  gm := false
  held := []
  sticky := 0#8
  hvec := 0
  hm := false
  rb := false
  mult := false
  kind := 0
  cause := 0
  trappc := 0
  trapaux := 0#64
  frame := ⟨0, [], []⟩
  pcWritten := false
  trap := none
  dict := Vector.replicate 512 none
  dictX := Vector.replicate 512 none
  act := false
  sel := false
  dictv := 0#64
  dsidx := 0
  dstat := 0
  lbank := false
  ldref := 0
  ldidx := 0
  ldcode := 0
  changes := []
  dld := none
  ffenced := false
  lath := 0#64
  budget := 3#2
  yleft := 0
  yrun := 0
  phase := 0#64
  step := 0#64
  rankid := 0#64
  coreid := 0
  base := 0
  pc := 0
  bundles := 0
  readyAt := 0
  waits := []
  codeBase := 0
  ncode := 0
  flights := []
  steps := []
  engBusy := 0
  aBusy := 0
  tomb := Vector.replicate 32 0#1024
  tombLoad := none
  tombPc := 0
  tombGot := []
  tombBad := []
  tapeFill := none
  reqs := []
  outst := []
  acq := 0
  tlb := []
  walkFault := none
  fetchGot := []
  fetchAsk := false
  fetchBad := none
  l1 := []
  l1last := []
  chan0 := Chan.idle
  chan1 := Chan.idle
  events := []
  ovf := false
  evDue := []
  urgent := false
  drain := none
  evSaved := []
  withheld := []
  copyFails := []
  swapAt := none
  switchOut := false
  switchReq := false
  lastDone := 0
  savedAt := 0
  saveErr := none
  landed := []
  failed := []
  fswDue := []

end Sys2Proof.Machine
end

