-- ==== Sys2Proof/Machine/PackState.lean ====
section
/-! DEFINITION. The state of the package: ranks, seats, launches, jobs (R290 to R309, R322), host queues and interfaces
(R311 to R321), security (R325 to R328), power (R329), the fabric, collectives and migration (R330 to R358), and the
Turnstile (R282), as plain data. -/
namespace Sys2Proof.Machine

/-- Residency of a rank (R294). -/
inductive Residency where
  | running | idleActive | waiting | parked | held | cold | dead
  deriving DecidableEq, Repr, Inhabited

/-- A range of bytes that holds indeterminate values (R14, R244): base key, length, number of its first free value. -/
structure Indet where
  base : Nat
  len : Nat
  seed : Nat
  deriving DecidableEq, Repr, Inhabited

/-- Banks of one physical core, kept across contexts (R238, R240, R242). -/
structure Banks where
  clus : Nat
  core : Nat
  modes : Vector (BitVec 2) 4
  qfmt : Vector Word64 16
  /-- Bytes of the queues with their poison (R240, R251). -/
  fifos : Vector (List (Byte × Bool)) 4
  deriving DecidableEq, Repr, Inhabited

/-- A footprint image (R295): contexts, banks, scratchpad bytes and poison bits, with keys counted from the base; the base cluster at
the save; status, timetabled and shift of the launch in progress. -/
structure Image where
  cores : List Core
  banks : List Banks
  cells : List (Nat × Byte)
  indet : List Indet
  blocks : List Nat
  base : Nat
  launch : Option (Nat × Bool × Nat)
  deriving DecidableEq, Repr, Inhabited

def Image.empty : Image := ⟨[], [], [], [], [], 0, none⟩

/-- Random-stream registers of one core of a footprint (R292): index, RNGT, RNGS, RNGC. -/
structure RngRec where
  j : Nat
  t : Word64
  s : Word64
  c : Word64
  deriving DecidableEq, Repr, Inhabited

/-- The endpoint state of a collective that a rank record holds (R357): number; 0 idle, 1 armed, 2 done, 3 failed; bytes counted by chunk. -/
structure Endpoint where
  cid : Nat
  st : Nat
  counts : List Nat
  deriving DecidableEq, Repr

/-- A rank record (R292, R357). `base` is the base cluster of its seat. -/
structure Rank where
  job : Nat
  rank : Nat
  fpc : Nat
  st : Residency
  base : Option Nat
  root1 : Nat
  seed : List Byte
  rngt0 : Word64
  rng : List RngRec
  step : Word64
  status : Nat
  atag : Nat
  latec : Nat
  image : Image
  /-- Where the sealed bytes of a cold rank lie in the cold tier, and how many they are (R358). -/
  cold : Option (Nat × Nat)
  /-- The endpoint states of its last launch, once its collectives are gone (R357). -/
  ends : List Endpoint
  /-- A PARK packet has parked it (R324). -/
  byPark : Bool
  /-- A Carousel move holds remote accesses (R354). -/
  moving : Bool
  deriving DecidableEq, Repr, Inhabited

/-- A seat (R291, R303): base cluster, footprint code, slice. -/
structure Seat where
  base : Nat
  fpc : Nat
  slice : Nat
  deriving DecidableEq, Repr

/-- A BUFSWAP issued and not yet committed (R264): core index j, beat. -/
structure Swap where
  j : Nat
  beat : Nat
  deriving DecidableEq, Repr

/-- A phase cancellation in progress (R266): trap cause, trap beat, whether the cores have rolled back and the input chains
run again. -/
structure Cancel where
  cause : Nat
  beat : Nat
  rerun : Bool
  deriving DecidableEq, Repr

/-- A launch in progress (R293, R298 to R306): the packet it came from, its timetable values, its shift, its state. -/
structure Launch where
  job : Nat
  rank : Nat
  q : Nat
  qtag : Nat
  seq : Nat
  irq : Bool
  prio : Nat
  urg : Bool
  timetabled : Bool
  run : Nat
  t0 : Nat
  delta : Nat
  pl : Nat
  tl : Nat
  step : Word64
  /-- Indexes j of the named cores (R295). -/
  named : List Nat
  /-- Beat at which the context last started on its seat, since when it waits, and since when it is the arbiter's choice to
  start next (R303, R304, R306). -/
  started : Nat
  waiting : Option Nat
  chosen : Option Nat
  /-- Its completion record is written (R301); the footprint stops from a trap on; a KILL or an alarm ends it with this
  status once it is saved (R302, R306). -/
  reported : Bool
  stopAt : Option Nat
  killed : Option Nat
  /-- Buffer phases (R264): BUFSWAPs of the phase, phases committed, beat of the last commit. -/
  swaps : List Swap
  committed : Nat
  commitAt : Nat
  cancel : Option Cancel
  /-- Prepared, but its cores not yet placed on the seat (R297, R304); bank modes and quarter registers of SETB. -/
  cores : List Core
  setb : Option (Nat × List Word64)
  /-- Pinned leaf pages: virtual address and bytes (R299). -/
  pinned : List (Nat × Nat)
  deriving DecidableEq, Repr

/-- A job on the module (R322, R353): its number, this module's number, stage-2 root, NRANK, number of modules, the
rank-to-module map (entries that differ from zero) and entries waiting to be adopted. -/
structure Job where
  job : Nat
  modnum : Nat
  root2 : Nat
  nrank : Nat
  nmod : Nat
  map : List (Nat × Half)
  newMap : List (Nat × Half)
  deriving DecidableEq, Repr

/-- A tombstone (R356). -/
structure Tomb where
  job : Nat
  rank : Nat
  target : Nat
  /-- The first step at the new module has ended: accesses are refused as moved. -/
  ended : Bool
  deriving DecidableEq, Repr

/-- A host packet as the device holds it is `Packet`; one that is fetched and has not started, with its sequence number
(R317, R320). -/
structure Fetched where
  seq : Nat
  p : Packet
  deriving DecidableEq, Repr

/-- Registers and progress of a queue (R316, R317, R320). -/
structure Queue where
  q : Nat
  ring : Word64
  cmpl : Word64
  cfg : Word64
  halt : Nat
  head : Nat
  tail : Nat
  chead : Nat
  phase : Bool
  /-- Completion records written, sequence number of the next packet, started packets not complete. -/
  written : Nat
  seq : Nat
  open_ : List Nat
  /-- Packets fetched and not started, oldest first; DMA requests outstanding (R313, R315). -/
  fetched : List Fetched
  dma : Nat
  /-- Ring reads under way whose packets are dropped: the queue has stopped since (R313, R315). -/
  stale : Nat
  deriving DecidableEq, Repr

/-- A key that the host supplied for a peer (R324 KEYX): use 1 session, 2 migration. -/
structure PeerKey where
  job : Nat
  peer : Nat
  use : Nat
  key : List Byte
  deriving DecidableEq, Repr

/-- A service request outstanding (R323, R324). -/
structure SvcReq where
  f : Nat
  object : Word64
  detail : Word64
  deriving DecidableEq, Repr

/-- An INVAL that waits (R299). -/
structure Inval where
  job : Nat
  rank : Nat
  addr : Nat
  len : Nat
  q : Nat
  qtag : Nat
  seq : Nat
  irq : Bool
  deriving DecidableEq, Repr

/-- What left the module: a host write, an MSI-X message, a flit, a management reply. -/
inductive OutMsg where
  | host (pasid addr : Nat) (bytes : List Byte)
  | msix (vec : Nat)
  | flit (f : Flit)
  | mctp (ws : List Word64)
  deriving DecidableEq, Repr

/-- A port (R330, R332, R334): alive, link sequence number, retries of the flit in progress, beat of the last arrival,
flight time. -/
structure Port where
  n : Nat
  alive : Bool
  lseq : Nat
  retries : Nat
  last : Nat
  flight : Nat
  /-- The BEAT that the last beat flit carried, and the beat of its arrival (R331, R334). -/
  seen : Option (Nat × Nat)
  deriving DecidableEq, Repr

/-- A request that left its core and is not answered (R276, R330, R336): request number, port (0xFFFF: this module), issuing
core and request or store, copy channel, the program's address, bytes wanted and received, beat of issue, the module of a
stage-2 leaf, and the access itself. -/
structure Remote where
  ctx : Nat
  port : Nat
  clus : Nat
  core : Nat
  id : Nat
  chan : Option Nat
  addr : Nat
  want : Nat
  data : List (Nat × Byte)
  issue : Nat
  /-- Held until the rank's map entry is adopted (R353). -/
  held : Bool
  far : Option Nat
  body : FlatReq
  deriving DecidableEq, Repr

/-- A send entry of a collective (R339, R349). -/
structure Send where
  ofs : Nat
  after : Nat
  trig : Bool
  dmem : Nat
  src : Nat
  len : Nat
  dch : Nat
  slot : Nat
  doff : Nat
  sent : Bool
  fire : Option Nat
  deriving DecidableEq, Repr

/-- A chunk entry (R340) with its count and its completion. -/
structure Chunk where
  addr : Nat
  len : Nat
  nop : Nat
  local0 : Bool
  opf : Nat
  stg : Nat
  count : Nat
  full : Option Nat
  done : Option Nat
  deriving DecidableEq, Repr

/-- A collective armed for a member on this module (R338 to R352). -/
structure Coll where
  job : Nat
  rank : Nat
  cid : Nat
  kind : Nat
  me : Nat
  memb : List Nat
  flag : Nat
  sends : List Send
  chunks : List Chunk
  armed : Nat
  tmo : Nat
  tag : Nat
  late : Nat
  /-- The flag word once it is written. -/
  flagged : Option Word64
  failed : Option Nat
  /-- SHIFTs applied (R352): sender and number; shifts sent. -/
  seen : List (Nat × Nat)
  nshift : Nat
  /-- Shifts received and not applied: arrival beat and beats (R352). -/
  pshift : List (Nat × Nat)
  /-- The bit-permutation exchange (R349): local bits, element size code, permutation. -/
  lbits : Nat
  le : Nat
  perm : List Nat
  /-- Ports that flits of this member's sends crossed (R332). -/
  crossed : List Nat
  /-- Bytes of its buffers that other modules hold and have sent for the send or the fold to come, and the reason of a failure there (R275). -/
  got : List (Loc × Byte)
  bad : Option Nat
  deriving DecidableEq, Repr

/-- A transfer of a collective between two members on this module, under way (R348): the target member, where the bytes go, the sender's tag, the
bytes, and the beat at which they are placed. -/
structure Transfer where
  job : Nat
  rank : Nat
  cid : Nat
  chunk : Nat
  slot : Nat
  off : Nat
  tag : Nat
  data : List Byte
  due : Nat
  deriving DecidableEq, Repr

/-- What a die's Turnstile entry of a tile holds of its own (R282): bytes of the tile homed there, bytes counted, a byte counted
after the fire, fired, armed. -/
structure TEntry where
  tgt : Nat
  cnt : Nat
  ovr : Bool
  fired : Bool
  armed : Bool
  deriving DecidableEq, Repr, Inhabited

/-- A Turnstile tile (R282): base, length, the collective with its member, the transfer slot XFER to start, the entries of dies 0 to
3, and the beat at which the last die's count became full (R283). -/
structure TTile where
  base : Nat
  len : Nat
  job : Nat
  rank : Nat
  cid : Nat
  xfer : Nat
  dies : List TEntry
  full : Option Nat
  deriving DecidableEq, Repr

/-- A request at its target that waits for other modules (R275): its number, the port by which it came (0xFFFF: it is this module's own), the
request, the bytes and the failures that came back, and its answer but for those: status, data, flags. -/
structure Proxy where
  n : Nat
  port : Nat
  req : FlatReq
  got : List (Loc × Byte)
  bad : List (Nat × Nat)
  ans : Option (List Byte × Nat)
  deriving DecidableEq, Repr

/-- What firmware reads of other modules, for a launch or a restore (R275, R297): bytes at hand, and reads that failed with their places. -/
structure Prep where
  got : List (Loc × Byte)
  bad : List (Nat × List Loc)
  deriving DecidableEq, Repr

/-- A migration unit that arrives (R331, R355). -/
structure MigIn where
  job : Nat
  rank : Nat
  unit : Nat
  page : Nat
  bytes : List (Nat × Byte)
  deriving DecidableEq, Repr

/-- The package. -/
structure Pack where
  booted : Bool
  reason : Nat
  svn : Nat
  fsvn : Nat
  alarm : Nat
  authFails : Nat
  keysErased : Bool
  seedErased : Bool
  fsreq : Word64
  funcsplit : Nat
  throt : Nat
  /-- THROT was 3 and has not returned to 0 (R329). -/
  throtHold : Bool
  qifctl : Vector Word64 64
  queues : List Queue
  /-- Interrupt remap table, MSI-X table: words written, by BAR0 offset (R311). -/
  bar0 : List (Nat × Word64)
  /-- The pending bit array: vectors whose message waits for their unmasking (R311). -/
  pba : List Nat
  /-- PASIDs of the data writes that the host has not completed (R313). -/
  dataDma : List Nat
  sessions : List (Nat × List Byte)
  peerKeys : List PeerKey
  /-- The alarm has reached level 2 by failed authentications, and its kills are still to be done (R328). -/
  alarmDue : Bool
  svcSeq : Nat
  svcs : List SvcReq
  /-- Service requests that wait for room in the ring (R321). -/
  svcWait : List SvcReq
  sealCtr : Nat
  spares : Nat
  ranks : List Rank
  seats : List Seat
  launches : List Launch
  invals : List Inval
  jobs : List Job
  tombs : List Tomb
  /-- Ranks that a Carousel move is bringing to this module: their map entry does not name it yet (R354). -/
  inbound : List (Nat × Nat)
  /-- Peer modules that have been accepted, by job; no rule gives the acceptance a further effect (R323, R324). -/
  peers : List (Nat × Nat)
  beatRef : Bool
  mismatch : Option Nat
  ports : List Port
  linkErrs : Nat
  remotes : List Remote
  ctx : Nat
  colls : List Coll
  transfers : List Transfer
  tiles : List TTile
  migs : List MigIn
  /-- Requests at this module that wait for other modules; requests held while their rank moves, with their port (R354); pieces of requests
  of several flits: module, request number, bytes (R330). -/
  proxies : List Proxy
  heldReqs : List (Nat × FlatReq)
  parts : List (Nat × Nat × List (Nat × Byte))
  prep : Prep
  out : List OutMsg
  deriving DecidableEq, Repr

/-- The package at reset, before BOOT: nothing runs, no queue is enabled. -/
def pack0 : Pack where
  booted := false
  reason := 0
  svn := 0
  fsvn := 0
  alarm := 0
  authFails := 0
  keysErased := false
  seedErased := false
  fsreq := 0#64
  funcsplit := 0
  throt := 0
  throtHold := false
  qifctl := Vector.replicate 64 0#64
  queues := []
  bar0 := []
  pba := []
  dataDma := []
  sessions := []
  peerKeys := []
  alarmDue := false
  svcSeq := 0
  svcs := []
  svcWait := []
  sealCtr := 0
  spares := 0
  ranks := []
  seats := []
  launches := []
  invals := []
  jobs := []
  tombs := []
  inbound := []
  peers := []
  beatRef := false
  mismatch := none
  ports := []
  linkErrs := 0
  remotes := []
  ctx := 0
  colls := []
  transfers := []
  tiles := []
  migs := []
  proxies := []
  heldReqs := []
  parts := []
  prep := ⟨[], []⟩
  out := []

end Sys2Proof.Machine
end

