-- ==== Sys2Proof/Machine/State.lean ====
section
/-! DEFINITION. The state of the module (R1, R3): the core whose turn of the beat it is, the other cores that hold a
context, the memory system, the package, and what the outside world does to it, as plain data. -/
namespace Sys2Proof.Machine

/-- Memory bytes by key: physical addresses (R267) below 2^42, scratchpad bytes above (see `Loc.key`). Strictly rising,
and no cell equal to what its unlisted address reads as. -/
structure Memory where
  cells : List Host.Cell
  indet : List Indet
  deriving DecidableEq, Repr

/-- One L2 sector that a die holds (R268): which 128 bytes, valid, dirty mask, poison, fill beat, bytes. -/
structure L2Sector where
  die : Nat
  sector : Nat
  valid : Bool
  dirty : BitVec 128
  poison : Bool
  fill : Nat
  data : BitVec 1024
  deriving DecidableEq, Repr

/-- A reserved atomic window at a bank (R202): first beat, bank, who reserved it and when. -/
structure Window where
  first : Nat
  clus : Nat
  core : Nat
  bank : Nat
  issue : Nat
  deriving DecidableEq, Repr

/-- The state of the module. -/
structure State where
  beat : Nat
  core : Core
  others : List Core
  /-- Numbers of the cores that had their turn in this beat (the model's own). -/
  turned : List Nat
  /-- What the outside world does, in order, each no earlier than its beat (the model's own). -/
  inputs : List (Nat × Instr)
  mem : Memory
  banks : List Banks
  /-- Poisoned 128-byte blocks of scratchpad, by key / 128 (R245). -/
  blocks : List Nat
  l2 : List L2Sector
  /-- Poisoned 4 KiB pages of physical memory (R279). -/
  poison : List Nat
  perfs : List Perf
  windows : List Window
  /-- Free values taken so far (the model's own; notes/assumptions/3.md). -/
  free : Nat
  pk : Pack
  deriving DecidableEq, Repr

/-- Why the model stops. -/
inductive Fault where
  /-- Raised by `exec` for an input that no outside party can present: a port, channel, die, queue or interface number
  outside its range, or a flit without 56 payload bytes or with more than 48 data bytes (R313, R316, R330). Safe: the hardware has no such input. -/
  | noSuchInput
  deriving DecidableEq, Repr

/-- Instructions without a meaning. -/
inductive Refusal where
  /-- Answered by an arm of `exec` whose instruction has no meaning yet. Safe. -/
  | notModelled (mnemonic : String)
  deriving DecidableEq, Repr

/-- The module after reset: no context runs, every register at the value of `core0`, memory with nothing listed, every
bank in SPAD mode (R238), L2 and poison clear (R268, R279), the package as `pack0`. -/
def State.reset : State where
  beat := 0
  core := core0 0 0
  others := []
  turned := []
  inputs := []
  mem := ⟨[], []⟩
  banks := []
  blocks := []
  l2 := []
  poison := []
  perfs := []
  windows := []
  free := 0
  pk := pack0

end Sys2Proof.Machine
end

