-- ==== Sys2Proof/Machine/Ops.lean ====
section
/-! DEFINITION. The named operations over registers, special registers and memory bytes; delivery of results (R20, R74);
taking a trap (R228) and returning from one (R230). -/
namespace Sys2Proof.Machine

/-! ## Every core of the module -/

def State.allCores (s : State) : List Core := s.core :: s.others
/-- Change the core in a physical place. -/
def State.mapCore (s : State) (clus core : Nat) (f : Core → Core) : State :=
  let g := fun (c : Core) => if c.pclus == clus && c.pcore == core then f c else c
  { s with core := g s.core, others := s.others.map g }
def State.mapCores (s : State) (f : Core → Core) : State := { s with core := f s.core, others := s.others.map f }

/-! ## Registers (R12) -/

/-- The number of a register specifier (R39). -/
def regN (x : BitVec 8) : BitVec 6 := x.extractLsb' 0 6
def predN (x : BitVec 8) : BitVec 4 := x.extractLsb' 0 4
def tileN (x : BitVec 8) : BitVec 3 := x.extractLsb' 0 3

/-- R12: s0 reads as zero. -/
def Arch.rs (a : Arch) (n : BitVec 6) : Word64 := if n == 0#6 then 0#64 else a.s.get n.toFin
def Arch.rv (a : Arch) (n : BitVec 6) : Lanes := a.v.get n.toFin
/-- R12: p0 reads as all ones. -/
def Arch.rp (a : Arch) (n : BitVec 4) : Word32 := if n == 0#4 then 0xFFFFFFFF#32 else a.p.get n.toFin
def Arch.rt (a : Arch) (n : BitVec 3) : Tile := a.tiles.get n.toFin

/-- R12: a write to s0 is dropped. -/
def Arch.ws (a : Arch) (n : BitVec 6) (x : Word64) (taint : Taint) : Arch :=
  if n == 0#6 then a else { a with s := a.s.set n.toFin x, ts := a.ts.set n.toFin taint }
def Arch.wv (a : Arch) (n : BitVec 6) (x : Lanes) (taint : Taint) : Arch :=
  { a with v := a.v.set n.toFin x, tv := a.tv.set n.toFin taint }
/-- R12: a write to p0 is dropped. -/
def Arch.wp (a : Arch) (n : BitVec 4) (x : Word32) : Arch :=
  if n == 0#4 then a else { a with p := a.p.set n.toFin x }

/-- Lane `k` of a vector (R13). -/
def laneAt (x : Lanes) (k : Nat) : Word32 := x.toList.getD k 0#32
/-- Lanes of `x` where the mask is set, of `old` elsewhere (R20, R111). -/
def mergeLanes (mask : Word32) (old x : Lanes) : Lanes :=
  vecOf 32 (fun k => if mask.getLsbD k then laneAt x k else laneAt old k)
def mergeBits (mask old x : Word32) : Word32 := (x &&& mask) ||| (old &&& ~~~mask)

/-- Element (i, j) of a tile (R13). -/
def tileAt (t : Tile) (i j : Nat) : Af48 := (t.toList.getD i (Vector.replicate 32 0#48)).toList.getD j 0#48
def tileOf (f : Nat → Nat → Af48) : Tile := vecOf 32 (fun i => vecOf 32 (fun j => f i j))

/-- Elements of `x` in the rows and columns of a write, of `old` elsewhere (R142). -/
def mergeTile (rows : List (Nat × Word32)) (old x : Tile) : Tile :=
  tileOf (fun i j =>
    match rows.find? (fun r => r.1 == i) with
    | some r => if r.2.getLsbD j then tileAt x i j else tileAt old i j
    | none => tileAt old i j)

/-! ## Special registers (R104, R105) -/

def flag64 (b : Bool) (n : Nat) : Nat := if b then 2 ^ n else 0

/-- FLAGS (R72). -/
def Core.flags (c : Core) : Word64 := BitVec.ofNat 64 (c.a.cond.toNat * 256 + c.sticky.toNat)
/-- TRAPC (R225). -/
def Core.trapc (c : Core) : Word64 :=
  BitVec.ofNat 64 (c.hvec * 2 ^ 32 + flag64 c.hm 15 + flag64 c.rb 14 + flag64 c.mult 13 + c.kind * 256 + c.cause)
/-- DICTSEL (R163). -/
def Core.dictsel (c : Core) : Word64 :=
  BitVec.ofNat 64 (c.ldref * 2 ^ 32 + c.ldidx * 2 ^ 24 + c.ldcode * 2 ^ 20 + c.dstat * 2 ^ 16 + c.dsidx * 2 ^ 8 +
    flag64 (c.dld.isSome) 3 + flag64 c.lbank 2 + flag64 c.sel 1 + flag64 c.act 0)
/-- Entries in use in the store-withholding buffer (R218, R220). -/
def heldCount (ps : List Perf) : Nat := ps.foldl (fun n p => n + p.n) 0
/-- CKPTS (R218). -/
def Core.ckpts (c : Core) : Word64 :=
  BitVec.ofNat 64 (c.cpc * 2 ^ 32 + heldCount c.held * 2 ^ 16 + flag64 c.gm 0)

/-- What GETS reads of a listed special register (R103, R104). -/
def Core.special (c : Core) (beat : Nat) (idx : Nat) : Word64 :=
  match idx with
  | 0x00 => BitVec.ofNat 64 beat
  | 0x01 => c.rankid
  | 0x02 => BitVec.ofNat 64 c.coreid
  | 0x03 => c.flags
  | 0x04 => c.a.fctl
  | 0x05 => c.a.mxc
  | 0x06 => c.trapc
  | 0x07 => BitVec.ofNat 64 c.trappc
  | 0x08 => c.trapaux
  | 0x09 => c.a.fsw
  | 0x0A => c.a.stklo
  | 0x0B => c.a.rngt
  | 0x0C => c.a.rngc
  | 0x0D => c.a.rngs
  | 0x0E => c.dictsel
  | 0x0F => c.dictv
  | 0x10 => c.a.adjmode.setWidth 64
  | 0x11 => c.a.adjoff
  | 0x12 => c.a.tapeb
  | 0x13 => c.a.tapel
  | 0x14 => c.a.tapep
  | 0x15 => c.lath
  | 0x16 => c.budget.setWidth 64
  | 0x17 => c.ckpts
  | 0x18 => BitVec.ofNat 64 c.yleft
  | 0x19 => c.phase
  | 0x1A => c.step
  | 0x1B => c.a.lc.get 0
  | 0x1C => c.a.lc.get 1
  | 0x1D => c.a.lc.get 2
  | 0x1E => c.a.lc.get 3
  | 0x1F => c.a.lstg
  | _ => 0#64

/-- Fields of LSTG (R233). -/
def lstgEn (x : Word64) : Nat := bits x.toNat 16 8
def lstgDrain (x : Word64) : Bool := x.getLsbD 15
def lstgAct (x : Word64) : Bool := x.getLsbD 14
def lstgLoop (x : Word64) : Nat := bits x.toNat 12 2
def lstgN (x : Word64) : Nat := bits x.toNat 8 3 + 1
def lstgPb (x : Word64) : Nat := bits x.toNat 0 4
def lstgMake (en : Nat) (drain act : Bool) (loop n pb : Nat) : Word64 :=
  BitVec.ofNat 64 (en * 2 ^ 16 + flag64 drain 15 + flag64 act 14 + loop * 2 ^ 12 + (n - 1) * 2 ^ 8 + pb)

/-- R96, R97, R233: loop `k` ends. -/
def Arch.endLoop (a : Arch) (k : Nat) : Arch :=
  let l := (a.loops.toList.getD k ⟨0, 0, false⟩)
  let a := { a with
    loops := a.loops.setIfInBounds k { l with active := false }
    lc := if l.active then a.lc.setIfInBounds k 0#64 else a.lc }
  if lstgAct a.lstg && lstgLoop a.lstg == k then
    { a with lstg := a.lstg &&& ~~~(0x4000#64) } else a

/-- SETS to LCk (R97): zero ends an active loop; any value is stored. -/
def Arch.setLc (a : Arch) (k : Nat) (x : Word64) : Arch :=
  let a := if x == 0#64 then a.endLoop k else a
  { a with lc := a.lc.setIfInBounds k x }

/-- The bits of a special register that SETS writes (R9, R72, R73, R75, R176, R179, R212, R218, R225, R233, R236). -/
def specMask (idx : Nat) : Word64 :=
  match idx with
  | 0x03 => 0xFFF#64
  | 0x04 => 0x3FF#64
  | 0x06 => 0xFFFFFFFF00000000#64
  | 0x07 => 0xFFFFFFFF#64
  | 0x09 => 0xFFFFFFFFFFFFFF7F#64
  | 0x0A => 0x00FFFFFFFFFFFF80#64
  | 0x0B => 0x00FFFFFFFFFFF000#64
  | 0x11 => 0x00FFFFFFFFFFF000#64
  | 0x12 => 0x00FFFFFFFFFFFFF0#64
  | 0x13 => 0x00FFFFFFFFFFFFF0#64
  | 0x17 => 1#64
  | 0x1F => 0xF#64
  | _ => 0xFFFFFFFFFFFFFFFF#64

/-- The write of SETS as it is delivered at `beat` (R103). -/
def Core.setSpecial (c : Core) (beat : Nat) (idx : Nat) (y : Word64) : Core :=
  let x := y &&& specMask idx
  match idx with
  | 0x03 => { c with sticky := x.setWidth 8, a := { c.a with cond := (x >>> 8).setWidth 4 } }
  | 0x04 => { c with a := { c.a with fctl := x } }
  | 0x05 => { c with a := { c.a with mxc := x } }
  | 0x06 => { c with hvec := x.toNat / 2 ^ 32 }
  | 0x07 => { c with trappc := x.toNat, pcWritten := true }
  | 0x08 => { c with trapaux := x }
  | 0x09 => { c with a := { c.a with fsw := x } }
  | 0x0A => { c with a := { c.a with stklo := x } }
  | 0x0B => { c with a := { c.a with rngt := x }, tombLoad := some (beat + 32), tombGot := [], tombBad := [] }
  | 0x0C => { c with a := { c.a with rngc := x } }
  | 0x0D => { c with a := { c.a with rngs := x } }
  | 0x11 => { c with a := { c.a with adjoff := x } }
  | 0x12 => { c with a := { c.a with tapeb := x } }
  | 0x13 => { c with a := { c.a with tapel := x } }
  | 0x17 => { c with gm := x.getLsbD 0 }
  | 0x1B => { c with a := c.a.setLc 0 x }
  | 0x1C => { c with a := c.a.setLc 1 x }
  | 0x1D => { c with a := c.a.setLc 2 x }
  | 0x1E => { c with a := c.a.setLc 3 x }
  | 0x1F => { c with a := { c.a with lstg := (c.a.lstg &&& ~~~(0xF#64)) ||| x } }
  | _ => c

/-- R135, R136: one counter of MXC, saturating. -/
def mxcBump (x : Word64) (lo : Nat) (on : Bool) : Word64 :=
  if on && bits x.toNat lo 16 < 0xFFFF then x + BitVec.ofNat 64 (2 ^ lo) else x

/-! ## Delivery (R20, R29, R74) -/

/-- The dictionary slot of an entry: bank B follows bank A. -/
def dictIx (bank : Bool) (n : Nat) : Nat := (if bank then 256 else 0) + n

/-- One write of a delivery at `beat`. Engine steps become visible as whole tiles in engine order. A step that becomes visible before an
earlier step of its tile (a MOP right after a MOPV) shows that step with it, and the later visible beat of the earlier one changes nothing:
R141 does not say what the A slot sees between the two (DESIGN CHOICE, log 33). -/
def Core.write (c : Core) (beat : Nat) : Wr → Core
  | .s n x on taint => if on then { c with a := c.a.ws n x taint } else c
  | .v n mask x taint => { c with a := c.a.wv n (mergeLanes mask (c.a.rv n) x) (if mask == 0#32 then c.a.tv.get n.toFin else taint) }
  | .p n mask x => { c with a := c.a.wp n (mergeBits mask (c.a.rp n) x) }
  | .spec idx x => c.setSpecial beat idx.toNat x
  | .cond on x => if on then { c with a := { c.a with cond := x } } else c
  | .tile n rows x => { c with
      a := { c.a with tiles := c.a.tiles.set n.toFin (mergeTile rows (c.a.rt n) x) }
      eng := c.eng.set n.toFin (mergeTile rows (c.eng.get n.toFin) x) }
  | .vis n order x =>
    if c.visOrder.get n.toFin < order then
      { c with a := { c.a with tiles := c.a.tiles.set n.toFin x }, visOrder := c.visOrder.set n.toFin order }
    else c
  | .mxc i o n x => { c with a := { c.a with
      mxc := mxcBump (mxcBump (mxcBump (mxcBump c.a.mxc 48 i) 32 o) 16 n) 0 x } }
  | .lc k x => { c with a := { c.a with lc := c.a.lc.set k.toFin x } }
  | .dset bank n t status =>
    { c with
      dict := if n == 0#8 then c.dict else c.dict.setIfInBounds (dictIx bank n.toNat) t
      dstat := status
      dsidx := n.toNat }
  | .dsel bank => { c with sel := bank }
  | .unf x y q => { c with a := { c.a with unf0 := x, unf1 := y, unfq := q } }
  | .crange ch lo hi => if ch == 0 then { c with chan0 := { c.chan0 with rlo := lo, rhi := hi, wm := lo, wrote := [] } }
      else { c with chan1 := { c.chan1 with rlo := lo, rhi := hi, wm := lo, wrote := [] } }
  | .ctag ch tag => if ch == 0 then { c with chan0 := { c.chan0 with tag := tag } } else { c with chan1 := { c.chan1 with tag := tag } }
  | .cqfmt _ _ => c
  | .tapeClear => { c with a := { c.a with tapep := 0#64, tape := [], tapeHome := 0 } }

/-- A SETS is written before the ORs and increments of its beat (R29). -/
def Wr.early : Wr → Bool
  | .spec _ _ => true
  | .lc _ _ => true
  | _ => false

/-- The enabled flags among those raised (R73, R74). -/
def Core.trapping (c : Core) (fl : Flags8) : Bool := (c.a.fctl.setWidth 8 &&& fl) != 0#8

/-- TRAPAUX of an arithmetic trap (R74). A result of variable latency can come later than DIST can say: DIST is a free value then. -/
def auxArith (dist slot : Nat) (fl : Flags8) : Word64 :=
  let d := if dist < 256 then dist else (Config.lateDist dist).toNat
  BitVec.ofNat 64 (d * 2 ^ 16 + slot * 2 ^ 12 + fl.toNat)

/-- Record a trap (R228): the first one is entered; a later delivery fault sets MULT. -/
def Core.raise (c : Core) (cause kind : Nat) (pc : Nat) (aux : Word64) (beat : Nat) : Core :=
  match c.trap with
  | none => { c with trap := some ⟨cause, kind, pc, aux, beat, false⟩ }
  | some r => { c with trap := some { r with mult := true } }

/-- R209, R262, R272: an acquire invalidates the L1 at .clus or wider, and sets ACQ at .pkg or wider. -/
def Core.acquire (c : Core) (beat : Nat) (scope : Nat) : Core :=
  { c with
    l1 := if scope ≥ 1 then [] else c.l1
    acq := if scope ≥ 3 then max c.acq beat else c.acq }

/-- Deliver one result that neither faults nor raises an enabled flag. -/
def Core.land (c : Core) (beat : Nat) (f : Flight) : Core :=
  let c := f.ws.foldl (fun c w => if w.early then c else c.write beat w) c
  match f.acq with
  | some sc => c.acquire beat sc
  | none => c

/-- The flight in the lowest slot position, which a trap report names (R74). Of two in one slot position, which R74 does not rank, it is
the one earlier in the list of flights (DESIGN CHOICE, log 12). -/
def lowestSlot (fs : List Flight) : Option Flight :=
  fs.foldl (fun m f => match m with | none => some f | some g => if f.slot < g.slot then some f else some g) none

/-- All results due at `beat` are written, and their flags raised (R20, R29, R74, R217). Of several faults of the beat the one in the
lowest slot is entered, and a further one sets MULT; enabled flags of one beat make one fault (R74, R228). -/
def Core.deliver (c : Core) (beat : Nat) : Core :=
  let now := c.flights.filter (fun f => decide (f.due ≤ beat))
  let c : Core := { c with
    flights := c.flights.filter (fun f => !decide (f.due ≤ beat))
    lastDone := beat
    landed := now.flatMap (fun f => f.ws.filterMap (fun w => match w with
      | .p n _ _ => some (beat, 0x80 + n.toNat, f.issue, f.slot)
      | _ => none)) }
  let c := now.foldl (fun c f => f.ws.foldl (fun c w => if w.early then c.write beat w else c) c) c
  let c := { c with sticky := now.foldl (fun x f => if f.fault.isSome then x else x ||| f.fl) c.sticky }
  let bad := now.filter (fun f => f.fault.isSome || c.trapping f.fl)
  let good := now.filter (fun f => !(f.fault.isSome || c.trapping f.fl))
  let c := good.foldl (fun c f => c.land beat f) c
  match lowestSlot bad with
  | none => c
  | some f =>
    let fl := bad.foldl (fun x g => if g.fault.isSome then x else x ||| g.fl) 0#8
    let r : Nat × Word64 := f.fault.getD (0x0F, auxArith (beat - f.issue) f.slot fl)
    let c := c.raise r.1 1 c.pc r.2 beat
    let n := (bad.filter (fun g => g.fault.isSome)).length + (if bad.all (fun g => g.fault.isSome) then 0 else 1)
    if n > 1 then c.raise r.1 1 c.pc r.2 beat else c

/-! ## Dictionary changes (R165) -/

def Core.apply (c : Core) : DChange → Core
  | .entry b n t =>
    { c with dictX := if n == 0#8 then c.dictX else c.dictX.setIfInBounds (dictIx b n.toNat) t, dictv := c.dictv + 1#64 }
  | .bank b => { c with act := b, dictv := c.dictv + 1#64 }
  | .image b ts =>
    { c with dictX := vecOf 512 (fun i => if decide (dictIx b 1 ≤ i ∧ i < dictIx b 256) then ts.getD (i - dictIx b 0) none
        else c.dictX.toList.getD i none), dictv := c.dictv + 1#64 }

/-- Changes that bundle number `k` sees become visible, in the order in which they were made (R165). -/
def Core.applyChanges (c : Core) (k : Nat) : Core :=
  let go := c.changes.filter (fun x => decide (x.1 ≤ k))
  let c := { c with changes := c.changes.filter (fun x => !decide (x.1 ≤ k)) }
  go.foldl (fun c x => c.apply x.2) c

/-- Every pending change becomes visible, as an FFENCE would make it (R167). -/
def Core.settle (c : Core) : Core :=
  let go := c.changes
  go.foldl (fun c x => c.apply x.2) { c with changes := [] }

/-! ## Checkpoints (R219, R222) -/

/-- The budgeted vector registers (R17, R18). -/
def Core.vregs (c : Core) : Nat := (c.budget.toNat + 1) * 16

/-- The shadow set takes the state; CPC the bundle; the successor is recorded (R219, R228). -/
def Core.checkpoint (c : Core) (a : Arch) (pc : Nat) (next : Frame) : Core :=
  { c with shadow := a, cpc := pc, ckNext := next, held := [] }

/-- Rollback: held stores are discarded, with their outcomes, and the shadow set restored (R222); vector registers above the
budget are not part of it. A drain that began after the checkpoint is asked for again (R234). -/
def Core.rollback (c : Core) : Core :=
  let a := { c.shadow with v := vecOf 64 (fun i => if i < c.vregs then c.shadow.v.toList.getD i lanes0 else c.a.v.toList.getD i lanes0) }
  let goes := lstgDrain c.shadow.lstg
  { c with
    held := []
    reqs := c.reqs.filter (fun r => !r.held)
    outst := c.outst.filter (fun x => !c.held.any (fun p => p.id == x.id))
    a := a
    eng := a.tiles
    urgent := c.urgent || (c.drain.isSome && !goes)
    drain := if goes then c.drain else none }

/-! ## Taking a trap and returning (R227 to R230) -/

/-- R227: causes that go to firmware whatever the mode. -/
def firmwareCause (c : Core) (cause : Nat) : Bool :=
  cause == 0x12 || cause == 0x16 || (cause == 0x06 && c.timetabled)

/-- R227, R229: does the trap take the handler route? -/
def Core.handlerRoute (c : Core) (cause : Nat) : Bool :=
  !c.hm && !firmwareCause c cause && decide (1 ≤ c.hvec ∧ c.hvec < c.ncode)

/-- R222: does the trap roll back? -/
def Core.rollsBack (c : Core) (kind : Nat) : Bool := c.gm && !c.hm && kind != 2

/-- Steps 3 and 4 of R228 on the core alone: dictionary, rollback or checkpoint. -/
def Core.unwind (c : Core) (r : TrapReq) : Core :=
  let c := c.settle
  if c.rollsBack r.kind then c.rollback
  else if c.gm && !c.hm then c.checkpoint c.a r.pc ⟨c.pc, c.a.pend, c.waits⟩
  else c

/-- The frame of R228 step 5, from the core before the unwinding. -/
def Core.frameOf (c : Core) (r : TrapReq) : Frame :=
  if c.rollsBack r.kind then c.ckNext
  else if r.kind == 2 then ⟨c.pc, c.a.pend, c.waits⟩
  else ⟨r.pc, c.a.pend, c.waits⟩

/-- R228: the core enters its handler at `beat`: TRAPC, TRAPPC, TRAPAUX and the trap frame are written, HM is set, the
pending list is empty and the next bundle is the one at HVEC. -/
def Core.enter (c : Core) (r : TrapReq) (beat : Nat) : Core :=
  let f := c.frameOf r
  let rb := c.rollsBack r.kind
  let c := c.unwind r
  { c with
    cause := r.cause, kind := r.kind, rb := rb, mult := r.mult, trappc := r.pc, trapaux := r.aux
    frame := f, hm := true, pcWritten := false, trap := none, waits := []
    a := { c.a with pend := [] }
    pc := c.hvec, readyAt := beat }

/-- R230: HM is cleared, the handler's redirects are discarded, and the next bundle is TRAPPC if it was written since
entry, else the frame's NPC with its list. A wait that the trap interrupted goes on (R101). -/
def Core.leave (c : Core) : Core :=
  { c with
    hm := false
    waits := c.waits ++ c.frame.waits
    pc := if c.pcWritten then c.trappc else c.frame.npc
    a := { c.a with pend := if c.pcWritten then [] else c.frame.pend } }

end Sys2Proof.Machine
end

