-- ==== Sys2Proof/Machine/Operands.lean ====
section
/-! DEFINITION. Operand forms: scalar and vector sources, literals, predicates and result writes (R43, R80, R81, R109 to
R112), addresses (R192), taint of a result (R206). -/
namespace Sys2Proof.Machine

/-! ## Literals (R43) -/

def litS (o : TOp) : Word64 := o.lit.signExtend 64
def litU (o : TOp) : Word64 := o.lit.setWidth 64
/-- LK 4: the F32 pattern of an f32hi literal. -/
def litF32 (o : TOp) : Nat := o.lit.toNat * 1024
/-- LK 5: the BF16 pattern of a literal. -/
def litBf16 (o : TOp) : Nat := bits o.lit.toNat 0 16

/-- The second source of a scalar operation: a literal or SB (R43, R80). -/
def srcB (a : Arch) (o : TOp) : Word64 :=
  match o.lk.toNat with
  | 1 => litS o
  | 2 => litU o
  | _ => a.rs (regN o.sb)
def srcA (a : Arch) (o : TOp) : Word64 := a.rs (regN o.sa)
def srcD (a : Arch) (o : TOp) : Word64 := a.rs (regN o.dst)

/-- R70, R73: DAZ applies to a forward-class operation. -/
def dazOn (a : Arch) (grad : Bool) : Bool := a.fctl.getLsbD 9 && !grad
def ftzOn (a : Arch) : Bool := a.fctl.getLsbD 8

/-- A float source register (R80, R70). -/
def fltOf (a : Arch) (t : Ty) (grad : Bool) (x : Word64) : XRes := t.decodeDaz (dazOn a grad) x.toNat
/-- The second source of a scalar float operation; a float literal enters as its exact value (R80). -/
def fltB (a : Arch) (o : TOp) (grad : Bool) : XRes :=
  match o.lk.toNat with
  | 4 => ⟨Bin.f32.decode (litF32 o), 0#8⟩
  | 5 => ⟨Bin.bf16.decode (litBf16 o), 0#8⟩
  | _ => fltOf a o.t grad (a.rs (regN o.sb))

/-! ## Results of scalar operations (R80) -/

/-- An integer reduced modulo 2^w and extended by the type (R80). -/
def intRes (t : Ty) (x : Int) : Word64 :=
  if t.signed then BitVec.ofInt 64 (signedOf t.width (wrap t.width x)) else BitVec.ofNat 64 (wrap t.width x)

/-- R10, R71, R85: an integer clamped to the type, with SAT when it changes. -/
def satRes (t : Ty) (x : Int) : Word64 × Flags8 :=
  let y := clampInt x t.lo t.hi
  (intRes t y, flagIf (y != x) fSAT)

/-! ## Predicates (R81, R111) -/

def predReg (o : TOp) : BitVec 4 := o.pr.extractLsb' 1 4
def predNeg (o : TOp) : Bool := o.pr.getLsbD 5
def predZero (o : TOp) : Bool := o.pr.getLsbD 0
/-- The active lanes (R111). -/
def activeMask (a : Arch) (o : TOp) : Word32 :=
  if predNeg o then ~~~(a.rp (predReg o)) else a.rp (predReg o)
/-- R81: bit 0 governs a scalar operation. -/
def activeS (a : Arch) (o : TOp) : Bool := (activeMask a o).getLsbD 0
/-- R111: under .c32 bit 2k governs both parts of element k. -/
def pairMask (m : Word32) : Word32 :=
  BitVec.ofNat 32 ((List.range 16).foldl (fun x k => if m.getLsbD (2 * k) then x + 3 * 4 ^ k else x) 0)
def laneMask (a : Arch) (o : TOp) : Word32 := if o.t == .c32 then pairMask (activeMask a o) else activeMask a o

/-! ## Taint (R206) -/

def taintOf (a : Arch) (x : BitVec 8) : Taint :=
  if isS x then a.ts.get (regN x).toFin else if isV x then a.tv.get (regN x).toFin else 0
def widest (l : List Taint) : Taint := l.foldl max 0

/-- The write of a scalar result under R81. -/
def wrS (a : Arch) (o : TOp) (x : Word64) (taint : Taint) : Wr :=
  if activeS a o then .s (regN o.dst) x true taint
  else if predZero o then .s (regN o.dst) 0#64 true taint
  else .s (regN o.dst) x false taint

/-- The write of a vector result under R111. -/
def wrV (a : Arch) (o : TOp) (dst : BitVec 6) (f : Nat → Word32) (taint : Taint) : Wr :=
  let m := laneMask a o
  if predZero o then .v dst 0xFFFFFFFF#32 (vecOf 32 (fun k => if m.getLsbD k then f k else 0#32)) taint
  else .v dst m (vecOf 32 f) taint

/-! ## Vector sources (R109, R110) -/

/-- The bits of b for lane `k` (R110). -/
def vecB (a : Arch) (o : TOp) (k : Nat) : Word32 :=
  match o.lk.toNat with
  | 1 => o.lit.signExtend 32
  | 2 => o.lit.setWidth 32
  | 4 => BitVec.ofNat 32 (litF32 o)
  | 5 => BitVec.ofNat 32 (litBf16 o)
  | _ => if isV o.sb then laneAt (a.rv (regN o.sb)) k else (a.rs (regN o.sb)).setWidth 32
def vecA (a : Arch) (o : TOp) (k : Nat) : Word32 := laneAt (a.rv (regN o.sa)) k
def vecD (a : Arch) (o : TOp) (k : Nat) : Word32 := laneAt (a.rv (regN o.dst)) k

/-- A float lane under DAZ (R109, R112). -/
def vfltOf (a : Arch) (t : Ty) (grad : Bool) (x : Word32) : XRes := t.decodeDaz (dazOn a grad) x.toNat
def vfltB (a : Arch) (o : TOp) (grad : Bool) (k : Nat) : XRes :=
  match o.lk.toNat with
  | 4 => ⟨Bin.f32.decode (litF32 o), 0#8⟩
  | 5 => ⟨Bin.bf16.decode (litBf16 o), 0#8⟩
  | _ => vfltOf a o.t grad (vecB a o k)

/-- An integer result of a lane, extended by the type to 32 bits (R109). -/
def laneRes (t : Ty) (x : Int) : Word32 := (intRes t x).setWidth 32

/-- Flags of the active lanes, combined (R74, R111). -/
def laneFlags (m : Word32) (f : Nat → Flags8) : Flags8 :=
  (List.range 32).foldl (fun x k => if m.getLsbD k then x ||| f k else x) 0#8

/-! ## Addresses (R192) -/

/-- sa + b, exactly. -/
def addrOf (x b : Word64) : Int := (x.toNat : Int) + b.toInt

end Sys2Proof.Machine
end

