-- ==== Sys2Proof/Machine/Flags.lean ====
section
/-! DEFINITION. Condition codes, compares and classes, and the flags that results raise (R85, R90, R93, R117). -/
namespace Sys2Proof.Machine

/-- FLAGS.COND from EQ, LT, LTU and UN (R85). -/
def condBits (eq lt ltu un : Bool) : BitVec 4 :=
  BitVec.ofNat 4 (flag64 eq 0 + flag64 lt 1 + flag64 ltu 2 + flag64 un 3)
def cEQ (c : BitVec 4) : Bool := c.getLsbD 0
def cLT (c : BitVec 4) : Bool := c.getLsbD 1
def cLTU (c : BitVec 4) : Bool := c.getLsbD 2
def cUN (c : BitVec 4) : Bool := c.getLsbD 3

/-- The SEL test of a condition code (R85). -/
def selTest (cc : Nat) (c : BitVec 4) : Bool :=
  match cc with
  | 0 => cEQ c
  | 1 => !cEQ c
  | 2 => cLT c
  | 3 => !cLT c && !cUN c
  | 4 => cLTU c
  | 5 => !cLTU c && !cUN c
  | 6 => cUN c
  | _ => !cUN c

/-- The BCMP test of a condition code (R85). -/
def bcmpTest (cc : Nat) (t : Ty) (a b : Word64) : Bool :=
  let x := t.intOf a.toNat
  let y := t.intOf b.toNat
  let ux := a.toNat % 2 ^ t.width
  let uy := b.toNat % 2 ^ t.width
  match cc with
  | 0 => x == y
  | 1 => x != y
  | 2 => decide (x < y)
  | 3 => decide (x ≥ y)
  | 4 => decide (ux < uy)
  | _ => decide (ux ≥ uy)

/-- The pc condition of a predicate (R92). -/
def predTest (pc : Nat) (p : Word32) : Bool :=
  match pc with
  | 0 => p != 0#32
  | 1 => p == 0xFFFFFFFF#32
  | 2 => p == 0#32
  | _ => p.getLsbD 0

/-- CMP of R85: the result, reduced as R80 has it, and COND. -/
def cmpInt (t : Ty) (a b : Word64) : Word64 × BitVec 4 :=
  let x := t.intOf a.toNat
  let y := t.intOf b.toNat
  let ltu := decide (a.toNat % 2 ^ t.width < b.toNat % 2 ^ t.width)
  (intRes t (if x < y then -1 else if x == y then 0 else 1), condBits (x == y) (decide (x < y)) ltu false)

/-- FCMP of R90: result and COND. -/
def cmpFlt (a b : XVal) : Word64 × BitVec 4 :=
  match a.cmp b with
  | none => (2#64, condBits false false false true)
  | some .lt => (BitVec.ofInt 64 (-1), condBits false true true false)
  | some .eq => (0#64, condBits true false false false)
  | some .gt => (1#64, condBits false false false false)

/-- VCMP float test (R117). -/
def vcmpFlt (cc : Nat) (a b : XVal) : Bool :=
  match cc, a.cmp b with
  | 0, o => o == some .eq
  | 1, o => !(o == some .eq)
  | 2, o => o == some .lt
  | 3, o => o == some .lt || o == some .eq
  | 4, o => o == some .gt
  | 5, o => o == some .gt || o == some .eq
  | 6, o => o.isNone
  | _, o => o.isSome

/-- VCMP integer test (R117). -/
def vcmpInt (cc : Nat) (x y : Int) : Bool :=
  match cc with
  | 0 => x == y
  | 1 => x != y
  | 2 => decide (x < y)
  | 3 => decide (x ≤ y)
  | 4 => decide (x > y)
  | _ => decide (x ≥ y)

/-- FCLASS of R90 on a binary pattern. -/
def classBit (b : Bin) (x : Nat) : Nat :=
  let neg := x.testBit (b.p + b.ebits)
  match b.decode x with
  | .nan s => if s then 8 else 9
  | .inf n => if n then 0 else 7
  | .fin d =>
    if d.m == 0 then (if neg then 3 else 4)
    else if b.isSub x then (if neg then 2 else 5)
    else (if neg then 1 else 6)

/-- FMIN and FMAX of R90 on patterns of a type: the chosen pattern and the flags. `mx` for the larger. -/
def fminmax (t : Ty) (mx : Bool) (a b : XRes) (pa pb : Nat) : Nat × Flags8 :=
  let nanPat := if t == .bf16 then Bin.bf16.nanPat else Bin.f32.nanPat
  let iv := flagIf (a.v.isSig || b.v.isSig) fIV
  let fl := a.fl ||| b.fl ||| iv
  if a.v.isNan && b.v.isNan then (nanPat, fl)
  else if a.v.isNan then (pb, fl)
  else if b.v.isNan then (pa, fl)
  else
    let lt := a.v.ltZ b.v
    (if lt != mx then pa else if b.v.ltZ a.v then pb else (if mx then pb else pa), fl)

end Sys2Proof.Machine
end

