-- ==== Sys2Proof/Machine/Issue.lean ====
section
/-! DEFINITION. Issue of a bundle: draws (R33, R77, R79), waits (R22, R26, R166), the register budget (R17), write
collisions (R28 to R30, R142, R256), the order of causes (R392), the commit of the operations' effects, the sequencer
(R24), hardware loops (R232, R233). -/
namespace Sys2Proof.Machine

/-! ## What an operation does -/

/-- A taken transfer (R24, R97). -/
structure Taken where
  target : Nat
  ends : Bool
  deriving DecidableEq, Repr

/-- A loop set-up that passed its checks (R96, R233): loop, passes, bounds, stages when it is a LOOPX. -/
structure LoopSet where
  k : Nat
  passes : Nat
  st : Nat
  en : Nat
  stages : Option Nat
  deriving DecidableEq, Repr

/-- The effects of one operation. -/
structure Eff where
  flights : List Flight := []
  steps : List EngStep := []
  perfs : List Perf := []
  reqs : List Req := []
  wins : List Window := []
  post : Core → Core := id
  spost : State → State := id
  final : Core → Core := id
  taken : Option Taken := none
  loop : Option LoopSet := none
  after : Option (Nat × Word64) := none
  ckpt : Bool := false
  /-- The checkpoint is that of a BUFSWAP (R265). -/
  swap : Bool := false
  changes : List DChange := []
  ffence : Bool := false
  waits : List Wait := []
  /-- Tape bytes that it pushes or pops (R178, R182). -/
  tape : Nat := 0
  /-- A fault that depends on the stores of its bundle (R149, R158): cause and TRAPAUX. -/
  late : List Perf → Option (Nat × Word64) := fun _ => none

/-- What the meaning of an operation answers: its effects, a fault, a compare mismatch, a wait that is a timing fault in
timetabled code (reason and data of R393), or a wait that is not. -/
inductive Out where
  | ok (e : Eff)
  | fault (cause : Nat) (aux : Word64)
  | mismatch (aux : Word64)
  | wait (reason data : Nat)
  | hold

/-- What an operation sees at issue: the state, the lanes of its draw, and the tape bytes that lower slots of its bundle push or
pop (R178, R182). -/
structure Env where
  s : State
  lanes : Lanes
  tp : Nat

def Env.c (e : Env) : Core := e.s.core
def Env.a (e : Env) : Arch := e.s.core.a
def Env.t (e : Env) : Nat := e.s.beat
/-- The latency in use of a class (R26). -/
def Env.lat (e : Env) (l : LatClass) : Nat := latInUse e.s.core.lath.toNat l
/-- How a rounding operation rounds (R67, R70, R112). -/
def Env.rnd (e : Env) (o : TOp) (lane : Nat) : Rnd := ⟨o.mode, o.grad, laneAt e.lanes lane, ftzOn e.a⟩

/-- An operation in its bundle with its meaning. -/
structure SOp where
  opc : Nat
  o : TOp
  run : Env → Out

/-! ## Draws (R77, R79) -/

/-- R77: the 32 lanes of the draw for a counter value. -/
def drawLanes (tomb : Vector (BitVec 1024) 32) (ctr : Word64) : Lanes :=
  let a := bits ctr.toNat 0 5
  let b0 := bits ctr.toNat 5 5
  let b := if b0 == a then a ^^^ 1 else b0
  let sh := bits ctr.toNat 10 10
  let row := fun (i : Nat) => tomb.toList.getD i 0#1024
  let out := row a ^^^ (row b).rotateLeft sh
  vecOf 32 (fun k => out.extractLsb' (32 * k) 32)

/-- R79: does the operation draw with RNGS? -/
def drawsS (opc : Nat) (o : TOp) : Bool :=
  (match ruleOf opc with | some r => r.rounds | none => false) && o.mdN / 8 == 1
/-- R132: VRAND draws with RNGC. -/
def drawsC (opc : Nat) : Bool := opc == 0x69

/-- R32: two operations of V0 and V1 that form a duplicate pair. -/
def dupPair (x y : SOp) : Bool :=
  x.o.slot == 1 && y.o.slot == 2 && x.opc == y.opc &&
  { y.o with slot := 1, dst := x.o.dst, lit := if x.o.lk == 0#4 then x.o.lit else y.o.lit } == x.o

/-- Counter offsets of the drawing operations in ascending slot position (R33), a duplicate pair once (R32). -/
def drawPlan (draws : SOp → Bool) : Nat → Option SOp → List SOp → List Nat × Nat
  | n, _, [] => ([], n)
  | n, prev, x :: xs =>
    let dup := match prev with | some p => dupPair p x | none => false
    if draws x then
      if dup then let r := drawPlan draws n (some x) xs; ((n - 1) :: r.1, r.2)
      else let r := drawPlan draws (n + 1) (some x) xs; (n :: r.1, r.2)
    else let r := drawPlan draws n (some x) xs; (0 :: r.1, r.2)

/-! ## Classes, sources and destinations -/

/-- The latency class of a template operation's register result (R83, R88, R113, R153, R168, R185, R198, R256). -/
def latOf (opc : Nat) (o : TOp) : Option LatClass :=
  if opc < 0x40 then (if (3 ≤ opc ∧ opc ≤ 6) ∨ opc ≥ 0x20 then some .sm else some .sa)
  else if opc < 0x80 then
    if opc == 0x40 || opc == 0x41 then (if tyVInt o.tyN then some .va else some .vf)
    else if opc == 0x42 || opc == 0x43 || opc == 0x44 || opc == 0x56 || opc == 0x57 || opc == 0x69 || opc ≥ 0x70 then some .vf
    else if (0x58 ≤ opc ∧ opc ≤ 0x5D) ∨ (0x60 ≤ opc ∧ opc ≤ 0x64) then some .vt
    else some .va
  else if opc < 0x90 then none
  else if opc < 0xA0 then some .ar
  else if opc < 0xB0 then (if opc == 0xA3 || (opc == 0xA8 && o.md.getLsbD 0) then some .sa else none)
  else if opc == 0xB0 || opc == 0xB6 || opc == 0xC6 then some .sl
  else if opc == 0xB2 || opc == 0xB4 || opc == 0xB7 then some .vl
  else if 0xB8 ≤ opc ∧ opc ≤ 0xC4 then some .at
  else if opc == 0xCB then some .sa
  else if opc == 0xE2 || opc == 0xE6 then some .sl
  else none

/-- Targets of R28 as numbers: register specifiers, then 256 + special-register index. -/
def specT (idx : Nat) : Nat := 256 + idx

/-- Is the SA field an immediate (R39)? -/
def saImm (opc : Nat) (o : TOp) : Bool :=
  opc == 0xDD || opc == 0xDF || (opc == 0xE2 && !o.md.getLsbD 1) || (opc == 0xA8 && o.md.getLsbD 0)
/-- Is the SB field an immediate? -/
def sbImm (opc : Nat) (o : TOp) : Bool :=
  (0x2B ≤ opc ∧ opc ≤ 0x2D) || opc == 0x56 || opc == 0x97 || opc == 0xA3 ||
  ((0x90 ≤ opc ∧ opc ≤ 0x96) && opc != 0x92 && opc != 0x93 && !o.md.getLsbD 0)
/-- Is the DST field an immediate? -/
def dstImm (opc : Nat) (o : TOp) : Bool :=
  opc == 0xDE || opc == 0xE1 || opc == 0xA7 || (opc == 0xA8 && !o.md.getLsbD 0)
/-- Does the operation read its DST register at issue? -/
def readsDst (opc : Nat) : Bool :=
  [0x17, 0x1E, 0x23, 0x43, 0x44, 0x68, 0xB1, 0xB3, 0xB5, 0xC0, 0xC2, 0xC3, 0xC7, 0xC9, 0xCA].contains opc

/-- R155: how many registers of its group an optimiser operation reads. -/
def groupLen (opc : Nat) : Nat := match opc with | 0x94 => 2 | 0x95 => 3 | 0x96 => 4 | _ => 1

/-- Register specifiers that an operation names, in the order DST, SA, SB and then the rest of its group (R17). -/
def namedRegs (opc : Nat) (o : TOp) : List Nat :=
  (if dstImm opc o then [] else [o.dst.toNat]) ++
  (if saImm opc o then [] else [o.sa.toNat]) ++
  (if sbImm opc o || o.lk != 0#4 then [] else [o.sb.toNat]) ++
  (if opc == 0x64 then [o.dst.toNat + 1] else []) ++
  (if 0x94 ≤ opc ∧ opc ≤ 0x96 then (List.range (groupLen opc - 1)).map (fun i => o.dst.toNat + 1 + i) else [])

/-- Does the M or A operation read the tile that DST names (R140, R152, R156)? -/
def readsTile (opc : Nat) (o : TOp) : Bool :=
  (0x80 ≤ opc ∧ opc ≤ 0x84 && !o.md.getLsbD 2) || opc == 0x87 || opc == 0x92

/-- Registers read at issue, as targets of R28. -/
def srcsOf (opc : Nat) (o : TOp) : List Nat :=
  (if saImm opc o then [] else [o.sa.toNat]) ++
  (if sbImm opc o || o.lk != 0#4 then [] else [o.sb.toNat]) ++
  (if readsDst opc || readsTile opc o then [o.dst.toNat] else []) ++
  (if 0x94 ≤ opc ∧ opc ≤ 0x96 then (List.range (groupLen opc)).map (fun i => o.dst.toNat + i) else []) ++
  (if o.pr == 0#6 then [] else [0x80 + (predReg o).toNat]) ++
  (if opc == 0xD7 then [62] else []) ++ (if opc == 0xD5 || opc == 0xD6 then [63] else []) ++
  (if opc == 0x6A then (List.range 16).map (fun i => 0x80 + i) else []) ++
  (if opc == 0x15 then [specT 3] else []) ++ (if opc == 0xDD then [specT o.sa.toNat] else [])

/-- A delivery of R28 to come: its beat and its target. -/
structure Dst where
  due : Nat
  tgt : Nat
  deriving DecidableEq, Repr

/-- Which part of the address space (R192). -/
inductive Path where
  | own | clus (core : Nat) | unmapped | priv | flat | out
  deriving DecidableEq, Repr

def pathOf (c : Core) (a : Int) : Path :=
  if a < 0 ∨ a ≥ 2 ^ 56 then .out
  else
    let n := a.toNat
    if n < spadBase then .priv
    else if n < spadBase + 0x2000000 then
      let k := (n - spadBase) / 0x40000
      if k == c.pcore then .own else .clus k
    else if n < 2 ^ 55 then .unmapped
    else .flat

/-- The added beats of a path with fixed beats (R21); `none` for the others. -/
def pathAdd : Path → Option Nat
  | .own => some 0
  | .clus _ => some 4
  | _ => none

/-- The address that a memory operation forms (R192, R200, R204, R214). -/
def memAddr (a : Arch) (opc : Nat) (o : TOp) : Int :=
  if o.lk == 1#4 && !(0xB8 ≤ opc ∧ opc ≤ 0xBF) then addrOf (srcA a o) (litS o)
  else if opc == 0xB4 || opc == 0xB5 || (0xB8 ≤ opc ∧ opc ≤ 0xC4) || opc == 0xC9 || opc == 0xCA then addrOf (srcA a o) 0#64
  else addrOf (srcA a o) (a.rs (regN o.sb))

/-! ## Outstanding stores (R208 to R211, R285, R337) -/

def Loc.isSpad : Loc → Bool | .spad _ _ _ => true | _ => false
/-- Is the byte asked for at another module, or in the flat space (R275, R276)? -/
def Loc.away : Loc → Bool | .far _ _ => true | .flat _ _ => true | _ => false
/-- Bytes that a store writes. -/
def Perf.locs (p : Perf) : List Loc :=
  p.ws.map (fun w => w.loc) ++ (match p.req with | some r => r.elems.flatMap (fun el => el.locs) | none => [])

/-- Bytes that a request reads outside the module. -/
def Req.away (r : Req) : List Loc :=
  (r.elems.flatMap (fun el => el.locs ++ (el.scale.map Prod.snd).toList)).filter Loc.away
/-- The elements that lie in this module's memory. -/
def Req.local_ (r : Req) : List Elem := r.elems.filter (fun el => !el.locs.any Loc.away)
/-- Is every byte at hand that it waits for from outside the module? -/
def Req.allIn (r : Req) : Bool := r.away.all (fun l => r.got.any (fun x => x.1 == l))
def Req.locs (r : Req) : List Loc := r.elems.flatMap (fun el => el.locs)
/-- Does it read and write as one step? -/
def Req.isRmw (r : Req) : Bool := match r.kind with | .atomic => true | .accum => true | .clear => true | _ => false
/-- An atomic, accumulation or read-and-clear of memory that has not performed at its home, or at every one of them (R183, R203, R285). -/
def Req.owesHome (r : Req) : Bool :=
  r.fixed.isNone && r.isRmw && decide (r.answer ≤ 1) &&
  (if r.elems.isEmpty then r.answer == 0 else (!r.local_.isEmpty && r.homed.isNone) || !r.allIn)

/-- R285: is a store outstanding at a scope? At .core a store to private memory has performed at its issue, one to the flat space
has not until it is acknowledged. -/
def Outst.owes (x : Outst) (scope : Nat) : Bool := if scope == 0 then x.flat else decide (x.reached < scope)

/-- R208 to R211: outcomes at a scope that are still outstanding for stores before a beat; `var` asks for variable ones only. A
memory-class atomic, accumulation or read-and-clear is outstanding at every scope until its home has performed it (R285). A store
whose failure becomes known in this beat is outstanding in this beat: FSW takes the failure as the beat ends (R212; DEDUCED, log 32). -/
def Core.uncovered (c : Core) (perfs : List Perf) (scope before : Nat) (var : Bool) : Bool :=
  c.outst.any (fun x => decide (x.issue < before) && x.owes scope) || c.fswDue.any (fun f => decide (f.1 < before)) ||
  c.reqs.any (fun r => decide (r.issue < before) && r.owesHome) ||
  (!var && (perfs.any (fun p => p.clus == c.pclus && p.core == c.pcore && decide (p.issue < before) && p.locs.any Loc.isSpad) ||
    c.reqs.any (fun r => decide (r.issue < before) && r.fixed.isSome && (match r.kind with | .load => false | .acquire _ => false | _ => true))))

/-- Requests of writes that were withheld (R265) are numbered from here: no release covers them (R337). -/
def withheldId : Nat := 4294967296

/-- R265: are flat-space copy writes of a core withheld? -/
def State.withholds (s : State) (c : Core) : Bool :=
  s.pk.launches.any (fun l => l.job == c.job && l.rank == c.rank && decide (l.committed > 0))

/-- R337: flat-space copy writes of the core's channels, read before a beat, that have not performed; those to be withheld do not count. -/
def State.fabCopies (s : State) (c : Core) (before : Nat) : Bool :=
  s.pk.remotes.any (fun r => r.chan.isSome && r.far.isNone && r.body.kind == .write && decide (r.id < withheldId) &&
    r.clus == c.pclus && r.core == c.pcore && decide (r.issue < before)) ||
  [c.chan0, c.chan1].any (fun x => match x.cur with
    | some r => r.flatDst && !s.withholds c && r.ready.any (fun y => decide (y.readAt < before))
    | none => false)

/-- Has a FENCE issued at `t` nothing to wait for (R211, R337)? -/
def State.fenceFree (s : State) (c : Core) (scope t : Nat) : Bool :=
  !c.uncovered s.perfs scope t false && !(scope == 4 && s.fabCopies c t)

/-- Register results of an operation with a known delivery beat, as R28 sees them. A FENCE that has nothing to wait for completes
at its issue (R211). -/
def dstsOf (s : State) (opc : Nat) (o : TOp) : List Dst :=
  let c := s.core
  let t := s.beat
  let lath := c.lath.toNat
  let L := match latOf opc o with | some l => latInUse lath l | none => 1
  let d := o.dst.toNat
  if opc == 0x14 || opc == 0x28 then [⟨t + L, d⟩, ⟨t + L, specT 3⟩]
  else if opc == 0x64 then [⟨t + L, d⟩, ⟨t + L, d + 1⟩]
  else if opc == 0x69 then [⟨t + L, d⟩]
  else if opc == 0x6B then (List.range (16 - (predN o.dst).toNat)).map (fun i => ⟨t + L, d + i⟩)
  else if opc == 0x91 then [⟨t + L, d⟩, ⟨t + L, o.sa.toNat⟩]
  else if opc == 0x92 then []
  else if opc == 0x93 then [⟨t + 36, d⟩]
  else if opc == 0x94 then [⟨t + L, d⟩]
  else if opc == 0x95 then [⟨t + L, d⟩, ⟨t + L, d + 1⟩]
  else if opc == 0x96 then [⟨t + L + 4, d⟩, ⟨t + L + 4, d + 1⟩, ⟨t + L + 4, d + 2⟩]
  else if opc == 0xD5 || opc == 0xD6 then [⟨t + 1, 62⟩]
  else if opc == 0xD9 || opc == 0xDA then [⟨t + 1, specT (0x1B + o.mdN % 4)⟩]
  else if opc == 0xDD then [⟨t + 1, d⟩]
  else if opc == 0xDE then [⟨t + 1, specT d⟩]
  else if opc == 0xC5 then (if s.fenceFree c (o.mdN % 8) t then [⟨t + 1, d⟩] else [])
  else if opc == 0xB4 && laneMask c.a o &&& (if o.t == .c32 then 0x55555555#32 else 0xFFFFFFFF#32) == 0#32 then [⟨t + L + 7, d⟩]
  else if 0xB0 ≤ opc ∧ opc ≤ 0xC7 then
    match latOf opc o, pathAdd (pathOf c (memAddr c.a opc o)) with
    | some _, some add => [⟨t + L + (if opc == 0xB4 then 7 else add), d⟩]
    | _, _ => []
  else match latOf opc o with
    | some _ => [⟨t + L, d⟩]
    | none => []

/-- Targets of a write in flight. -/
def Wr.targets : Wr → List Nat
  | .s n _ _ _ => [n.toNat]
  | .v n _ _ _ => [0x40 + n.toNat]
  | .p n _ _ => [0x80 + n.toNat]
  | .spec idx _ => [specT idx.toNat]
  | .cond _ _ => [specT 3]
  | .tile n _ _ => [0xC0 + n.toNat]
  | _ => []

def Flight.targets (f : Flight) : List Nat := f.ws.flatMap Wr.targets

/-- A register write that is due: delivery beat, issue beat, slot, class, targets. -/
structure DueWrite where
  due : Nat
  issue : Nat
  slot : Nat
  cls : Option LatClass
  tgts : List Nat
  deriving DecidableEq, Repr

/-- Register writes of the core with a known delivery beat: results in flight, and scratchpad accesses that have yet to read
(R192, R194, R202). The result of a reverse store is scoreboarded wherever its cell lies (R182). -/
def Core.dueWrites (c : Core) : List DueWrite :=
  c.flights.map (fun f => ⟨f.due, f.issue, f.slot, f.cls, f.targets⟩) ++
  c.reqs.filterMap (fun r => match r.fixed, r.kind with
    | none, _ => none
    | _, .store => none
    | _, .accum => none
    | some _, .clear => none
    | some (_, d), _ => some ⟨d, r.issue, r.o.slot, latOf r.opc r.o, [r.o.dst.toNat]⟩)

/-- R28: writes to s0 and p0 never collide. -/
def collides (x : Nat) : Bool := x != 0 && x != 0x80

/-! ## Register budget (R17) -/

def overBudget (n x : Nat) : Bool := decide (64 + n ≤ x ∧ x < 128)

/-- TRAPAUX of the budget fault, for the first operation that names a register at or above the budget. -/
def budgetFault (c : Core) (ops : List SOp) : Option Word64 :=
  ops.findSome? (fun x =>
    match (namedRegs x.opc x.o).find? (overBudget c.vregs) with
    | some r => some (BitVec.ofNat 64 (x.o.slot * 2 ^ 12 + r))
    | none => none)

/-! ## Collisions (R28 to R30, R142, R256) -/

/-- TRAPAUX of a write collision (R30). -/
def auxColl (dist : Nat) (early : Bool) (oslot tslot tgt : Nat) : Word64 :=
  BitVec.ofNat 64 (dist * 2 ^ 16 + flag64 early 15 + oslot * 2 ^ 12 + tslot * 2 ^ 9 + flag64 (decide (tgt ≥ 256)) 8 + tgt % 256)

/-- Step and visible beats of an M operation (R141). -/
def mSteps (opc t L : Nat) : List (Nat × Nat) :=
  match opc with
  | 0x80 => [(t, t + L)]
  | 0x81 => (List.range 6).map (fun i => (t + i, t + i + L))
  | 0x82 => [(t + 8, t + 8 + L)]
  | 0x83 => [(t, t + L + 2)]
  | 0x84 => [(t + 8, t + 8 + L)]
  | 0x85 => [(t, t + L)]
  | 0x86 => [(t + 33, t + 33 + L)]
  | 0x87 => [(t, t + L + 1)]
  | _ => []

/-- Does an engine step become visible on its tile (R141)? -/
def EngStep.shows (x : EngStep) : Bool := match x.kind with | .stash .. => false | .ucfg .. => false | .aread .. => false | _ => true
/-- Engine steps of the core that have yet to become visible: tile, visible beat, issue beat (R141). -/
def Core.toShow (c : Core) : List (Nat × Nat × Nat) :=
  (c.steps.filter EngStep.shows).map (fun x => (x.tile.toNat, x.visible, x.issue)) ++
  c.flights.flatMap (fun f => f.ws.filterMap (fun w => match w with
    | .vis n _ _ => some (n.toNat, f.due, f.issue)
    | _ => none))

/-- A-slot tile write of an operation: tile and beat (R142). -/
def tileWrite (c : Core) (t opc : Nat) (o : TOp) : Option (Nat × Nat) :=
  match opc with
  | 0x91 => some ((tileN o.sa).toNat, t + latInUse c.lath.toNat .ar)
  | 0x93 => some ((tileN o.dst).toNat, t + 36)
  | _ => none

/-- Tile steps in flight: tile, first beat, last beat, issue (R142). -/
def stepSpans (c : Core) : List (Nat × Nat × Nat × Nat) :=
  c.steps.map (fun x => match x.kind with
    | .stash .. => (x.tile.toNat, x.issue, x.due, x.issue)
    | _ => (x.tile.toNat, x.due, x.visible, x.issue)) ++
  c.flights.flatMap (fun f => f.ws.filterMap (fun w => match w with
    | .vis n _ _ => some (n.toNat, 0, f.due, f.issue)
    | _ => none))

/-- A collision of one operation with writes in flight or with operations of lower slots (R28, R142). The manual does not say
which target TRAPAUX names when several collide, VSORT apart (R133), nor which write when one target meets both kinds: the
model goes by destinations in the order of the operation's description, the lower register first, and for each of them takes
writes in flight before those of the bundle, then tile steps (DESIGN CHOICE, log 12). An engine step that becomes visible is a delivery
to its tile: two of one tile in one beat collide (R28, R141; DEDUCED, log 12). -/
def collideOne (s : State) (below : List SOp) (x : SOp) : Option Word64 :=
  let c := s.core
  let t := s.beat
  let ds := (dstsOf s x.opc x.o).filter (fun d => collides d.tgt)
  let regs := ds.findSome? (fun d =>
    (c.dueWrites.findSome? (fun f =>
      if f.due == d.due && f.tgts.contains d.tgt then some (auxColl (t - f.issue) true f.slot x.o.slot d.tgt) else none)).or
    (below.findSome? (fun y =>
      if (dstsOf s y.opc y.o).contains d then some (auxColl 0 false y.o.slot x.o.slot d.tgt) else none)))
  let aw : Option Word64 := match tileWrite c t x.opc x.o with
    | none => none
    | some (k, u) =>
      match (stepSpans c).find? (fun p => p.1 == k && decide (p.2.1 ≤ u ∧ u ≤ p.2.2.1)) with
      | some p => some (auxColl (t - p.2.2.2) true 3 x.o.slot (0xC0 + k))
      | none =>
        below.findSome? (fun y =>
          if 0x80 ≤ y.opc ∧ y.opc ≤ 0x87 then
            if (tileN y.o.dst).toNat == k && (mSteps y.opc t (latInUse c.lath.toNat .mx)).any (fun p => decide (p.1 ≤ u ∧ u ≤ p.2)) then
              some (auxColl 0 false y.o.slot x.o.slot (0xC0 + k)) else none
          else none)
  let mw : Option Word64 := if 0x80 ≤ x.opc ∧ x.opc ≤ 0x87 then
      let k := (tileN x.o.dst).toNat
      c.flights.findSome? (fun f =>
        if f.ws.any (fun w => match w with | .tile n _ _ => n.toNat == k | _ => false) &&
            (mSteps x.opc t (latInUse c.lath.toNat .mx)).any (fun p => decide (p.1 ≤ f.due ∧ f.due ≤ p.2)) then
          some (auxColl (t - f.issue) true f.slot x.o.slot (0xC0 + k)) else none)
    else none
  let vw : Option Word64 := if 0x80 ≤ x.opc ∧ x.opc ≤ 0x86 then
      let k := (tileN x.o.dst).toNat
      (c.toShow.find? (fun y => y.1 == k && (mSteps x.opc t (latInUse c.lath.toNat .mx)).any (fun p => p.2 == y.2.1))).map (fun y =>
        auxColl (t - y.2.2) true 3 x.o.slot (0xC0 + k))
    else none
  let cc : Option Word64 := if x.o.slot == 5 then
      below.findSome? (fun y =>
        if y.o.slot == 4 && y.opc == x.opc then
          if x.opc == 0xA7 && x.o.dst == y.o.dst then some (auxColl 0 false 4 5 (256 + 0x40 + x.o.dst.toNat))
          else if x.opc == 0xA8 && !x.o.md.getLsbD 0 && !y.o.md.getLsbD 0 && x.o.dst == y.o.dst then
            some (auxColl 0 false 4 5 (256 + 0x50 + x.o.dst.toNat))
          else if x.opc == 0xA9 then some (auxColl 0 false 4 5 (256 + 0x19))
          else none
        else none)
    else none
  regs.or (((aw.or mw).or vw).or cc)

/-- The first collision in ascending slot position. -/
def collision (s : State) : List SOp → List SOp → Option Word64
  | _, [] => none
  | below, x :: xs => match collideOne s below x with
    | some a => some a
    | none => collision s (below ++ [x]) xs

/-- Does the next bundle write the stage predicates (R233)? -/
def Core.staging (c : Core) : Bool :=
  !c.hm && c.a.stage && lstgPb c.a.lstg != 0 && (c.a.loops.toList.getD (lstgLoop c.a.lstg) ⟨0, 0, false⟩).start == c.pc
/-- A stage predicate of the bundle was also written by a result of this beat (R28, R233). No slot holds the write of the stage
predicate: the model reports slot 0, before the collisions of the slots (DESIGN CHOICE, log 12). -/
def stageCollision (s : State) : Option Word64 :=
  let c := s.core
  if c.staging then
    (List.range (lstgN c.a.lstg)).findSome? (fun k =>
      (c.landed.find? (fun w => w.1 == s.beat && w.2.1 == 0x80 + lstgPb c.a.lstg + k)).map (fun w =>
        auxColl (s.beat - w.2.2.1) true w.2.2.2 0 (0x80 + lstgPb c.a.lstg + k)))
  else none

/-- A SETS to a draw counter in the same beat as the counter's own write (R79). -/
def drawCollision (ops : List SOp) (nS nC : Nat) : Option Word64 :=
  ops.findSome? (fun x =>
    if x.opc == 0xDE && ((x.o.dst == 0x0D#8 && nS != 0) || (x.o.dst == 0x0C#8 && nC != 0)) then
      let d := (ops.find? (fun y => if x.o.dst == 0x0D#8 then drawsS y.opc y.o else drawsC y.opc))
      let os := match d with | some y => y.o.slot | none => 0
      some (if os < x.o.slot then auxColl 0 false os x.o.slot (specT x.o.dst.toNat)
        else auxColl 0 false x.o.slot os (specT x.o.dst.toNat))
    else none)

/-! ## Waits of the bundle (R22, R26, R78, R166, R209) -/

/-- The register of a variable-latency request (R194). -/
def Req.target (r : Req) : Nat := r.o.dst.toNat

/-- Is the target written by a request that is still outstanding? The result of a reverse store is scoreboarded (R182). -/
def Core.awaiting (c : Core) (x : Nat) : Bool :=
  collides x && c.reqs.any (fun r => (r.fixed.isNone || r.kind == .clear) && r.target == x &&
    (match r.kind with | .accum => false | .store => false | _ => true))

/-- Does a result of an interlocked class still owe the target (R26)? -/
def Core.owed (c : Core) (x : Nat) : Bool :=
  collides x && c.dueWrites.any (fun f => (match f.cls with | some l => interlocked c.lath.toNat l | none => false) &&
    f.tgts.contains x)

/-- Would the operation's own write be delivered no later than an interlocked one to the same register (R26)? An engine step is delivered
to its tile when it becomes visible (R141). -/
def Core.overtakes (c : Core) (d : Dst) : Bool :=
  collides d.tgt && (c.dueWrites.any (fun f => (match f.cls with | some l => interlocked c.lath.toNat l | none => false) &&
    f.tgts.contains d.tgt && decide (d.due ≤ f.due)) ||
    (interlocked c.lath.toNat .mx && c.toShow.any (fun x => 0xC0 + x.1 == d.tgt && decide (d.due ≤ x.2.1))))

/-- R141: a tile with a step not yet visible. -/
def Core.tileBusy (c : Core) (k : Nat) : Bool := c.toShow.any (fun x => x.1 == k)

/-- Does the operation access memory (R209)? -/
def isMem (opc : Nat) : Bool :=
  (0xB0 ≤ opc ∧ opc ≤ 0xCA) && opc != 0xC5 && opc != 0xC8 || opc == 0xE0 || (0x86 ≤ opc ∧ opc ≤ 0x88) || opc == 0x83 ||
  opc == 0x92 || opc == 0x93

/-- Targets that the operation writes at a beat that is known or not: for the waits of R194 and R26. A write of an M operation to
its tile counts at the beat where it becomes visible (R141). -/
def writesOf (s : State) (opc : Nat) (o : TOp) : List Dst :=
  dstsOf s opc o ++ (if opc == 0xC5 then [⟨s.beat + 1, o.dst.toNat⟩] else []) ++
  (if opc == 0x87 then [] else (mSteps opc s.beat (latInUse s.core.lath.toNat .mx)).map (fun p => ⟨p.2, 0xC0 + (tileN o.dst).toNat⟩)) ++
  (tileWrite s.core s.beat opc o).toList.map (fun p => ⟨p.2, 0xC0 + p.1⟩)
/-- A memory result, whatever its beat. -/
def memDst (opc : Nat) (o : TOp) : List Nat :=
  if 0xB0 ≤ opc ∧ opc ≤ 0xC7 then (match latOf opc o with | some _ => [o.dst.toNat] | none => []) else []

/-- R166: does the operation name a bank that a DLD is loading, or is it a second DLD? -/
def bankWait (s : State) (x : SOp) : Bool :=
  match s.core.dld with
  | none => false
  | some d => decide (d.issue + 1 ≤ s.beat) &&
    (x.opc == 0xE0 || ((x.opc == 0xE1 || x.opc == 0xE2) && x.o.md.getLsbD 0 == d.bank))
/-- R166: does the bundle wait as a whole: for the bank that its expansion reads, or, after an FFENCE, for a DLD in flight?
`usesDict` tells that it expands an entry. -/
def dictWait (s : State) (usesDict : Bool) : Bool :=
  match s.core.dld with
  | none => false
  | some d => s.core.ffenced || (decide (d.issue + 1 ≤ s.beat) && usesDict && s.core.act == d.bank)

def Core.chan (c : Core) (j : Nat) : Chan := if j == 0 then c.chan0 else c.chan1
/-- The channel that an operation drives (R246): C0 stands in slot 4, C1 in slot 5. -/
def chanOf (o : TOp) : Nat := if o.slot == 5 then 1 else 0

/-- The wait of one operation on registers, draws, the LDACQ before it, the engine start of an interlocked CP class (R26: what depends
on it is every operation that drives or reads the channel; DEDUCED, log 12) and a dictionary bank: the reason of R393. -/
def regWait (s : State) (x : SOp) : Option Nat :=
  let c := s.core
  let srcs := srcsOf x.opc x.o
  let ds := writesOf s x.opc x.o
  if srcs.any c.owed || ds.any c.overtakes || srcs.any c.awaiting || (ds.map Dst.tgt ++ memDst x.opc x.o).any c.awaiting then some 2
  else if 0x90 ≤ x.opc ∧ x.opc ≤ 0x96 ∧ interlocked c.lath.toNat .mx ∧
      c.tileBusy (tileN (if x.opc == 0x92 || x.opc == 0x93 then x.o.dst else x.o.sa)).toNat = true then some 2
  else if isMem x.opc && c.reqs.any (fun r => match r.kind with | .acquire _ => r.fixed.isNone | _ => false) then some 2
  else if (drawsS x.opc x.o || drawsC x.opc) && c.tombLoad.isSome then some 4
  else if 0xA0 ≤ x.opc ∧ x.opc ≤ 0xA3 ∧ interlocked c.lath.toNat .cp = true ∧ s.beat < (c.chan (chanOf x.o)).cpAt then some 2
  else if bankWait s x then some 5
  else none

/-- TRAPAUX of a timing fault (R393). -/
def auxTiming (reason slot data : Nat) : Word64 := BitVec.ofNat 64 (data % 2 ^ 56 * 2 ^ 8 + slot * 2 ^ 4 + reason)

/-- TRAPAUX of an adjoint fault (R190). -/
def auxAdj (addr size detail : Nat) : Word64 := BitVec.ofNat 64 (addr % 2 ^ 56 * 256 + size * 16 + detail)

/-! ## Sequencer and loops (R24, R97, R232, R233) -/

/-- The redirects after one issued bundle: what remains, and the target reached (R24). -/
def ageRedirects : List Redirect → List Redirect × Option Redirect
  | [] => ([], none)
  | e :: es =>
    let r := ageRedirects es
    if e.left ≤ 1 then (r.1, match r.2 with | some x => some x | none => some e)
    else ({ e with left := e.left - 1 } :: r.1, r.2)

/-- R97: the loops that a branch target leaves end, with every loop above them. -/
def Arch.leaveLoops (a : Arch) (target : Nat) : Arch :=
  let out := (List.range 4).find? (fun k =>
    let l := a.loops.toList.getD k ⟨0, 0, false⟩
    l.active && !(decide (l.start ≤ target ∧ target ≤ l.stop)))
  match out with
  | none => a
  | some k => (List.range 4).foldl (fun a j => if j ≥ k ∧ (a.loops.toList.getD j ⟨0, 0, false⟩).active = true then a.endLoop j else a) a

/-- R233: stage enables at a pass boundary whose LCk is `lc`; the stage predicates are written when the next pass starts. -/
def Arch.boundary (a : Arch) (lc : Nat) : Arch :=
  let n := lstgN a.lstg
  let s0 := if decide (lc ≥ n) && !lstgDrain a.lstg then 1 else 0
  let en := (lstgEn a.lstg * 2 + s0) % 2 ^ n
  { a with lstg := lstgMake en (lstgDrain a.lstg) (lstgAct a.lstg) (lstgLoop a.lstg) n (lstgPb a.lstg), stage := true }

/-- R233: the stage predicates, written in the beat in which the bundle at start[k] issues. -/
def Arch.writeStage (a : Arch) : Arch :=
  (List.range (lstgN a.lstg)).foldl (fun a s =>
    a.wp (BitVec.ofNat 4 (lstgPb a.lstg + s)) (if (lstgEn a.lstg).testBit s then 0xFFFFFFFF#32 else 0#32)) a

/-- A pass boundary of loop `k` (R232, R233), with the urgent drain of R234: true when the drain is complete. -/
def Core.passBoundary (c : Core) (k lc : Nat) (rngs rngc : Word64) : Core × Bool :=
  if lstgAct c.a.lstg && lstgLoop c.a.lstg == k then
    let start := c.urgent && c.drain.isNone && !c.hm
    let c := if start then { c with drain := some (rngs, rngc), a := { c.a with lstg := c.a.lstg ||| 0x8000#64 } } else c
    let c := { c with a := c.a.boundary lc }
    (c, c.drain.isSome && lstgEn c.a.lstg == 0)
  else (c, false)

/-- LCk as the bundle that issues at `t` reads it (R232). -/
def Arch.lcOf (a : Arch) (k : Nat) : Word64 := a.lc.toList.getD k 0#64

/-- R235: a LOOPX loop that was drained starts its passes again from EN = 0, with a boundary at its first bundle. -/
def Core.refill (c : Core) : Core :=
  let k := lstgLoop c.a.lstg
  let l := c.a.loops.toList.getD k ⟨0, 0, false⟩
  if !c.hm && lstgAct c.a.lstg && lstgEn c.a.lstg == 0 && !lstgDrain c.a.lstg && l.active && l.start == c.pc then
    { c with a := c.a.boundary (c.a.lcOf k).toNat }
  else c

/-- What the issue of the bundle at PC brings about before its operations read: a drained pipeline refills (R235), the loops that a
branch to it leaves end (R97), the stage predicates are written (R233). -/
def Core.begin (c : Core) : Core :=
  let c := c.refill
  let c := if !c.hm && c.a.leave == some c.pc then { c with a := c.a.leaveLoops c.pc } else c
  if c.staging then { c with a := c.a.writeStage } else c

/-- R232: the back edge of the bundle at `pc`, deciding from loop `k - 1` downward: the next bundle if a loop goes on. -/
def Core.backEdge (c : Core) (t pc : Nat) (rngs rngc : Word64) : Nat → Core × Option Nat
  | 0 => (c, none)
  | k + 1 =>
    let l := c.a.loops.toList.getD k ⟨0, 0, false⟩
    if l.active && l.stop == pc then
      let lc := (c.a.lcOf k).toNat
      let drains := c.drain.isSome && lstgAct c.a.lstg && lstgLoop c.a.lstg == k
      if decide (lc > 1) || drains then
        let lc' := if drains then lc else lc - 1
        let c := if drains then c else
          { c with flights := c.flights ++ [⟨t + 1, t, 0, none, [.lc (BitVec.ofNat 2 k) (BitVec.ofNat 64 lc')], 0#8, none, none⟩] }
        let r := c.passBoundary k lc' rngs rngc
        (if r.2 then { r.1 with switchOut := true } else r.1, some l.start)
      else
        let c := { c with a := c.a.endLoop k }
        let r := c.backEdge t pc rngs rngc k
        if r.2.isSome then r else (r.1, some (pc + 1))
    else c.backEdge t pc rngs rngc k

/-- Loop set-up (R96, R233); the set-up and the first pass form a pass boundary, where an urgent drain may be complete (R234). -/
def Core.setLoop (c : Core) (l : LoopSet) (rngs rngc : Word64) : Core :=
  let a := (List.range 4).foldl (fun a j =>
    if j ≥ l.k ∧ (a.loops.toList.getD j ⟨0, 0, false⟩).active = true then a.endLoop j else a) c.a
  if l.passes == 0 then { c with a := a }
  else
    let a := { a with loops := a.loops.setIfInBounds l.k ⟨l.st, l.en, true⟩ }
    match l.stages with
    | none => { c with a := a }
    | some n =>
      let a := { a with lstg := lstgMake 0 false true l.k n (lstgPb a.lstg) }
      let r := { c with a := a }.passBoundary l.k l.passes rngs rngc
      if r.2 then { r.1 with switchOut := true } else r.1

/-- The sequencer after the bundle at `pc` (R24), with loop set-up and back edges; under an interlocked BR class a target issues
no earlier than three beats after its transfer (R26). Loops that a target leaves end when it issues (R97). -/
def Core.advance (c : Core) (t : Nat) (taken : Option Taken) (loop : Option LoopSet) (rngs rngc : Word64) : Core :=
  let pc := c.pc
  let aged := ageRedirects c.a.pend
  let a := if c.hm then c.a else { c.a with leave := none, stage := false }
  let c := { c with a := { a with pend := aged.1 } }
  let c : Core := match taken with
    | some k => { c with a := { c.a with pend := c.a.pend ++ [⟨delayBundles c.lath.toNat, k.target, k.ends, t⟩] } }
    | none => c
  match aged.2 with
  | some e =>
    { c with
      pc := e.target
      a := if e.ends && !c.hm then { c.a with leave := some e.target } else c.a
      readyAt := if interlocked c.lath.toNat .br then max c.readyAt (e.issue + 3) else c.readyAt }
  | none =>
    match loop with
    | some l => { c.setLoop l rngs rngc with pc := if l.passes == 0 then l.en + 1 else pc + 1 }
    | none =>
      if c.hm then { c with pc := pc + 1 }
      else
        let r := c.backEdge t pc rngs rngc 4
        { r.1 with pc := match r.2 with | some x => x | none => pc + 1 }

/-! ## Atomic windows (R202) -/

/-- R220: is the core in guarded mode, outside its handler (R218)? -/
def Core.guarded (c : Core) : Bool := c.gm && !c.hm

/-- The scratchpad bank of a byte. -/
def locBank : Loc → Option (Nat × Nat × Nat)
  | .spad k n o => some (k, n, o / 0x10000)
  | _ => none
/-- Banks that elements touch, with their scale bytes. -/
def banksTouched (els : List Elem) : List (Nat × Nat × Nat) :=
  (els.flatMap (fun el => (el.locs ++ (el.scale.map Prod.snd).toList).filterMap locBank)).eraseDups
def auxWindow (a slot : Nat) : Word64 := BitVec.ofNat 64 (a % 2 ^ 56 * 256 + slot * 16 + 0xA)

/-- A use of a bank: first and last beat, the address of the access, and whether it is an atomic window. -/
structure BankUse where
  bank : Nat × Nat × Nat
  first : Nat
  last : Nat
  addr : Nat
  win : Bool
  deriving DecidableEq, Repr

/-- The address of a byte of scratchpad (R192). -/
def Loc.spadAddr : Loc → Nat
  | .spad _ n o => spadBase + n * 0x40000 + o
  | _ => 0
/-- Beats at which an engine operation of the core uses its bank, with the offset where its span starts (R149, R151, R152, R156). -/
def EngStep.bankUse (x : EngStep) : Option (Nat × Nat × Nat) :=
  match x.kind with
  | .fill _ _ off => some (off, x.issue + 2, x.issue + 33)
  | .aread _ _ off => some (off, x.issue + 2, x.issue + 33)
  | .ucfg off _ => some (off, x.due, x.due)
  | .stash _ _ _ off => some (off, x.due + 1, x.due + 32)
  | _ => none

/-- Elements that a scratchpad access has yet to read (R193). -/
def Req.toRead (r : Req) : List Elem := r.elems.filter (fun el => !el.locs.all (fun l => r.got.any (fun x => x.1 == l)))

/-- The uses of banks that an effect makes after its issue beat (R193, R202); held accesses make none yet (R220). -/
def Eff.bankUses (c : Core) (e : Eff) : List BankUse :=
  e.wins.map (fun w => ⟨(w.clus, w.core, w.bank), w.first, w.first + 2, (e.reqs.map (fun r => r.addr)).headD 0, true⟩) ++
  e.reqs.flatMap (fun r => match r.kind, r.fixed with
    | .load, some (rd, _) => (banksTouched r.toRead).map (fun b => ⟨b, rd, rd, r.addr, false⟩)
    | .acquire _, some (rd, _) => (banksTouched r.toRead).map (fun b => ⟨b, rd, rd, r.addr, false⟩)
    | _, _ => []) ++
  e.steps.filterMap (fun x => x.bankUse.map (fun u =>
    ⟨(c.pclus, c.pcore, u.1 / 0x10000), u.2.1, u.2.2, spadBase + c.pcore * 0x40000 + u.1, false⟩)) ++
  (if c.guarded then [] else e.perfs).flatMap (fun p => match p.req with
    | some r => (banksTouched r.elems).map (fun b => ⟨b, p.due, p.due, r.addr, false⟩)
    | none => (p.ws.filterMap (fun w => locBank w.loc)).eraseDups.map (fun b =>
        ⟨b, p.due, p.due, ((e.perfs.flatMap (fun q => q.ws)).head?.map (fun w => w.loc.spadAddr)).getD 0, false⟩))

/-- A conflict between a window and another access of one bundle (R202): TRAPAUX, against the higher slot. -/
def windowClash (c : Core) (lower : List Eff) (slot : Nat) (e : Eff) : Option Word64 :=
  lower.findSome? (fun y => (e.bankUses c).findSome? (fun u => (y.bankUses c).findSome? (fun v =>
    if u.bank == v.bank && decide (u.first ≤ v.last ∧ v.first ≤ u.last) && (u.win || v.win) then some (auxWindow u.addr slot) else none)))
/-- R202: does a use of a bank in beats [b0, b1] meet a reserved window? -/
def State.windowHit (s : State) (clus core bank b0 b1 : Nat) : Bool :=
  s.windows.any (fun w => w.clus == clus && w.core == core && w.bank == bank && decide (w.first ≤ b1 ∧ b0 ≤ w.first + 2))
def Perf.banks (p : Perf) : List (Nat × Nat × Nat) :=
  ((p.ws.filterMap (fun w => locBank w.loc)) ++ (match p.req with | some r => banksTouched r.elems | none => [])).eraseDups
/-- R202: is a scratchpad access already on its way to a bank in beats [b0, b1]? -/
def State.bankUsed (s : State) (clus core bank b0 b1 : Nat) : Bool :=
  s.perfs.any (fun p => decide (b0 ≤ p.due ∧ p.due ≤ b1) && p.banks.contains (clus, core, bank)) ||
  s.allCores.any (fun c =>
    c.reqs.any (fun r => !r.held && (match r.fixed with | some (rd, _) => decide (b0 ≤ rd ∧ rd ≤ b1) | none => false) &&
      (banksTouched r.toRead).contains (clus, core, bank)) ||
    (match c.dld with
      | some d => d.bytes.isEmpty && (match d.readAt with | some k => decide (b0 ≤ k ∧ k ≤ b1) | none => false) && (d.locs.filterMap locBank).contains (clus, core, bank)
      | none => false) ||
    (c.pclus == clus && c.pcore == core && c.steps.any (fun x => match x.bankUse with
      | some (off, f, l) => off / 0x10000 == bank && decide (b0 ≤ l ∧ f ≤ b1)
      | none => false)))

/-- A held access to cells in the scratchpad, which a checkpoint performs in a window (R183, R191). -/
def Perf.cells (p : Perf) : Bool :=
  match p.req with
  | some r => r.fixed.isSome && (match r.kind with | .accum => true | .clear => true | _ => false)
  | none => false
/-- The windows of the held accesses that a checkpoint at `t` performs: they write at t + 3, their last beat (R183, R219). -/
def heldWindows (t : Nat) (ps : List Perf) : List Window :=
  (ps.filter Perf.cells).flatMap (fun p => p.banks.map (fun b => ⟨t + 1, b.1, b.2.1, b.2.2, t⟩))
/-- A held access that a checkpoint performs meets a window, or with its own window another access: the checkpoint's bundle is the later
one (R202, R219; DEDUCED, log 32). -/
def heldClash (s : State) (slot : Nat) : Option Word64 :=
  s.core.held.findSome? (fun p => (p.banks.find? (fun b =>
      s.windowHit b.1 b.2.1 b.2.2 (if p.cells then s.beat + 1 else s.beat + 3) (s.beat + 3) ||
      (p.cells && s.bankUsed b.1 b.2.1 b.2.2 (s.beat + 1) (s.beat + 3)))).map (fun _ =>
    auxWindow (match p.req with | some r => r.addr | none => (p.ws.head?.map (fun w => w.loc.spadAddr)).getD 0) slot))

/-- The outcomes of a bundle with those conflicts: timing faults of their slots (R392). -/
def withClashes (s : State) : List Eff → List (Nat × Out) → List Out
  | _, [] => []
  | lower, (k, .ok e) :: r =>
    (match (windowClash s.core lower k e).or (if e.ckpt then heldClash s k else none) with
      | some a => .fault 0x06 a
      | none => .ok e) :: withClashes s (lower ++ [e]) r
  | lower, (_, o) :: r => o :: withClashes s lower r

/-- In timetabled code a CBANK waits for no access of its own bundle to the bank (R244): a timing fault of its slot. -/
def withSwitches (c : Core) (xs : List (Nat × Out)) : List Out :=
  xs.map (fun x => match x.2 with
    | .ok e =>
      if c.timetabled && e.waits.any (fun w => match w with
          | .bank n _ => xs.any (fun y => match y.2 with
            | .ok f => (f.bankUses c).any (fun u => u.bank == (c.pclus, c.pcore, n))
            | _ => false)
          | _ => false) then .fault 0x06 (auxTiming 0xC x.1 0)
      else .ok e
    | o => o)

/-- The outcomes of a bundle with the faults that its own stores bring about (R149). -/
def withLate (xs : List Out) : List Out :=
  let ps := xs.flatMap (fun x => match x with | .ok e => e.perfs | _ => [])
  xs.map (fun x => match x with
    | .ok e => (match e.late ps with | some f => .fault f.1 f.2 | none => .ok e)
    | x => x)

/-! ## Commit -/

/-- A WAITB, which only its beat ends (R101). -/
def Wait.isBeat : Wait → Bool | .beat _ => true | _ => false

/-- The effects of the bundle's operations take place together (R16). -/
def commit (s : State) (effs : List Eff) (nS nC : Nat) : State :=
  let c0 := s.core
  let t := s.beat
  let rngs := c0.a.rngs + BitVec.ofNat 64 nS
  let rngc := c0.a.rngc + BitVec.ofNat 64 nC
  let ck := effs.any (fun e => e.ckpt)
  let oldHeld := c0.held
  let c := if ck then c0.checkpoint { c0.a with leave := none, stage := false } c0.pc ⟨0, [], []⟩ else c0
  let c := effs.foldl (fun c e => e.post c) c
  let dr : List Wr := (if nS == 0 then [] else [.spec 0x0D#6 rngs]) ++ (if nC == 0 then [] else [.spec 0x0C#6 rngc])
  let c := c.advance t (effs.findSome? (fun e => e.taken)) (effs.findSome? (fun e => e.loop)) rngs rngc
  let c := { c with
    flights := c.flights ++ effs.flatMap (fun e => e.flights) ++ (if dr.isEmpty then [] else [⟨t + 1, t, 0, none, dr, 0#8, none, none⟩])
    steps := c.steps ++ effs.flatMap (fun e => e.steps)
    reqs := c.reqs ++ effs.flatMap (fun e => e.reqs)
    held := if c0.guarded then c.held ++ effs.flatMap (fun e => e.perfs) else c.held
    changes := (if effs.any (fun e => e.ffence) then c.changes.map (fun x => (min x.1 (c0.bundles + 1), x.2)) else c.changes) ++
      (effs.flatMap (fun e => e.changes)).map (fun x => (c0.bundles + 3, x))
    bundles := c0.bundles + 1
    readyAt := max c.readyAt (t + 1)
    waits := effs.flatMap (fun e => e.waits)
    ffenced := effs.any (fun e => e.ffence) && c0.dld.isSome }
  let c := if ck then { c with ckNext := ⟨c.pc, c.a.pend, c.waits.filter Wait.isBeat⟩, shadow := { c.shadow with leave := c.a.leave } } else c
  let c : Core := match effs.findSome? (fun e => e.after) with
    | some (cause, aux) => c.raise cause 2 c0.pc aux t
    | none => c
  let c := effs.foldl (fun c e => e.final c) c
  let s := if ck && !effs.any (fun e => e.swap) then s.mapCores (fun x =>
      if x.job == c.job && x.rank == c.rank then { x with phase := x.phase ||| 0x100000000#64 } else x) else s
  let c := { c with phase := s.core.phase }
  let s := { s with
    core := c
    perfs := s.perfs ++ (if ck then oldHeld.map (fun p => { p with due := t + 3, own := some p.due }) else []) ++
      (if c0.guarded then [] else effs.flatMap (fun e => e.perfs))
    windows := s.windows ++ (if ck then heldWindows t oldHeld else []) ++ effs.flatMap (fun e => e.wins) }
  effs.foldl (fun s e => e.spost s) s

/-! ## The order of causes (R392) -/

/-- The first fault of the slots in ascending position, when none waits. -/
def firstFault : List Out → Option (Nat × Word64)
  | [] => none
  | .fault c a :: _ => some (c, a)
  | _ :: os => firstFault os

def firstMismatch : List Out → Option Word64
  | [] => none
  | .mismatch a :: _ => some a
  | _ :: os => firstMismatch os

def Out.waits : Out → Bool | .wait _ _ => true | .hold => true | _ => false
def Out.holds : Out → Bool | .hold => true | _ => false
def Out.eff : Out → Option Eff | .ok e => some e | _ => none
def Out.tape : Out → Nat | .ok e => e.tape | _ => 0

/-- In timetabled code a wait is a timing fault in its slot (R23, R392). -/
def timed (slot : Nat) (reg : Option Nat) : Out → Out
  | .fault c a => .fault c a
  | .mismatch a => .mismatch a
  | .wait r d => .fault 0x06 (auxTiming r slot d)
  | o => match reg with
    | some r => .fault 0x06 (auxTiming r slot 0)
    | none => o

/-- R98: the bundle at the end of an active loop holds no control transfer and is no delay bundle. -/
def loopEndFault (c : Core) (ops : List SOp) : Option Out :=
  if !c.hm && c.a.loops.toList.any (fun l => l.active && l.stop == c.pc) &&
      (!c.a.pend.isEmpty || ops.any (fun x => decide (0xD0 ≤ x.opc ∧ x.opc ≤ 0xD8))) then some (.fault 0x0E 5#64)
  else none

/-- R220: entries that an active store needs, where its checks have failed. -/
def heldStatic (opc : Nat) : Nat :=
  if [0xB1, 0xB3, 0xB5, 0xC9, 0xCA].contains opc then 1 else if opc == 0x87 || opc == 0x92 then 32 else 0
/-- Entries of the withholding buffer that an operation needs (R220). -/
def heldNeed (x : Nat × Out) : Nat := match x.2 with | .ok e => heldCount e.perfs | _ => heldStatic x.1
/-- R392: does a fault of the slot stand before a checkpoint gap? -/
def beforeGap : Out → Bool | .fault k _ => k == 0x13 || k == 0x10 || k == 0x1A | _ => false
/-- R221: the slots whose entries take the buffer beyond 64 fault; `total` is what the bundle needs, which every gap reports. -/
def gapFaults (total : Nat) : Nat → List (Nat × Out) → List Out
  | _, [] => []
  | n, x :: xs =>
    (match x.2 with
      | .fault 0x1A a => .fault 0x1A (BitVec.ofNat 64 (total % 256 * 256 + a.toNat % 16))
      | y => if decide (n + heldNeed x > 64) && heldNeed x != 0 && !beforeGap y then .fault 0x1A (BitVec.ofNat 64 (total % 256 * 256 + 1)) else y) ::
      gapFaults total (n + heldNeed x) xs
/-- The outcomes of a bundle with the checkpoint gaps of guarded mode; a checkpoint empties the buffer first (R219, R221). -/
def Core.gaps (c : Core) (xs : List (Nat × Out)) : List Out :=
  if c.guarded then
    gapFaults ((xs.map heldNeed).foldl (fun m n => m + n) 0)
      (if xs.any (fun x => match x.2 with | .ok e => e.ckpt | _ => false) then 0 else heldCount c.held) xs
  else xs.map Prod.snd

/-- A trap of kind issue: the bundle takes no effect (R227). -/
def trapIssue (s : State) (cause : Nat) (aux : Word64) : State :=
  { s with core := s.core.raise cause 0 s.core.pc aux s.beat }

/-- The outcomes of a bundle's operations in ascending slot position; each sees the tape bytes of those below it (R178, R182). -/
def runOps (s : State) (lanesOf : Nat → SOp → Lanes) : Nat → Nat → List SOp → List Out
  | _, _, [] => []
  | i, tp, x :: xs =>
    let y := x.run ⟨s, lanesOf i x, tp⟩
    y :: runOps s lanesOf (i + 1) (tp + y.tape) xs

/-- Faults of the slots in the order of R392. A timing fault of the bundle as a whole ranks in slot 0. The manual gives the end of
a loop (R98) no slot where its bundle holds no transfer, and does not say which detail of 0x0E comes first where a transfer stands there
with a fault of its own: the model ranks it after slot 6 (DESIGN CHOICE, log 12). -/
def faultOrder (whole : Bool) (loopEnd : Option Out) (pairs : List (Nat × Out)) : List Out :=
  (pairs.filter (fun x => x.1 == 0)).map Prod.snd ++ (if whole then [.fault 0x06 (auxTiming 5 0 0)] else []) ++
  (pairs.filter (fun x => x.1 != 0 && decide (x.1 ≤ 6))).map Prod.snd ++ loopEnd.toList ++
  (pairs.filter (fun x => !decide (x.1 ≤ 6))).map Prod.snd

/-- The lanes of the draws of a bundle, by the place of the operation (R33, R77). -/
def State.bundleLanes (s : State) (ops : List SOp) (i : Nat) (x : SOp) : Lanes :=
  let c := s.core
  if drawsC x.opc then drawLanes c.tomb (c.a.rngc + BitVec.ofNat 64 ((drawPlan (fun x => drawsC x.opc) 0 none ops).1.getD i 0))
  else if drawsS x.opc x.o then drawLanes c.tomb (c.a.rngs + BitVec.ofNat 64 ((drawPlan (fun x => drawsS x.opc x.o) 0 none ops).1.getD i 0))
  else lanes0
/-- Does the bundle stall or wait in this beat (R22, R166, R392 step 1)? -/
def State.bundleWaits (s : State) (ops : List SOp) (usesDict : Bool) : Bool :=
  let outs := runOps s (s.bundleLanes ops) 0 0 ops
  (!s.core.timetabled && (dictWait s usesDict || (ops.map (fun x => regWait s x)).any Option.isSome || outs.any Out.waits)) || outs.any Out.holds

/-- Issue of the operations of one bundle (R16, R392), given in ascending slot position. `usesDict` tells that the bundle
expanded a dictionary entry. A bundle that waits leaves the state as it is. -/
def issueOps (ops : List SOp) (usesDict : Bool) (s : State) : State :=
  let c := s.core
  let planS := drawPlan (fun x => drawsS x.opc x.o) 0 none ops
  let planC := drawPlan (fun x => drawsC x.opc) 0 none ops
  let regs := ops.map (fun x => regWait s x)
  let dw := dictWait s usesDict
  let outs := runOps s (s.bundleLanes ops) 0 0 ops
  if s.bundleWaits ops usesDict then s
  else match budgetFault c ops with
  | some aux => trapIssue s 0x19 aux
  | none =>
  match (stageCollision s).or ((collision s [] ops).or (drawCollision ops planS.2 planC.2)) with
  | some aux => trapIssue s 0x05 aux
  | none =>
  if c.yleft == 0 && !ops.any (fun x => x.opc == 0xDB) then trapIssue s 0x12 (BitVec.ofNat 64 c.yrun)
  else match firstMismatch outs with
  | some aux => trapIssue s 0x0A aux
  | none =>
  let outs := if c.timetabled then (outs.zip (ops.zip regs)).map (fun x => timed x.2.1.o.slot x.2.2 x.1) else outs
  let outs := c.gaps ((ops.map (fun x => x.opc)).zip outs)
  let slots := ops.map (fun x => x.o.slot)
  let outs := withClashes s [] (slots.zip (withSwitches s.core (slots.zip (withLate outs))))
  match firstFault (faultOrder dw (loopEndFault c ops) (slots.zip outs)) with
  | some (cause, aux) => trapIssue s cause aux
  | none => commit s (outs.filterMap Out.eff) planS.2 planC.2

/-- Issue of a bundle that holds one operation. -/
def issueOne (opc : Nat) (o : TOp) (run : TOp → Env → Out) (usesDict : Bool) (s : State) : State :=
  issueOps [⟨opc, o, run o⟩] usesDict s

/-- A plain register result: delivered at issue plus the latency in use of its class (R20). -/
def result (e : Env) (opc : Nat) (o : TOp) (ws : List Wr) (fl : Flags8) : Out :=
  let cls := latOf opc o
  let L := match cls with | some l => e.lat l | none => 1
  .ok { flights := [⟨e.t + L, e.t, o.slot, cls, ws, fl, none, none⟩] }

/-- A scalar result with its taint (R80, R81, R206). -/
def scalarOut (e : Env) (opc : Nat) (o : TOp) (x : Word64) (fl : Flags8) (taint : Taint) : Out :=
  result e opc o [wrS e.a o x taint] (if activeS e.a o then fl else 0#8)

end Sys2Proof.Machine
end

