-- ==== Sys2Proof/Machine/MemSys.lean ====
section
/-! DEFINITION. Bytes of memory in canonical form, scratchpad banks and quarters (R238, R242, R245), the L2 of a die and the
homes (R267 to R272), poison (R279 to R281), the core's L1 (R239). -/
namespace Sys2Proof.Machine

/-! ## Cells (Host.Cell) -/

/-- The key of a byte in memory: physical addresses below 2^42, scratchpad bytes above them. -/
def spadKey (clus core off : Nat) : Nat := 2 ^ 42 + (clus * 128 + core) * 2 ^ 18 + off
def Loc.key : Loc → Nat
  | .spad clus core off => spadKey clus core off
  | .pa a => a
  | .far _ _ => 0
  | .flat _ _ => 0

/-- What an address that is not listed reads as: a free value in an indeterminate range, else 0x00 (log 2, log 3). -/
def unlisted (indet : List Indet) (k : Nat) : Byte :=
  match indet.find? (fun i => decide (i.base ≤ k ∧ k < i.base + i.len)) with
  | some i => Config.freeByte (i.seed + (k - i.base))
  | none => 0#8

def lookupCell (k : Nat) : List Host.Cell → Option Byte
  | [] => none
  | (a, b) :: r => if a == k then some b else if k < a then none else lookupCell k r

/-- Set or remove one cell, keeping the addresses rising. -/
def putCell (k : Nat) (v : Option Byte) : List Host.Cell → List Host.Cell
  | [] => match v with | some b => [(k, b)] | none => []
  | (a, b) :: r =>
    if a < k then (a, b) :: putCell k v r
    else if a == k then (match v with | some x => (k, x) :: r | none => r)
    else (match v with | some x => (k, x) :: (a, b) :: r | none => (a, b) :: r)

/-- Read one byte. -/
def Memory.get (m : Memory) (k : Nat) : Byte :=
  match lookupCell k m.cells with
  | some b => b
  | none => unlisted m.indet k

/-- Write one byte; a byte equal to what its address reads as when unlisted is not listed. -/
def Memory.put (m : Memory) (k : Nat) (v : Byte) : Memory :=
  { m with cells := putCell k (if v == unlisted m.indet k then none else some v) m.cells }

/-- A range becomes indeterminate (R244). -/
def Memory.blur (m : Memory) (base len seed : Nat) : Memory :=
  { cells := m.cells.filter (fun x => !decide (base ≤ x.1 ∧ x.1 < base + len)), indet := ⟨base, len, seed⟩ :: m.indet }

def risingFrom : List Host.Cell → Bool
  | [] => true
  | [_] => true
  | (a, _) :: (b, y) :: r => decide (a < b) && risingFrom ((b, y) :: r)
/-- The canonical form: addresses strictly rising, and no cell equal to what its unlisted address reads as. -/
def Memory.wf (m : Memory) : Bool :=
  risingFrom m.cells && m.cells.all (fun x => x.2 != unlisted m.indet x.1)

def mergeByte (mask old new : Byte) : Byte := (new &&& mask) ||| (old &&& ~~~mask)

/-! ## Banks and quarters (R238, R242) -/

def banks0 (clus core : Nat) : Banks :=
  ⟨clus, core, Vector.replicate 4 0#2, vecOf 16 (fun q => BitVec.ofNat 64 (0x4000 * q * 4096)), Vector.replicate 4 []⟩
def State.banksOf (s : State) (clus core : Nat) : Banks :=
  (s.banks.find? (fun b => b.clus == clus && b.core == core)).getD (banks0 clus core)
def State.setBanks (s : State) (b : Banks) : State :=
  { s with banks := b :: s.banks.filter (fun x => !(x.clus == b.clus && x.core == b.core)) }
def Banks.mode (b : Banks) (n : Nat) : Nat := (b.modes.toList.getD n 0#2).toNat
def Banks.qf (b : Banks) (q : Nat) : Word64 := b.qfmt.toList.getD q 0#64
def Banks.fifo (b : Banks) (n : Nat) : List (Byte × Bool) := b.fifos.toList.getD n []

/-- Fields of a quarter register (R242); its reserved bits take no write (R9). -/
def qfmtMask : Word64 := 0x0000FFFFFFFFF0FF#64
def qFmt (x : Word64) : Nat := bits x.toNat 0 4
def qGeom (x : Word64) : Nat := bits x.toNat 4 3
def qRc (x : Word64) : Bool := x.getLsbD 7
def qDbase (x : Word64) : Nat := bits x.toNat 12 18
def qSbase (x : Word64) : Nat := bits x.toNat 30 18

def dieOf (clus : Nat) : Nat := clus / 8

/-! ## Homes, poison, L2 (R267 to R281) -/

/-- R267: addresses that memory has. -/
def paHbm (a : Nat) : Bool := decide (a < 0x0C000000000)
def paCold (a : Nat) : Bool := decide (0x20000000000 ≤ a ∧ a < 0x40000000000)
def homeDie (a : Nat) : Nat := a / 1024 % 12 / 3

def State.pagePoisoned (s : State) (a : Nat) : Bool := s.poison.contains (a / 4096)
/-- R279: the bitmap bit of a page is set, and with it the copy of every held translation. -/
def State.poisonPage (s : State) (a : Nat) : State :=
  let s := s.mapCores (fun c => { c with tlb := c.tlb.map (fun t =>
    if t.tier != 2 && decide (t.out / 4096 ≤ a / 4096 ∧ a / 4096 < (t.out + t.size) / 4096) && !t.bad.contains (a / 4096)
    then { t with bad := a / 4096 :: t.bad } else t) })
  if s.pagePoisoned a then s else { s with poison := a / 4096 :: s.poison }

def State.sectorAt (s : State) (die a : Nat) : Option L2Sector :=
  s.l2.find? (fun x => x.die == die && x.sector == a / 128)
def State.setSector (s : State) (x : L2Sector) : State :=
  { s with l2 := x :: s.l2.filter (fun y => !(y.die == x.die && y.sector == x.sector)) }
def State.dropSector (s : State) (die sector : Nat) : State :=
  { s with l2 := s.l2.filter (fun y => !(y.die == die && y.sector == sector)) }

def L2Sector.byte (x : L2Sector) (a : Nat) : Byte := x.data.extractLsb' (8 * (a % 128)) 8
def setByteOf (d : BitVec 1024) (i : Nat) (b : Byte) : BitVec 1024 :=
  let sh := 8 * (i % 128)
  (d &&& ~~~(0xFF#1024 <<< sh)) ||| (b.setWidth 1024 <<< sh)

/-- The byte at home. -/
def State.homeByte (s : State) (a : Nat) : Byte := s.mem.get a

/-- R270, R272: may the die's L2 serve this byte to a reader whose latest acquire was at `acq`? -/
def State.l2Serves (s : State) (die a : Nat) (acq : Nat) (noClean : Bool) : Option Byte :=
  match s.sectorAt die a with
  | none => none
  | some x => if x.dirty.getLsbD (a % 128) || (x.valid && !noClean && decide (acq ≤ x.fill)) then some (x.byte a) else none

/-- A byte as an agent of the die reads it (R270). -/
def State.seeByte (s : State) (die a : Nat) (acq : Nat) (noClean : Bool) : Byte :=
  match s.l2Serves die a acq noClean with
  | some b => b
  | none => s.homeByte a

/-- R270, R280: a sector is filled from home; clean bytes are replaced, dirty ones kept. -/
def State.fillSector (s : State) (die sector : Nat) (uncorrectable : Bool) : State :=
  let old := (s.sectorAt die (sector * 128)).getD ⟨die, sector, false, 0#128, false, 0, 0#1024⟩
  let d := (List.range 128).foldl (fun d i => if old.dirty.getLsbD i then d else setByteOf d i (s.homeByte (sector * 128 + i))) old.data
  let bad := uncorrectable || s.pagePoisoned (sector * 128)
  let s := if uncorrectable then s.poisonPage (sector * 128) else s
  s.setSector { old with valid := true, data := d, fill := s.beat, poison := (old.poison && old.dirty != 0#128) || bad }

/-- R269: a core store writes its bytes into the die's L2 and sets their dirty bits. -/
def State.l2Write (s : State) (die a : Nat) (mask v : Byte) : State :=
  let old := (s.sectorAt die a).getD ⟨die, a / 128, false, 0#128, false, 0, 0#1024⟩
  let prev := if old.dirty.getLsbD (a % 128) || old.valid then old.byte a else s.homeByte a
  s.setSector { old with
    data := setByteOf old.data (a % 128) (mergeByte mask prev v)
    dirty := old.dirty ||| (1#128 <<< (a % 128)) }

/-- R280: a store that writes all 128 bytes of a sector clears its poison bit. -/
def State.clearSectorPoison (s : State) (die sector : Nat) : State :=
  { s with l2 := s.l2.map (fun x => if x.die == die && x.sector == sector then { x with poison := false } else x) }

/-! ## The L1 (R239) -/

/-- A store of the core updates every valid line that it covers. -/
def Core.l1Store (c : Core) (a : Nat) (mask v : Byte) : Core :=
  { c with l1 := c.l1.map (fun l => if l.line == a / 128 then
      { l with data := setByteOf l.data (a % 128) (mergeByte mask (l.data.extractLsb' (8 * (a % 128)) 8) v) } else l) }
def Core.l1Find (c : Core) (a : Nat) : Option L1Line := c.l1.find? (fun l => l.line == a / 128)

/-- R239: the CACHE banks of a core, ascending. -/
def cacheBanks (b : Banks) : List Nat := (List.range 4).filter (fun n => b.mode n == 1)
/-- The way that a miss fills in a set: the next CACHE bank after the one filled last. -/
def nextWay (banks : List Nat) (last : Option Nat) : Option Nat :=
  match last with
  | none => banks.head?
  | some n => (banks.find? (fun b => decide (b > n))).or banks.head?
def Core.l1Fill (c : Core) (b : Banks) (line : Nat) (data : BitVec 1024) (poison : Bool) : Core :=
  let set := line % 512
  match nextWay (cacheBanks b) ((c.l1last.find? (fun x => x.1 == set)).map Prod.snd) with
  | none => c
  | some w => { c with
      l1 := ⟨w, line, data, poison⟩ :: c.l1.filter (fun l => !(l.bank == w && l.line % 512 == set))
      l1last := (set, w) :: c.l1last.filter (fun x => x.1 != set) }

/-! ## Scratchpad bytes (R193, R245) -/

def blockOf (clus core off : Nat) : Nat := spadKey clus core off / 128
def State.blockPoisoned (s : State) (clus core off : Nat) : Bool := s.blocks.contains (blockOf clus core off)

/-- Bytes of a write grouped by 128-byte block: a write to a whole block clears its poison bit, and a poisoned write sets
the bit of every block it touches (R245). -/
def State.blockPoison (s : State) (ws : List ByteW) (poisoned : Bool) : State :=
  let ks := (ws.filterMap (fun w => match w.loc with | .spad c k o => some (spadKey c k o) | _ => none))
  let bs := (ks.map (fun k => k / 128)).eraseDups
  if poisoned then { s with blocks := (bs ++ s.blocks).eraseDups }
  else { s with blocks := s.blocks.filter (fun b => !(bs.contains b && decide ((ks.eraseDups.filter (fun k => k / 128 == b)).length = 128))) }

/-- Write masked bytes to scratchpad. -/
def State.spadWrite (s : State) (ws : List ByteW) : State :=
  { s with mem := ws.foldl (fun m w => match w.loc with
      | .spad c k o => m.put (spadKey c k o) (mergeByte w.mask (m.get (spadKey c k o)) w.val)
      | _ => m) s.mem }

end Sys2Proof.Machine
end

