-- ==== Sys2Proof/Machine/Trans.lean ====
section
/-! DEFINITION. Two-stage translation (R273 to R278) and the regions that accesses touch (R55, R63, R64, R196, R197, R242,
R394). -/
namespace Sys2Proof.Machine

/-- R277: TRAPAUX of a translation fault. -/
def auxTrans (addr : Nat) (f : TFault) : Word64 :=
  BitVec.ofNat 64 (addr % 2 ^ 56 * 256 + flag64 f.stg2 7 + f.level * 16 + f.detail)

def psSize (ps : Nat) : Nat :=
  match ps with | 0 => 2 ^ 12 | 1 => 2 ^ 16 | 2 => 2 ^ 21 | 3 => 2 ^ 25 | 4 => 2 ^ 30 | _ => 2 ^ 34
/-- R273: page sizes of a leaf's level, and the bits below its index. -/
def psOk (level ps : Nat) : Bool :=
  match level with | 2 => ps == 4 || ps == 5 | 1 => ps == 2 || ps == 3 | 0 => ps == 0 || ps == 1 | _ => false
def levelShift (level : Nat) : Nat := match level with | 4 => 48 | 3 => 39 | 2 => 30 | 1 => 21 | _ => 12
def levelIndex (level a : Nat) : Nat := if level == 4 then a / 2 ^ 48 % 256 else a / 2 ^ levelShift level % 512
def grouped (ps : Nat) : Bool := ps == 1 || ps == 3 || ps == 5

/-- A table entry at a physical address; `none` when it is read poisoned (R277 detail 7). -/
def State.entryAt (s : State) (pa : Nat) : Option Nat :=
  if s.pagePoisoned pa then none else some (leNat ((List.range 8).map (fun i => s.homeByte (pa + i))))

/-- A leaf, as either stage gives it: entry, page base of the input address, page size, level. -/
structure Leaf where
  e : Nat
  base : Nat
  size : Nat
  level : Nat
  deriving DecidableEq, Repr

/-- Walk of one stage from a level downward. `rd` reads the entry at a table address plus offset; `ptrOk` and `leafOk` are
the must-be-zero tests; `outOf` the output address of an entry. -/
def walkFrom (rd : Nat → Except TFault Nat) (stg2 : Bool) (ptrOk leafOk : Nat → Bool) (outOf : Nat → Nat) (a : Nat) :
    Nat → Nat → Except TFault Leaf
  | level, table =>
    let bad := fun (d : Nat) => (Except.error ⟨stg2, level, d⟩ : Except TFault Leaf)
    match rd (table + 8 * levelIndex level a) with
    | .error f => .error { f with level := if f.level == 7 then level else f.level }
    | .ok e =>
      if !e.testBit 0 then bad 2
      else if e.testBit 1 then
        let ps := bits e 5 3
        if !psOk level ps || !leafOk e || outOf e % psSize ps != 0 then bad 3
        else if grouped ps then
          let g := levelIndex level a / 16 * 16
          if (List.range 16).all (fun i => match rd (table + 8 * (g + i)) with | .ok x => x == e | .error _ => false) then
            .ok ⟨e, a / psSize ps * psSize ps, psSize ps, level⟩
          else bad 4
        else .ok ⟨e, a / psSize ps * psSize ps, psSize ps, level⟩
      else if !ptrOk e then bad 3
      else match level with
        | 0 => bad 3
        | n + 1 => walkFrom rd stg2 ptrOk leafOk outOf a n (bits e 12 44 * 4096)

def State.jobOf (s : State) (job : Nat) : Option Job := s.pk.jobs.find? (fun j => j.job == job)
def State.rankOf (s : State) (job rank : Nat) : Option Rank := s.pk.ranks.find? (fun r => r.job == job && r.rank == rank)

/-- Stage 2 (R275): the leaf of a job address. -/
def State.walk2 (s : State) (root a : Nat) : Except TFault Leaf :=
  walkFrom (fun p => match s.entryAt p with | some e => .ok e | none => .error ⟨true, 7, 7⟩) true
    (fun e => e % 4096 == 1 && bits e 42 22 == 0) (fun e => bits e 42 10 == 0 && bits e 8 4 == 0 && !e.testBit 4)
    (fun e => bits e 12 30 * 4096) a 4 root

/-- Physical address of a job address on this module. -/
def leafPa (l : Leaf) (a : Nat) : Nat := bits l.e 12 30 * 4096 + (a - l.base)
def leafModule (l : Leaf) : Nat := bits l.e 52 12

/-- A stage-1 table entry where stage 2 places it (R273, R275): in another module it is what that module answers, a free value of
the beat (log 31). -/
def State.entryOf (s : State) (own : Nat) (l : Leaf) (p : Nat) : Option Nat :=
  if leafModule l == own then s.entryAt (leafPa l p) else Config.farEntry (leafModule l) (leafPa l p) s.beat

/-- Stage 1 (R274): the leaf of a rank-private address; its tables are read through stage 2. -/
def State.walk1 (s : State) (own root1 root2 a : Nat) : Except TFault Leaf :=
  walkFrom (fun p => match s.walk2 root2 p with
      | .error f => .error f
      | .ok l => match s.entryOf own l p with | some e => .ok e | none => .error ⟨false, 7, 7⟩) false
    (fun e => e % 4096 == 1 && bits e 56 8 == 0) (fun e => bits e 10 2 != 3) (fun e => bits e 12 44 * 4096) a 4 root1

/-- The combined translation of a rank-private address (R275, R277, R278). -/
def State.translate (s : State) (job rank a : Nat) : Except TFault Tlb :=
  match s.rankOf job rank, s.jobOf job with
  | some r, some j =>
    match s.walk1 j.modnum r.root1 j.root2 a with
    | .error f => .error f
    | .ok l1 =>
      let oa := bits l1.e 12 44 * 4096 + (a - l1.base)
      let tier := bits l1.e 10 2
      let mk := fun (va size out module : Nat) (rd wr : Bool) =>
        (⟨va, size, out, module, tier, bits l1.e 60 4, bits l1.e 57 3, l1.e.testBit 56, l1.e.testBit 8, l1.e.testBit 9,
          l1.e.testBit 2 && rd, l1.e.testBit 3 && wr, l1.e.testBit 4,
          if tier == 2 || module != j.modnum then [] else s.poison.filter (fun p => decide (out / 4096 ≤ p ∧ p < (out + size) / 4096)), l1.level⟩ : Tlb)
      if tier == 2 then
        if oa.testBit 55 then .ok (mk l1.base l1.size (oa - (a - l1.base)) j.modnum true true)
        else .error ⟨false, l1.level, 5⟩
      else match s.walk2 j.root2 oa with
        | .error f => .error f
        | .ok l2 =>
          let size := min l1.size l2.size
          let pa := leafPa l2 oa
          if (if tier == 0 then !paHbm pa else !paCold pa) then .error ⟨true, l2.level, 5⟩
          else .ok (mk (a / size * size) size (pa / size * size) (leafModule l2) (l2.e.testBit 2) (l2.e.testBit 3))
  | _, _ => .error ⟨false, 7, 2⟩

/-- The held translation of an address (R278). -/
def Core.held? (c : Core) (a : Nat) : Option Tlb := c.tlb.find? (fun t => decide (t.va ≤ a ∧ a < t.va + t.size))
/-- A flat target rank above NRANK (R276, R277): the level is that of the TIER 2 leaf which named it, 7 where none did. -/
def Core.rankFault (c : Core) (a : Nat) : TFault := ⟨false, match c.held? a with | some t => t.level | none => 7, 6⟩
def Core.hold (c : Core) (t : Tlb) : Core := { c with tlb := (t :: c.tlb.filter (fun x => x.va != t.va)).take 256 }

/-! ## Regions -/

/-- What an address finds: its format, geometry, class, data base, and how bytes of it are reached. -/
structure Reg where
  fmt : Nat
  geom : Nat
  rc : Bool
  db : Nat
  sb : Nat
  r : Bool
  w : Bool
  d : Bool
  spad : Bool
  /-- A page, or a bank in SPAD mode (R238). -/
  open_ : Bool
  /-- Quarter register value, or page attributes, that a span must keep (R197). -/
  same : Nat
  deriving DecidableEq, Repr

/-- Why an access cannot be formed. -/
inductive AFail where
  | fault (cause detail addr : Nat)
  | trans (addr : Nat) (f : TFault)
  | miss (addr : Nat)
  | flat
  deriving DecidableEq, Repr

/-- Window offset of an address (R192). -/
def winOff (a : Nat) : Nat := a - spadBase
def winCore (a : Nat) : Nat := winOff a / 0x40000
def winIn (a : Nat) : Nat := winOff a % 0x40000

/-- The region of a byte address (R196, R242). -/
def State.regionOf (s : State) (c : Core) (a : Nat) : Except AFail Reg :=
  match pathOf c a with
  | .out => .error (.trans a ⟨false, 7, 1⟩)
  | .unmapped => .error (.fault 0x08 9 a)
  | .flat => .error .flat
  | .priv =>
    match c.held? a with
    | some t =>
      if t.tier == 2 then .error .flat
      else .ok ⟨t.fmt, t.geom, t.rc, t.va, t.va + t.size, t.r, t.w, t.d, false, true,
        t.fmt * 256 + t.geom * 16 + flag64 t.rc 1 + flag64 t.d 0⟩
    | none => match c.walkFault with
      | some (p, f) => if p == a / 4096 then .error (.trans a f) else .error (.miss a)
      | none => .error (.miss a)
  | _ =>
    let b := s.banksOf c.pclus (winCore a)
    let o := winIn a
    let q := b.qf (o / 0x4000)
    let base := spadBase + winCore a * 0x40000
    .ok ⟨qFmt q, qGeom q, qRc q, base + qDbase q, base + qSbase q, true, true, false, true, b.mode (o / 0x10000) == 0, q.toNat⟩

/-- The number of this module in a job (R322). -/
def State.ownModule (s : State) (job : Nat) : Nat := match s.jobOf job with | some j => j.modnum | none => 0
/-- Where a byte lies. -/
def State.locOf (s : State) (c : Core) (a : Nat) : Loc :=
  if a < spadBase then
    match c.held? a with
    | some t =>
      if t.tier == 2 then .flat ((t.out + (a - t.va)) / 2 ^ 39 % 65536) ((t.out + (a - t.va)) % 2 ^ 39)
      else if t.module == s.ownModule c.job then .pa (t.out + (a - t.va)) else .far t.module (t.out + (a - t.va))
    | none => .pa 0
  else if a < 2 ^ 55 then .spad c.pclus (winCore a) (winIn a)
  else .flat (a / 2 ^ 39 % 65536) (a % 2 ^ 39)

/-- R196: bytes of an element; 0 for T6. -/
def elemSize (fmt : Nat) (t : Ty) : Nat :=
  match fmt with | 0 => t.width / 8 | 1 => 4 | 2 => 2 | 3 => 1 | 4 => 1 | 5 => 0 | 6 => 1 | 7 => 8 | _ => 4

/-- R196: the type suits the format. -/
def typeFits (fmt : Nat) (t : Ty) : Bool :=
  match fmt with
  | 0 => t != .t6
  | 7 => t == .c32
  | 6 => t.isInt
  | 8 => t.isInt
  | _ => t.isFloat || t == .t8a || t == .t8b || t == .t6

/-- R63: format and geometry of a region. -/
def fmtOk (fmt geom : Nat) : Bool :=
  match Fmt.ofCode fmt with
  | none => false
  | some f => (geomSize geom).isSome && f.geomOk geom

/-- R394: the index of the element that an address names, counted from a data base; below it the index is negative. -/
def elemIndex (fmt : Nat) (t : Ty) (db a : Nat) : Option Int :=
  let d : Int := (a : Int) - db
  if fmt == 5 then (if d % 3 == 0 then some (4 * (d / 3)) else none)
  else let b : Int := elemSize fmt t
    if (a : Int) % b == 0 && d % b == 0 then some (d / b) else none
/-- The first byte that holds bits of an element, and the bit of that byte where it starts (R55). -/
def elemAddr (fmt : Nat) (t : Ty) (db : Nat) (i : Int) : Int × Nat :=
  if fmt == 5 then let k := 6 * (i % 4).toNat; ((db : Int) + 3 * (i / 4) + (k / 8 : Nat), k % 8)
  else ((db : Int) + elemSize fmt t * i, 0)
/-- How many bytes hold bits of an element that starts at a bit. -/
def elemBytes (fmt : Nat) (t : Ty) (sh : Nat) : Nat := if fmt == 5 then (sh + 13) / 8 else elemSize fmt t
def elemWidth (fmt : Nat) (t : Ty) : Nat := if fmt == 5 then 6 else 8 * elemSize fmt t

/-- Checks of R63, R192, R196 and R197 on the region of one element. -/
def regCheck (g : Reg) (t : Ty) (rd wr : Bool) (a : Nat) : Except AFail Unit :=
  if !g.open_ then .error (.fault 0x08 2 a)
  else if (rd && !g.r) || (wr && !g.w) then .error (.fault 0x08 6 a)
  else if !fmtOk g.fmt g.geom then .error (.fault 0x08 4 a)
  else if !typeFits g.fmt t then .error (.fault 0x08 8 a)
  else if g.geom != 0 && (wr || t.isInt) then .error (.fault 0x08 4 a)
  else if g.spad && decide (a < g.db) then .error (.fault 0x08 4 a)
  else .ok ()

/-- The place of the scale byte of element `i` of the element at `at_` (R64, R242). -/
def State.scaleLoc (s : State) (c : Core) (g : Reg) (i at_ : Nat) : Except AFail (Option (Nat × Loc)) :=
  match geomSize g.geom with
  | some (n + 1) =>
    let a := g.sb + i / (n + 1)
    match s.regionOf c a with
    | .error f => if g.spad then .error (.fault 0x08 4 at_) else .error f
    | .ok h =>
      if g.spad && (!h.spad || !h.open_ || h.fmt != 0 || winCore a != winCore g.db) then .error (.fault 0x08 4 at_)
      else if !h.r then .error (.fault 0x08 6 a)
      else .ok (some (a, s.locOf c a))
  | _ => .ok none

/-- Rank of a failure among those of one slot (R392); lower comes first. A miss is a wait (R278): it comes first, and in timetabled
code, where it is a timing fault, last. -/
def AFail.order (tm : Bool) : AFail → Nat
  | .miss _ => if tm then 9 else 0
  | .trans _ _ => 1
  | .fault 0x08 _ _ => 2
  | .fault 0x0E _ _ => 3
  | _ => 4
/-- The failure that ranks first, the earliest of equals. -/
def firstFail (tm : Bool) (fs : List AFail) : Option AFail :=
  fs.foldl (fun b f => match b with | none => some f | some g => if f.order tm < g.order tm then some f else some g) none
def failsOf {α : Type} (xs : List (Except AFail α)) : List AFail :=
  xs.filterMap (fun x => match x with | .ok _ => none | .error f => some f)
/-- All results, or of several failures the one that ranks first, in the lowest lane (R199). -/
def collect {α : Type} (tm : Bool) (xs : List (Except AFail α)) : Except AFail (List α) :=
  match firstFail tm (failsOf xs) with
  | some f => .error f
  | none => .ok (xs.filterMap (fun x => match x with | .ok y => some y | .error _ => none))

/-- The format code that stands for the format of a target page, which the issuer does not know (R276). -/
def fmtFlat : Nat := 9
/-- An element that lies in a TIER 2 page: it goes to its target as an access of its own (R200, R276). -/
def flatElem (t : Ty) (lane addr : Nat) (l : Loc) : Elem :=
  match l with
  | .flat k o => ⟨lane, addr, (List.range (t.width / 8)).map (fun i => .flat k (o + i)), 0, t.width, fmtFlat, 0, false, none⟩
  | _ => ⟨lane, addr, [], 0, t.width, fmtFlat, 0, false, none⟩
def rawReg : Reg := ⟨0, 0, false, 0, 0, true, true, false, false, true, 0⟩

/-- Where the access counts from, and how: a span counts every element in the region of its base (R394, R199), and keeps one bank and
one quarter register value, or equal page attributes (R197); the lanes of a gather lie each in its own region (R200). -/
structure Walk where
  c : Core
  /-- Formats that the instruction accepts beyond those of R196 (R198, R204, R205), and whether its elements keep to one kilobyte of
  memory (R205), that of an address. -/
  ok : Reg → Bool
  line : Option Nat
  /-- The base: an address of the span, and its region. -/
  at_ : Nat
  g : Reg
  t : Ty
  rd : Bool
  wr : Bool
  span : Bool

/-- The regions of the first and the last byte of an element, where they can differ. -/
def State.edges (s : State) (w : Walk) (a n : Nat) : List (Nat × Except AFail Reg) :=
  (a, s.regionOf w.c a) :: (if a / 4096 == (a + n - 1) / 4096 then [] else [(a + n - 1, s.regionOf w.c (a + n - 1))])

/-- Does a byte at `a` in region `h` break the rule of a span, or of an element, that has a byte at `a0` in region `h0` (R197)? -/
def breaks (h0 h : Reg) (a0 a : Nat) : Bool :=
  h.same != h0.same || h.spad != h0.spad || (h0.spad && winOff a / 0x10000 != winOff a0 / 0x10000)

/-- Element `i`, counted from the base: checked and placed (R196, R197, R199, R200). -/
def State.elemOf (s : State) (w : Walk) (lane : Nat) (i : Int) : Except AFail (Elem × Reg) :=
  let p := elemAddr w.g.fmt w.t w.g.db i
  if p.1 < 0 ∨ p.1 ≥ 2 ^ 56 then .error (.trans (wrap 56 p.1) ⟨false, 7, 1⟩)
  else
    let a := p.1.toNat
    match s.regionOf w.c a with
    | .error .flat =>
      if w.span then .error (.fault 0x08 3 a)
      else match w.c.held? a with
        | some u =>
          if (match s.locOf w.c a with | .flat k _ => decide (k > bits w.c.rankid.toNat 16 16) | _ => false) then .error (.trans a (w.c.rankFault a))
          else if (w.rd && !u.r) || (w.wr && !u.w) then .error (.fault 0x08 6 a)
          else .ok (flatElem w.t lane a (s.locOf w.c a), { rawReg with d := u.d })
        | none => .error (.miss a)
    | .error f => .error f
    | .ok h0 =>
      let h := if w.span then { w.g with open_ := h0.open_, r := h0.r, w := h0.w } else h0
      let n := elemBytes h.fmt w.t p.2
      let es := s.edges w a n
      let span := es.map (fun x => match x.2 with
        | .ok y => if breaks (if w.span then w.g else h0) y (if w.span then w.at_ else a) x.1 then Except.error (.fault 0x08 3 a) else .ok ()
        | .error .flat => .error (.fault 0x08 3 a)
        | .error f => .error f)
      let own : List (Except AFail Unit) := [if !w.ok h then .error (.fault 0x08 8 a) else .ok (),
        if !h0.spad && (match w.line with | some b => a / 1024 != b / 1024 | none => false) then .error (.fault 0x08 3 a) else .ok ()]
      let chk := es.map (fun x => match x.2 with
        | .ok y => regCheck (if w.span then { w.g with open_ := y.open_, r := y.r, w := y.w } else y) w.t w.rd w.wr x.1
        | .error _ => .ok ())
      let j : Option Int := if w.span then some i
        else if h.fmt == 5 && w.g.fmt == 5 then
          let b := 6 * (i % 4).toNat / 8
          (elemIndex 5 w.t h.db (a - b)).map (fun x => x + i % 4)
        else if p.2 != 0 then none else elemIndex h.fmt w.t h.db a
      let idx : Except AFail Unit := match j with | none => .error (.fault 0x0E 7 a) | some _ => .ok ()
      let sc : Except AFail (Option (Nat × Loc)) := if fmtOk h.fmt h.geom then s.scaleLoc w.c h (j.getD 0).toNat a else .ok none
      match firstFail w.c.timetabled (failsOf span ++ failsOf chk ++ failsOf own ++ failsOf [idx] ++ failsOf [sc]) with
      | some f => .error f
      | none => .ok (⟨lane, a, (List.range n).map (fun k => s.locOf w.c (a + k)), p.2, elemWidth h.fmt w.t, h.fmt, h.geom, h.rc,
          match sc with | .ok x => x | .error _ => none⟩, h0)

/-- The region in which an access at `a` counts (R394), with an address in it. Where the byte at `a` has none and lane 0 does not
access it, that of the first active element (log 31). -/
def State.baseOf (s : State) (c : Core) (a : Nat) (t : Ty) (gather : Bool) (lanes : List Nat) : Except AFail (Nat × Reg) :=
  match s.regionOf c a with
  | .ok g => .ok (a, g)
  | .error f =>
    match f, lanes.head? with
    | .flat, _ => .error f
    | .miss _, _ => .error f
    | _, none => .error f
    | _, some k =>
      if gather || k == 0 then .error f
      else match [elemSize 0 t, 1, 2, 4, 8].findSome? (fun b => match s.regionOf c (a + b * k) with
          | .ok g => if elemSize g.fmt t == b then some (a + b * k, g) else none
          | .error _ => none) with
        | some x => .ok x
        | none => (match s.regionOf c (a + elemSize 0 t * k) with | .error x => .error x | .ok _ => .error f)

/-- The element index that an address names, rounded down where it is misaligned. -/
def floorIndex (g : Reg) (t : Ty) (a : Nat) : Int :=
  let d : Int := (a : Int) - g.db
  if g.fmt == 5 then 4 * (d / 3) else d / (max 1 (elemSize g.fmt t) : Nat)

/-- An access to elements: address, type, reads and writes, a gather's own regions, active lanes and their indexes from the base, and the
limits of the instruction. -/
structure Access where
  a : Nat
  t : Ty
  rd : Bool
  wr : Bool
  gather : Bool
  lanes : List Nat
  idx : Nat → Nat
  ok : Reg → Bool
  oneLine : Bool

/-- Addresses of the active lanes; where no region says how to count, by the size of the type (log 31). -/
def State.laneAddrs (s : State) (c : Core) (x : Access) : List Nat :=
  match s.baseOf c x.a x.t x.gather x.lanes with
  | .ok (_, g) => x.lanes.map (fun k => (elemAddr g.fmt x.t g.db (floorIndex g x.t x.a + x.idx k)).1.toNat + (x.a - g.db) % (if g.fmt == 5 then 3 else max 1 (elemSize g.fmt x.t)))
  | .error _ => x.lanes.map (fun k => x.a + x.t.width / 8 * x.idx k)

/-- R199, R200: the elements of an access, for the active lanes. Where its address is misaligned every lane is, and the causes that rank
before it come first (R392). -/
def State.accessOf (s : State) (c : Core) (x : Access) : Except AFail (List (Elem × Reg)) :=
  match s.baseOf c x.a x.t x.gather x.lanes with
  | .error f => .error f
  | .ok (b, g) =>
    let low := (s.laneAddrs c x).headD x.a
    let w : Walk := ⟨c, x.ok, if x.oneLine then some low else none, b, g, x.t, x.rd, x.wr, !x.gather⟩
    let i0 := floorIndex g x.t x.a
    let r := collect c.timetabled (x.lanes.map (fun k => s.elemOf w k (i0 + x.idx k)))
    if (elemIndex g.fmt x.t g.db x.a).isSome then r
    else match r with
      | .ok _ => .error (.fault 0x0E 7 low)
      | .error f => if f.order c.timetabled < (AFail.fault 0x0E 7 low).order c.timetabled then .error f else .error (.fault 0x0E 7 low)

/-- One element at an address (R394). -/
def State.oneElem (s : State) (c : Core) (a : Nat) (t : Ty) (rd wr : Bool) : Except AFail (List (Elem × Reg)) :=
  s.accessOf c ⟨a, t, rd, wr, false, [0], fun k => k, fun _ => true, false⟩

end Sys2Proof.Machine
end

