-- ==== Sys2Proof/Machine/Arbiter.lean ====
section
/-! DEFINITION. The cores of a launch, and the arbiter of a seat (R303, R304, R306, R329). -/
namespace Sys2Proof.Machine

/-! ## The cores of a launch -/

/-- A core that takes part in a launch on its seat (R297, R298). -/
def Core.live (c : Core) : Bool :=
  match c.run with
  | .armed _ => true
  | .running => true
  | .stopping => true
  | .halted => true
  | _ => false
/-- A core that can still issue for its launch. -/
def Core.issuing (c : Core) : Bool := match c.run with | .armed _ => true | .running => true | _ => false

def Core.ofRank (c : Core) (job rank : Nat) : Bool := c.live && c.job == job && c.rank == rank
def State.footCores (s : State) (job rank : Nat) : List Core := s.allCores.filter (fun c => c.ofRank job rank)
def State.mapFoot (s : State) (job rank : Nat) (f : Core → Core) : State :=
  s.mapCores (fun c => if c.ofRank job rank then f c else c)

/-- A core that holds a place of the seat, its context saved or not. -/
def Core.onSeat (c : Core) : Bool := c.live || (match c.run with | .saved _ _ _ => true | _ => false)
def State.seatCores (s : State) (job rank : Nat) : List Core := s.allCores.filter (fun c => c.onSeat && c.job == job && c.rank == rank)

def State.launchOf (s : State) (job rank : Nat) : Option Launch := s.pk.launches.find? (fun l => l.job == job && l.rank == rank)
def State.setLaunch (s : State) (l : Launch) : State :=
  { s with pk := { s.pk with launches := s.pk.launches.map (fun x => if x.job == l.job && x.rank == l.rank then l else x) } }

/-! ## Priorities (R303) -/

/-- Footprint clusters of a code (R290). -/
def fpSize (fpc : Nat) : Nat := 2 ^ fpc

/-- The seat of a rank: base cluster and footprint code. -/
def State.seatOf (s : State) (job rank : Nat) : Option (Nat × Nat) :=
  match s.rankOf job rank with
  | some r => r.base.map (fun b => (b, r.fpc))
  | none => none

/-- The slice of a seat; a seat that no record names has the shortest one. -/
def State.sliceOf (s : State) (base fpc : Nat) : Nat :=
  match s.pk.seats.find? (fun x => x.base == base && x.fpc == fpc) with | some x => x.slice | none => 4096

def Launch.w (l : Launch) (beat : Nat) : Nat := match l.waiting with | some b => beat - b | none => 0
/-- Effective priority while it waits (R303). -/
def Launch.e (l : Launch) (beat S : Nat) : Nat := min 15 (l.prio + l.w beat / S)

/-- Is `x` before `y` in the arbiter's order: urgent launches first (R306), then e, w and the queue number (R304)? -/
def arbBefore (beat S : Nat) (x y : Launch) : Bool :=
  if x.urg != y.urg then x.urg
  else if x.e beat S != y.e beat S then decide (x.e beat S > y.e beat S)
  else if x.w beat != y.w beat then decide (x.w beat > y.w beat)
  else decide (x.q < y.q)

def bestOf (beat S : Nat) : List Launch → Option Launch
  | [] => none
  | x :: r => match bestOf beat S r with
    | some y => if arbBefore beat S y x then some y else some x
    | none => some x

/-- Contexts waiting on a seat, those that a throttled package holds back left out (R304, R329); a decision at a YIELD
(`strict`) does not see one that becomes waiting in its beat. -/
def State.waitingOn (s : State) (strict : Bool) (base fpc : Nat) : List Launch :=
  if s.pk.throtHold then []
  else s.pk.launches.filter (fun l =>
    (match l.waiting with | some b => !strict || decide (b < s.beat) | none => false) && l.killed.isNone &&
    s.seatOf l.job l.rank == some (base, fpc) && l.chosen.isNone &&
    !(s.pk.throt == 2 && decide (l.w s.beat < s.sliceOf base fpc)))

/-- Does an urgent request of the core take effect at a YIELD (R234)? With a LOOPX loop active it waits for a pass boundary of the loop. -/
def Core.urgentYields (c : Core) : Bool := c.urgent && (c.hm || !lstgAct c.a.lstg)

/-- R304, R306: does the arbiter take the seat from the context of `c` at a YIELD in this beat? The winner, when it is a
waiting context. -/
def State.decision (s : State) (c : Core) : Bool × Option Launch :=
  match s.launchOf c.job c.rank, s.seatOf c.job c.rank with
  | some l, some (b, f) =>
    let S := s.sliceOf b f
    let ws := s.waitingOn true b f
    let cand := ws.filter (fun x => decide (x.run ≤ S) || x.e s.beat S == 15)
    if l.timetabled then (false, none)
    else if c.urgentYields then (true, bestOf s.beat S (ws.filter (fun x => x.urg)))
    else match bestOf s.beat S cand with
      | none => (s.pk.throt == 2, none)
      | some best =>
        let e := best.e s.beat S
        if decide (e > l.prio) || (decide (s.beat - l.started ≥ S) && decide (e ≥ l.prio)) || s.pk.throt == 2 then (true, some best)
        else (false, none)
  | _, _ => (false, none)

/-- R304: only a YIELD of the footprint's lowest-numbered running core counts. -/
def State.lowestCore (s : State) (c : Core) : Bool :=
  !(s.footCores c.job c.rank).any (fun d => (match d.run with | .running => true | _ => false) && decide (d.coreid < c.coreid))

/-- Does a YIELD of the core switch its context out? In a drain none does: the core leaves at the end of the drain (R234). -/
def State.yields (s : State) (c : Core) : Bool :=
  c.drain.isNone && (c.switchReq || c.urgentYields || (s.lowestCore c && (s.decision c).1))

/-- The switch that the lowest core's YIELD decides (R100, R304): the other cores leave at their YIELD of this beat, the
context waits from now on, and the winner is next. -/
def State.switchFrom (s : State) (c : Core) : State :=
  if c.switchReq || !(s.lowestCore c || c.urgentYields) then s
  else
    let win := (s.decision c).2
    let s := s.mapFoot c.job c.rank (fun x => { x with switchReq := true })
    let s := match s.launchOf c.job c.rank with
      | some l => s.setLaunch { l with waiting := some s.beat }
      | none => s
    match win with
    | some w => s.setLaunch { w with waiting := none, chosen := some s.beat }
    | none => s

/-- A seat whose context has ended: the arbiter chooses at once among all waiting contexts (R304). -/
def State.chooseNext (s : State) (base fpc : Nat) : State :=
  if s.pk.launches.any (fun l => l.chosen.isSome && s.seatOf l.job l.rank == some (base, fpc)) then s
  else match bestOf s.beat (s.sliceOf base fpc) (s.waitingOn false base fpc) with
    | some w => s.setLaunch { w with waiting := none, chosen := some s.beat }
    | none => s

end Sys2Proof.Machine
end

