-- ==== Sys2Proof/Machine/Scalar.lean ====
section
/-! DEFINITION. Scalar integer, address, bitfield and move operations (R83 to R87), with their direct forms (R36, R37). -/
namespace Sys2Proof.Machine

abbrev Result := Host.Outcome State Fault Refusal

/-- The exact integer result of a two-source operation (R83), from `a`, `b` read by the type. -/
def intOut (e : Env) (opc : Nat) (o : TOp) (x : Int) : Out :=
  let taint := widest [taintOf e.a o.sa, if o.lk == 0#4 then taintOf e.a o.sb else 0]
  if o.md.getLsbD 0 then let r := satRes o.t x; scalarOut e opc o r.1 r.2 taint
  else scalarOut e opc o (intRes o.t x) 0#8 taint

/-- A result of bits that is reduced and extended by the type, without `.sat` (R83). -/
def bitOut (e : Env) (opc : Nat) (o : TOp) (x : Int) (fl : Flags8 := 0#8) : Out :=
  let taint := widest [taintOf e.a o.sa, if o.lk == 0#4 then taintOf e.a o.sb else 0]
  scalarOut e opc o (intRes o.t x) fl taint

/-- A 64-bit result written as it is. -/
def rawOut (e : Env) (opc : Nat) (o : TOp) (x : Word64) (fl : Flags8 := 0#8) : Out :=
  let taint := widest [taintOf e.a o.sa, if o.lk == 0#4 then taintOf e.a o.sb else 0]
  scalarOut e opc o x fl taint

/-- a and b of R83. -/
def iA (e : Env) (o : TOp) : Int := o.t.intOf (srcA e.a o).toNat
def iB (e : Env) (o : TOp) : Int := o.t.intOf (srcB e.a o).toNat
/-- a[w-1:0] and b[w-1:0] read unsigned. -/
def uA (e : Env) (o : TOp) : Nat := (srcA e.a o).toNat % 2 ^ o.t.width
def uB (e : Env) (o : TOp) : Nat := (srcB e.a o).toNat % 2 ^ o.t.width
/-- sh of R83. -/
def shOf (e : Env) (o : TOp) : Nat := (srcB e.a o).toNat % o.t.width

/-- R83: a[w-1:0] rotated left. -/
def rotl (w x sh : Nat) : Nat := (x * 2 ^ sh) % 2 ^ w + x / 2 ^ (w - sh)
/-- Zeros above the highest set bit of a w-bit value. -/
def clz (w x : Nat) : Nat := if x == 0 then w else w - 1 - Nat.log2 x
def ctz (w x : Nat) : Nat := if x == 0 then w else trailing w x
def popc (w x : Nat) : Nat := ((List.range w).filter (fun i => x.testBit i)).length
def brev (w x : Nat) : Nat := (List.range w).foldl (fun y j => if x.testBit j then y + 2 ^ (w - 1 - j) else y) 0
def bswap (w x : Nat) : Nat := (List.range (w / 8)).foldl (fun y j => y + bits x (8 * j) 8 * 2 ^ (w - 8 - 8 * j)) 0

def opAdd (o : TOp) (e : Env) : Out := intOut e 0x00 o (iA e o + iB e o)
def opSub (o : TOp) (e : Env) : Out := intOut e 0x01 o (iA e o - iB e o)
def opAddsh (o : TOp) (e : Env) : Out := bitOut e 0x02 o (iA e o + iB e o * (2 ^ (o.mdN % 8) : Nat))
def opMul (o : TOp) (e : Env) : Out := intOut e 0x03 o (iA e o * iB e o)
def opMulh (o : TOp) (e : Env) : Out := bitOut e 0x04 o ((iA e o * iB e o) / ((2 ^ o.t.width : Nat) : Int))
/-- R84: division rounds toward zero; division by zero gives all ones and DZ. -/
def opDiv (o : TOp) (e : Env) : Out :=
  if iB e o == 0 then bitOut e 0x05 o (-1) fDZ else bitOut e 0x05 o ((iA e o).tdiv (iB e o))
def opRem (o : TOp) (e : Env) : Out :=
  if iB e o == 0 then bitOut e 0x06 o (iA e o) fDZ else bitOut e 0x06 o ((iA e o).tmod (iB e o))
def opAbs (o : TOp) (e : Env) : Out := intOut e 0x07 o ((iA e o).natAbs : Int)
def opAnd (o : TOp) (e : Env) : Out := bitOut e 0x08 o ((srcA e.a o &&& srcB e.a o).toNat : Int)
def opOr (o : TOp) (e : Env) : Out := bitOut e 0x09 o ((srcA e.a o ||| srcB e.a o).toNat : Int)
def opXor (o : TOp) (e : Env) : Out := bitOut e 0x0A o ((srcA e.a o ^^^ srcB e.a o).toNat : Int)
def opAndn (o : TOp) (e : Env) : Out := bitOut e 0x0B o ((srcA e.a o &&& ~~~(srcB e.a o)).toNat : Int)
def opShl (o : TOp) (e : Env) : Out := bitOut e 0x0C o ((uA e o * 2 ^ shOf e o : Nat) : Int)
def opShr (o : TOp) (e : Env) : Out := bitOut e 0x0D o ((uA e o / 2 ^ shOf e o : Nat) : Int)
def opSar (o : TOp) (e : Env) : Out := bitOut e 0x0E o (signedOf o.t.width (uA e o) / ((2 ^ shOf e o : Nat) : Int))
def opRol (o : TOp) (e : Env) : Out := bitOut e 0x0F o ((rotl o.t.width (uA e o) (shOf e o) : Nat) : Int)
def opMin (o : TOp) (e : Env) : Out := bitOut e 0x10 o (min (iA e o) (iB e o))
def opMax (o : TOp) (e : Env) : Out := bitOut e 0x11 o (max (iA e o) (iB e o))
def opMinu (o : TOp) (e : Env) : Out :=
  rawOut e 0x12 o (if (srcA e.a o).toNat ≤ (srcB e.a o).toNat then srcA e.a o else srcB e.a o)
def opMaxu (o : TOp) (e : Env) : Out :=
  rawOut e 0x13 o (if (srcB e.a o).toNat ≤ (srcA e.a o).toNat then srcA e.a o else srcB e.a o)

/-- CMP writes sd and FLAGS.COND at its delivery (R85). -/
def opCmp (o : TOp) (e : Env) : Out :=
  let r := cmpInt o.t (srcA e.a o) (srcB e.a o)
  let taint := widest [taintOf e.a o.sa, if o.lk == 0#4 then taintOf e.a o.sb else 0]
  result e 0x14 o [wrS e.a o r.1 taint, .cond (activeS e.a o) r.2] 0#8
/-- SEL reads FLAGS.COND at issue (R85). -/
def opSel (o : TOp) (e : Env) : Out :=
  rawOut e 0x15 o (if selTest (o.mdN % 8) e.a.cond then srcA e.a o else srcB e.a o)
/-- MOV of a register or a literal (R86). -/
def opMov (o : TOp) (e : Env) : Out :=
  let x := if o.lk == 0#4 then srcA e.a o else srcB e.a o
  scalarOut e 0x16 o (intRes o.t (o.t.intOf x.toNat)) 0#8 (if o.lk == 0#4 then taintOf e.a o.sa else 0)
/-- MOVHI replaces sd[43:22] or sd[63:44] (R86). -/
def movhiVal (d : Word64) (q : Nat) (lit : BitVec 22) : Word64 :=
  if q == 1 then (d &&& ~~~(0xFFFFFC00000#64)) ||| (lit.setWidth 64 <<< 22)
  else (d &&& 0x00000FFFFFFFFFFF#64) ||| (lit.setWidth 64 <<< 44)
def opMovhi (o : TOp) (e : Env) : Out :=
  scalarOut e 0x17 o (movhiVal (srcD e.a o) (o.mdN % 4) o.lit) 0#8 (taintOf e.a o.dst)
def opClz (o : TOp) (e : Env) : Out := rawOut e 0x18 o (BitVec.ofNat 64 (clz o.t.width (uA e o)))
def opCtz (o : TOp) (e : Env) : Out := rawOut e 0x19 o (BitVec.ofNat 64 (ctz o.t.width (uA e o)))
def opPopc (o : TOp) (e : Env) : Out := rawOut e 0x1A o (BitVec.ofNat 64 (popc o.t.width (uA e o)))
def opBrev (o : TOp) (e : Env) : Out := bitOut e 0x1B o (brev o.t.width (uA e o) : Nat)
def opBswap (o : TOp) (e : Env) : Out := bitOut e 0x1C o (bswap o.t.width (uA e o) : Nat)

/-- Fields of the descriptor literal of R87. -/
def descPos (o : TOp) : Nat := bits o.lit.toNat 0 6
def descLen (o : TOp) : Nat := bits o.lit.toNat 6 7
def opBext (o : TOp) (e : Env) : Out :=
  let f := ((srcA e.a o).toNat / 2 ^ descPos o) % 2 ^ descLen o
  rawOut e 0x1D o (if o.t.signed then BitVec.ofInt 64 (signedOf (descLen o) f) else BitVec.ofNat 64 f)
def binsVal (d a : Word64) (pos len : Nat) : Word64 :=
  let m : Word64 := BitVec.ofNat 64 ((2 ^ len - 1) * 2 ^ pos)
  (d &&& ~~~m) ||| ((a <<< pos) &&& m)
def opBins (o : TOp) (e : Env) : Out :=
  scalarOut e 0x1E o (binsVal (srcD e.a o) (srcA e.a o) (descPos o) (descLen o)) 0#8
    (widest [taintOf e.a o.sa, taintOf e.a o.dst])
def opExt (o : TOp) (e : Env) : Out :=
  let m := (srcB e.a o).toNat % 64 + 1
  bitOut e 0x1F o (if o.t.signed then signedOf m (srcA e.a o).toNat else ((srcA e.a o).toNat % 2 ^ m : Nat))

/-! ## The template instructions -/
def execAdd (o : TOp) (s : State) : Result := .next (issueOne 0x00 o opAdd true s)
def execSub (o : TOp) (s : State) : Result := .next (issueOne 0x01 o opSub true s)
def execAddsh (o : TOp) (s : State) : Result := .next (issueOne 0x02 o opAddsh true s)
def execMul (o : TOp) (s : State) : Result := .next (issueOne 0x03 o opMul true s)
def execMulh (o : TOp) (s : State) : Result := .next (issueOne 0x04 o opMulh true s)
def execDiv (o : TOp) (s : State) : Result := .next (issueOne 0x05 o opDiv true s)
def execRem (o : TOp) (s : State) : Result := .next (issueOne 0x06 o opRem true s)
def execAbs (o : TOp) (s : State) : Result := .next (issueOne 0x07 o opAbs true s)
def execAnd (o : TOp) (s : State) : Result := .next (issueOne 0x08 o opAnd true s)
def execOr (o : TOp) (s : State) : Result := .next (issueOne 0x09 o opOr true s)
def execXor (o : TOp) (s : State) : Result := .next (issueOne 0x0A o opXor true s)
def execAndn (o : TOp) (s : State) : Result := .next (issueOne 0x0B o opAndn true s)
def execShl (o : TOp) (s : State) : Result := .next (issueOne 0x0C o opShl true s)
def execShr (o : TOp) (s : State) : Result := .next (issueOne 0x0D o opShr true s)
def execSar (o : TOp) (s : State) : Result := .next (issueOne 0x0E o opSar true s)
def execRol (o : TOp) (s : State) : Result := .next (issueOne 0x0F o opRol true s)
def execMin (o : TOp) (s : State) : Result := .next (issueOne 0x10 o opMin true s)
def execMax (o : TOp) (s : State) : Result := .next (issueOne 0x11 o opMax true s)
def execMinu (o : TOp) (s : State) : Result := .next (issueOne 0x12 o opMinu true s)
def execMaxu (o : TOp) (s : State) : Result := .next (issueOne 0x13 o opMaxu true s)
def execCmp (o : TOp) (s : State) : Result := .next (issueOne 0x14 o opCmp true s)
def execSel (o : TOp) (s : State) : Result := .next (issueOne 0x15 o opSel true s)
def execMov (o : TOp) (s : State) : Result := .next (issueOne 0x16 o opMov true s)
def execMovhi (o : TOp) (s : State) : Result := .next (issueOne 0x17 o opMovhi true s)
def execClz (o : TOp) (s : State) : Result := .next (issueOne 0x18 o opClz true s)
def execCtz (o : TOp) (s : State) : Result := .next (issueOne 0x19 o opCtz true s)
def execPopc (o : TOp) (s : State) : Result := .next (issueOne 0x1A o opPopc true s)
def execBrev (o : TOp) (s : State) : Result := .next (issueOne 0x1B o opBrev true s)
def execBswap (o : TOp) (s : State) : Result := .next (issueOne 0x1C o opBswap true s)
def execBext (o : TOp) (s : State) : Result := .next (issueOne 0x1D o opBext true s)
def execBins (o : TOp) (s : State) : Result := .next (issueOne 0x1E o opBins true s)
def execExt (o : TOp) (s : State) : Result := .next (issueOne 0x1F o opExt true s)
/-! ## The direct forms (R36, R37), by the operand mapping to their template forms -/

/-- A scalar register specifier. -/
def sreg (n : BitVec 6) : BitVec 8 := 0#2 ++ n
/-- The template form of a direct S-slot operation, `.i64` (R82). -/
def dirS (dst sa sb : BitVec 6) (lk : BitVec 4) (lit : BitVec 22) (md : BitVec 5) (ty : BitVec 6) : TOp :=
  ⟨0, md, ty, sreg dst, sreg sa, sreg sb, 0#6, 0#8, lk, lit⟩

def execMovDirectImm (d : BitVec 6) (imm : BitVec 10) (s : State) : Result :=
  .next (issueOne 0x16 (dirS d 0#6 0#6 1#4 (imm.signExtend 22) 0#5 4#6) opMov false s)
def execMovDirectLit (d : BitVec 6) (lit : BitVec 22) (s : State) : Result :=
  .next (issueOne 0x16 (dirS d 0#6 0#6 2#4 lit 0#5 4#6) opMov false s)
def execMovhiDirect (d : BitVec 6) (q : BitVec 2) (lit : BitVec 22) (s : State) : Result :=
  .next (issueOne 0x17 (dirS d 0#6 0#6 2#4 lit (q.setWidth 5) 0#6) opMovhi false s)
def execAddDirectReg (d a : BitVec 6) (s : State) : Result :=
  .next (issueOne 0x00 (dirS d d a 0#4 0#22 0#5 4#6) opAdd false s)
def execAddDirectImm (d : BitVec 6) (imm : BitVec 10) (s : State) : Result :=
  .next (issueOne 0x00 (dirS d d 0#6 1#4 (imm.signExtend 22) 0#5 4#6) opAdd false s)
def execSubDirect (d a : BitVec 6) (s : State) : Result :=
  .next (issueOne 0x01 (dirS d d a 0#4 0#22 0#5 4#6) opSub false s)
def execAndDirect (d a : BitVec 6) (s : State) : Result :=
  .next (issueOne 0x08 (dirS d d a 0#4 0#22 0#5 4#6) opAnd false s)
def execOrDirect (d a : BitVec 6) (s : State) : Result :=
  .next (issueOne 0x09 (dirS d d a 0#4 0#22 0#5 4#6) opOr false s)
def execXorDirect (d a : BitVec 6) (s : State) : Result :=
  .next (issueOne 0x0A (dirS d d a 0#4 0#22 0#5 4#6) opXor false s)
def execShlDirect (d imm : BitVec 6) (s : State) : Result :=
  .next (issueOne 0x0C (dirS d d 0#6 2#4 (imm.setWidth 22) 0#5 4#6) opShl false s)
def execShrDirect (d imm : BitVec 6) (s : State) : Result :=
  .next (issueOne 0x0D (dirS d d 0#6 2#4 (imm.setWidth 22) 0#5 4#6) opShr false s)

end Sys2Proof.Machine
end

