-- ==== Sys2Proof/Machine/Control.lean ====
section
/-! DEFINITION. Control transfers, loop set-up, yield, wait, trap and halt, and special registers (R92 to R106, R233,
R236), with their direct forms. -/
namespace Sys2Proof.Machine

/-! ## Transfers (R93 to R95) -/

/-- TRAPAUX of a control-transfer fault (R106). -/
def ctlFault (detail : Nat) : Out := .fault 0x0E (BitVec.ofNat 64 detail)

/-- A taken transfer to a bundle index, checked against the code object (R95). -/
def takeTo (e : Env) (target : Int) (ends : Bool) (eff : Eff) : Out :=
  if target < 0 ∨ target ≥ (e.c.ncode : Int) then ctlFault 6
  else .ok { eff with taken := some ⟨target.toNat, ends⟩ }
/-- The target of a displacement (R43, R92). -/
def dispTarget (e : Env) (o : TOp) : Int := (e.c.pc : Int) + o.lit.toInt
/-- A transfer through a register (R95). -/
def takeReg (e : Env) (x : Word64) (ends : Bool) (eff : Eff) : Out :=
  if x.toNat ≥ 2 ^ 32 then ctlFault 1 else takeTo e x.toNat ends eff

def branchIf (e : Env) (o : TOp) (c : Bool) : Out := if c then takeTo e (dispTarget e o) true {} else .ok {}

def opJmp (o : TOp) (e : Env) : Out := branchIf e o true
def opBcmp (o : TOp) (e : Env) : Out :=
  branchIf e o (bcmpTest (o.mdN % 8) o.t (srcA e.a o) (e.a.rs (regN o.sb)))
def opBeqz (o : TOp) (e : Env) : Out := branchIf e o (srcA e.a o == 0#64)
def opBnez (o : TOp) (e : Env) : Out := branchIf e o (srcA e.a o != 0#64)
def opBpred (o : TOp) (e : Env) : Out := branchIf e o (predTest (o.mdN % 4) (e.a.rp (predN o.sa)))
/-- BRG traps when its two predicates differ (R93, R106). -/
def opBrg (o : TOp) (e : Env) : Out :=
  let pa := e.a.rp (predN o.sa)
  let pb := e.a.rp (predN o.sb)
  if pa != pb then .mismatch (pb ++ pa) else branchIf e o (predTest (o.mdN % 4) pa)

/-- The stack test of a call (R236): TRAPAUX when it fails. -/
def callStack (e : Env) : Option Word64 :=
  let sp := (e.a.rs 63#6).toNat
  if sp < e.a.stklo.toNat then some (BitVec.ofNat 64 (sp % 2 ^ 56 * 256 + 2))
  else if sp % 128 != 0 then some (BitVec.ofNat 64 (sp % 2 ^ 56 * 256 + 3))
  else none

/-- The write of lr by a call (R21, R94), with the taint of the target register of CALLR (R206); s63, which R236 tests, is no source
of the written value (log 12). -/
def lrFlight (e : Env) (o : TOp) (taint : Taint) : Flight :=
  ⟨e.t + 1, e.t, o.slot, none, [.s 62#6 (BitVec.ofNat 64 (e.c.pc + delayBundles e.c.lath.toNat + 1)) true taint], 0#8, none, none⟩

def opCall (o : TOp) (e : Env) : Out :=
  match callStack e with
  | some aux => .fault 0x0D aux
  | none => takeTo e (dispTarget e o) false { flights := [lrFlight e o 0] }
def opCallr (o : TOp) (e : Env) : Out :=
  match callStack e with
  | some aux => .fault 0x0D aux
  | none => takeReg e (srcA e.a o) false { flights := [lrFlight e o (taintOf e.a o.sa)] }
def opRet (_ : TOp) (e : Env) : Out := takeReg e (e.a.rs 62#6) false {}
def opJmpr (o : TOp) (e : Env) : Out := takeReg e (srcA e.a o) true {}

/-! ## Hardware loop set-up (R96, R233) -/

def loopAt (a : Arch) (j : Nat) : Loop := a.loops.toList.getD j ⟨0, 0, false⟩

/-- Passes of a set-up (R96). -/
def passesOf (n ns : Nat) : Nat := if n == 0 then 0 else min (n + ns - 1) (2 ^ 64 - 1)

def setupOut (e : Env) (o : TOp) (stages : Option Nat) : Out :=
  let k := o.mdN % 4
  let ns := stages.getD 1
  let passes := passesOf (srcA e.a o).toNat ns
  let st := e.c.pc + 1
  let en := dispTarget e o
  if !e.a.pend.isEmpty then ctlFault 4
  else if en < st then ctlFault 2
  else if (List.range k).any (fun j => (loopAt e.a j).active && (decide (st < (loopAt e.a j).start) || decide (en > (loopAt e.a j).stop))) then
    ctlFault 3
  else if stages.isSome && lstgAct e.a.lstg && decide (lstgLoop e.a.lstg < k) then ctlFault 8
  else if stages.isSome && lstgPb e.a.lstg != 0 && decide (lstgPb e.a.lstg + ns - 1 > 15) then ctlFault 9
  else .ok
    { loop := some ⟨k, passes, st, en.toNat, stages⟩
      flights := if passes == 0 then [] else
        [⟨e.t + 1, e.t, o.slot, none, [.spec (BitVec.ofNat 6 (0x1B + k)) (BitVec.ofNat 64 passes)], 0#8, none, none⟩] }

def opLoop (o : TOp) (e : Env) : Out := setupOut e o none
def opLoopx (o : TOp) (e : Env) : Out := setupOut e o (some (o.mdN / 4 + 1))

/-! ## Yield, wait, trap and halt (R99 to R102) -/

/-- Are all earlier operations of the core done, as a checkpoint requires (R219)? -/
def Core.drained (c : Core) : Bool :=
  c.flights.isEmpty && c.steps.isEmpty && c.reqs.all (fun r => r.held || r.kind == .accum)

/-- The run that YIELD declares (R99). -/
def yieldRun (o : TOp) : Nat := if o.lit == 0#22 then 65536 else o.lit.toNat
/-- YIELD: YLEFT, and the switch when the arbiter decides for it (R99, R100, R223, R304). -/
def opYield (o : TOp) (e : Env) : Out :=
  let sw := e.s.yields e.c
  if sw && e.c.guarded && !e.c.drained then .hold
  else .ok
    { post := fun c => { c with yleft := yieldRun o, yrun := yieldRun o }
      spost := fun s => if sw then
          let s := s.switchFrom s.core
          { s with core := { s.core with switchOut := true } }
        else s
      ckpt := sw && e.c.guarded }

/-- WAITB (R101). -/
def opWaitb (o : TOp) (e : Env) : Out :=
  let b := (srcA e.a o).toNat
  if e.c.timetabled && decide (b < e.t) then .fault 0x06 (auxTiming 1 o.slot b)
  else .ok { waits := if b ≤ e.t then [] else [.beat b] }

/-- The code of TRAP (R92, R102). -/
def opTrap (o : TOp) (_ : Env) : Out := .ok { after := some (0x18, o.sa.setWidth 64) }

/-- HALT ends the context after its bundle (R102, R223). -/
def opHalt (_ : TOp) (e : Env) : Out :=
  if e.c.guarded && !e.c.drained then .hold
  else .ok
    { ckpt := e.c.guarded
      final := fun c => { c with
        run := .stopping
        a := (List.range 4).foldl (fun a j => a.endLoop j) { c.a with pend := [] } } }

/-! ## Special registers (R103 to R106, R189, R218) -/

/-- TRAPAUX of a privilege trap (R106). -/
def auxPriv (why : Nat) (sets : Bool) (idx : Nat) : Word64 := BitVec.ofNat 64 (why * 512 + flag64 sets 8 + idx)
/-- R104: registers that a rank context may not write. -/
def readOnly (idx : Nat) : Bool := [0x00, 0x01, 0x02, 0x0E, 0x0F, 0x10, 0x14, 0x15, 0x16, 0x18, 0x19, 0x1A].contains idx

/-- The privilege check of GETS and SETS (R104): WHY of R106. -/
def privWhy (sets : Bool) (idx : Nat) : Option Nat :=
  if idx == 0x20 then some 2 else if idx > 0x20 then some 0 else if sets && readOnly idx then some 1 else none

def opGets (o : TOp) (e : Env) : Out :=
  let idx := o.sa.toNat
  match privWhy false idx with
  | some w => .fault 0x13 (auxPriv w false idx)
  | none => .ok { flights := [⟨e.t + 1, e.t, o.slot, none, [.s (regN o.dst) (e.c.special e.t idx) true 0], 0#8, none, none⟩] }

/-- The delivery of SETS at issue + 1 (R21, R103). -/
def setsFlight (e : Env) (o : TOp) : Flight :=
  ⟨e.t + 1, e.t, o.slot, none, [.spec (regN o.dst) (srcA e.a o)], 0#8, none, none⟩
/-- SETS of a register the rank may write. -/
def setsOut (e : Env) (o : TOp) : Out :=
  match privWhy true o.dst.toNat with
  | some w => .fault 0x13 (auxPriv w true o.dst.toNat)
  | none => .ok { flights := [setsFlight e o] }

/-- SETS to RNGT: the reload starts at its delivery (R78; see `Core.setSpecial`). -/
def opSetsRngt (o : TOp) (e : Env) : Out :=
  match setsOut e o with
  | .ok x => .ok { x with post := fun c => { c with tombPc := e.c.pc } }
  | x => x
/-- SETS to CKPTS takes a checkpoint in its own bundle (R218, R219). -/
def opSetsCkpts (o : TOp) (e : Env) : Out :=
  if !e.c.drained then .hold else .ok { flights := [setsFlight e o], ckpt := true }
def opSetsLc (o : TOp) (e : Env) : Out := setsOut e o
def opSetsTrappc (o : TOp) (e : Env) : Out := setsOut e o
def opSetsAdjoff (o : TOp) (e : Env) : Out :=
  if e.a.adjmode != 0#2 then .fault 0x0C (auxAdj 0 0 4) else setsOut e o
/-- R188, R189: every tape byte is at its home. -/
def Arch.tapeFlushed (a : Arch) : Bool := a.tapep == 0#64 || a.tapeFl
def opSetsTapeb (o : TOp) (e : Env) : Out :=
  if e.a.adjmode != 0#2 then .fault 0x0C (auxAdj 0 0 4)
  else if !e.a.tapeFlushed then .fault 0x0C (auxAdj 0 0 5)
  else setsOut e o
def opSetsTapel (o : TOp) (e : Env) : Out := setsOut e o
/-- SETS of any register: those with behaviour of their own have theirs. -/
def opSets (o : TOp) (e : Env) : Out :=
  match o.dst.toNat with
  | 0x0B => opSetsRngt o e
  | 0x11 => opSetsAdjoff o e
  | 0x12 => opSetsTapeb o e
  | 0x17 => opSetsCkpts o e
  | _ => setsOut e o

def execJmp (o : TOp) (s : State) : Result := .next (issueOne 0xD0 o opJmp true s)
def execBcmp (o : TOp) (s : State) : Result := .next (issueOne 0xD1 o opBcmp true s)
def execBeqz (o : TOp) (s : State) : Result := .next (issueOne 0xD2 o opBeqz true s)
def execBnez (o : TOp) (s : State) : Result := .next (issueOne 0xD2 o opBnez true s)
def execBpred (o : TOp) (s : State) : Result := .next (issueOne 0xD3 o opBpred true s)
def execBrg (o : TOp) (s : State) : Result := .next (issueOne 0xD4 o opBrg true s)
def execCall (o : TOp) (s : State) : Result := .next (issueOne 0xD5 o opCall true s)
def execCallr (o : TOp) (s : State) : Result := .next (issueOne 0xD6 o opCallr true s)
def execRet (o : TOp) (s : State) : Result := .next (issueOne 0xD7 o opRet true s)
def execJmpr (o : TOp) (s : State) : Result := .next (issueOne 0xD8 o opJmpr true s)
def execLoop (o : TOp) (s : State) : Result := .next (issueOne 0xD9 o opLoop true s)
def execLoopx (o : TOp) (s : State) : Result := .next (issueOne 0xDA o opLoopx true s)
def execYield (o : TOp) (s : State) : Result := .next (issueOne 0xDB o opYield true s)
def execWaitb (o : TOp) (s : State) : Result := .next (issueOne 0xDC o opWaitb true s)
def execGets (o : TOp) (s : State) : Result := .next (issueOne 0xDD o opGets true s)
def execSets (o : TOp) (s : State) : Result := .next (issueOne 0xDE o opSets true s)
def execSetsRngt (o : TOp) (s : State) : Result := .next (issueOne 0xDE o opSetsRngt true s)
def execSetsCkpts (o : TOp) (s : State) : Result := .next (issueOne 0xDE o opSetsCkpts true s)
def execSetsLc (o : TOp) (s : State) : Result := .next (issueOne 0xDE o opSetsLc true s)
def execSetsTrappc (o : TOp) (s : State) : Result := .next (issueOne 0xDE o opSetsTrappc true s)
def execSetsAdjoff (o : TOp) (s : State) : Result := .next (issueOne 0xDE o opSetsAdjoff true s)
def execSetsTapeb (o : TOp) (s : State) : Result := .next (issueOne 0xDE o opSetsTapeb true s)
def execSetsTapel (o : TOp) (s : State) : Result := .next (issueOne 0xDE o opSetsTapel true s)
def execTrap (o : TOp) (s : State) : Result := .next (issueOne 0xDF o opTrap true s)
def execHalt (o : TOp) (s : State) : Result := .next (issueOne 0xEB o opHalt true s)
/-! ## Direct forms -/

/-- The template form of a direct X-slot operation. -/
def dirX (dst sa sb : BitVec 8) (lk : BitVec 4) (lit : BitVec 22) (md : BitVec 5) : TOp :=
  ⟨6, md, 0#6, dst, sa, sb, 0#6, 0#8, lk, lit⟩

def execJmpDirect (disp : BitVec 16) (s : State) : Result :=
  .next (issueOne 0xD0 (dirX 0#8 0#8 0#8 3#4 (disp.signExtend 22) 0#5) opJmp false s)
def execBeqzDirect (a : BitVec 6) (disp : BitVec 10) (s : State) : Result :=
  .next (issueOne 0xD2 (dirX 0#8 (sreg a) 0#8 3#4 (disp.signExtend 22) 0#5) opBeqz false s)
def execBnezDirect (a : BitVec 6) (disp : BitVec 10) (s : State) : Result :=
  .next (issueOne 0xD2 (dirX 0#8 (sreg a) 0#8 3#4 (disp.signExtend 22) 1#5) opBnez false s)
def execCallDirect (disp : BitVec 16) (s : State) : Result :=
  .next (issueOne 0xD5 (dirX 0#8 0#8 0#8 3#4 (disp.signExtend 22) 0#5) opCall false s)
def execRetDirect (s : State) : Result := .next (issueOne 0xD7 (dirX 0#8 0#8 0#8 0#4 0#22 0#5) opRet false s)
def execJmprDirect (a : BitVec 6) (s : State) : Result :=
  .next (issueOne 0xD8 (dirX 0#8 (sreg a) 0#8 0#4 0#22 0#5) opJmpr false s)
def execGetsDirect (d idx : BitVec 6) (s : State) : Result :=
  .next (issueOne 0xDD (dirX (sreg d) (sreg idx) 0#8 0#4 0#22 0#5) opGets false s)
def execSetsDirect (a idx : BitVec 6) (s : State) : Result :=
  .next (issueOne 0xDE (dirX (sreg idx) (sreg a) 0#8 0#4 0#22 0#5) opSets false s)
def execYieldDirect (imm : BitVec 16) (s : State) : Result :=
  .next (issueOne 0xDB (dirX 0#8 0#8 0#8 2#4 (imm.setWidth 22) 0#5) opYield false s)
def execWaitbDirect (a : BitVec 6) (s : State) : Result :=
  .next (issueOne 0xDC (dirX 0#8 (sreg a) 0#8 0#4 0#22 0#5) opWaitb false s)
def execTrapDirect (imm : BitVec 8) (s : State) : Result :=
  .next (issueOne 0xDF (dirX 0#8 imm 0#8 0#4 0#22 0#5) opTrap false s)
def execHaltDirect (s : State) : Result := .next (issueOne 0xEB (dirX 0#8 0#8 0#8 0#4 0#22 0#5) opHalt false s)

end Sys2Proof.Machine
end

