-- ==== Sys2Proof/Machine/ScalarFloat.lean ====
section
/-! DEFINITION. Scalar float operations (R88 to R91). -/
namespace Sys2Proof.Machine

def fA (e : Env) (o : TOp) : XRes := fltOf e.a o.t o.grad (srcA e.a o)
def fB (e : Env) (o : TOp) : XRes := fltB e.a o o.grad
def fD (e : Env) (o : TOp) : XRes := fltOf e.a o.t o.grad (srcD e.a o)
def XRes.neg (x : XRes) : XRes := ⟨x.v.negate, x.fl⟩
/-- Product of two read operands with the flags of both. -/
def mulR (a b : XRes) : XRes := let p := xmul a.v b.v; ⟨p.v, p.fl ||| a.fl ||| b.fl⟩

/-- A float result rounded once into TY (R88). -/
def fltOut (e : Env) (opc : Nat) (o : TOp) (x : XRes) (dst : Bool := false) : Out :=
  let r := o.t.round (e.rnd o 0) x.v
  let taint := widest [taintOf e.a o.sa, if o.lk == 0#4 then taintOf e.a o.sb else 0, if dst then taintOf e.a o.dst else 0]
  scalarOut e opc o (BitVec.ofNat 64 r.pat) (r.fl ||| x.fl) taint

def opFadd (o : TOp) (e : Env) : Out := fltOut e 0x20 o (xsumR [fA e o, fB e o])
def opFsub (o : TOp) (e : Env) : Out := fltOut e 0x21 o (xsumR [fA e o, (fB e o).neg])
def opFmul (o : TOp) (e : Env) : Out := fltOut e 0x22 o (mulR (fA e o) (fB e o))
def opFma (o : TOp) (e : Env) : Out := fltOut e 0x23 o (xsumR [mulR (fA e o) (fB e o), fD e o]) true
def opFdiv (o : TOp) (e : Env) : Out :=
  let q := xdiv (fA e o).v (fB e o).v
  fltOut e 0x24 o ⟨q.v, q.fl ||| (fA e o).fl ||| (fB e o).fl⟩
def opFsqrt (o : TOp) (e : Env) : Out :=
  let q := xsqrt (fA e o).v
  scalarOut e 0x25 o (BitVec.ofNat 64 (o.t.round (e.rnd o 0) q.v).pat)
    ((o.t.round (e.rnd o 0) q.v).fl ||| q.fl ||| (fA e o).fl) (taintOf e.a o.sa)

/-- The bits of an operand that a minimum or maximum delivers: a subnormal read as zero keeps its sign (R70, R90). -/
def pickBits (t : Ty) (r : XRes) (x : Nat) : Nat :=
  let y := x % 2 ^ t.width
  if r.fl == 0#8 then y else y / 2 ^ (t.width - 1) * 2 ^ (t.width - 1)
/-- The bits of a float literal in the format of TY (R43, R80). -/
def litBits (t : Ty) (o : TOp) : Nat :=
  match t, o.lk.toNat with
  | .bf16, 4 => if litF32 o % 65536 == 0 then litF32 o / 65536 else (Config.narrowLiteral (litF32 o)).toNat
  | .bf16, _ => litBf16 o
  | _, 4 => litF32 o
  | _, _ => litBf16 o * 65536
/-- The sign of a float literal, which enters at its exact value (R80). -/
def litSign (o : TOp) : Bool := if o.lk == 4#4 then (litF32 o).testBit 31 else (litBf16 o).testBit 15
def bitsB (e : Env) (o : TOp) : Nat :=
  if o.lk == 0#4 then pickBits o.t (fB e o) (e.a.rs (regN o.sb)).toNat else litBits o.t o

def fmmOut (e : Env) (opc : Nat) (o : TOp) (mx : Bool) : Out :=
  let r := fminmax o.t mx (fA e o) (fB e o) (pickBits o.t (fA e o) (srcA e.a o).toNat) (bitsB e o)
  rawOut e opc o (BitVec.ofNat 64 r.1) r.2
def opFmin (o : TOp) (e : Env) : Out := fmmOut e 0x26 o false
def opFmax (o : TOp) (e : Env) : Out := fmmOut e 0x27 o true
def opFcmp (o : TOp) (e : Env) : Out :=
  let r := cmpFlt (fA e o).v (fB e o).v
  let fl := (fA e o).fl ||| (fB e o).fl ||| sigFlag [(fA e o).v, (fB e o).v]
  let taint := widest [taintOf e.a o.sa, if o.lk == 0#4 then taintOf e.a o.sb else 0]
  result e 0x28 o [wrS e.a o r.1 taint, .cond (activeS e.a o) r.2] (if activeS e.a o then fl else 0#8)
def binOf (t : Ty) : Bin := if t == .bf16 then Bin.bf16 else Bin.f32
def opFclass (o : TOp) (e : Env) : Out :=
  rawOut e 0x29 o (BitVec.ofNat 64 (2 ^ classBit (binOf o.t) ((srcA e.a o).toNat % 2 ^ o.t.width)))
/-- FSGN replaces the sign of a (R90). -/
def opFsgn (o : TOp) (e : Env) : Out :=
  let w := o.t.width
  let a := (srcA e.a o).toNat % 2 ^ w
  let sa := a.testBit (w - 1)
  let sb := if o.lk == 0#4 then ((e.a.rs (regN o.sb)).toNat % 2 ^ w).testBit (w - 1) else litSign o
  let sg := match o.mdN % 4 with | 0 => sb | 1 => !sb | _ => sa != sb
  rawOut e 0x2A o (BitVec.ofNat 64 (a % 2 ^ (w - 1) + flag64 sg (w - 1)))

/-- The source type code of a conversion, held in SB (R91). -/
def srcTy (o : TOp) : Ty := (Ty.ofCode o.sb.toNat).getD .u
/-- A conversion of sa, rounded once (R91). -/
def cvtOut (e : Env) (opc : Nat) (o : TOp) : Out :=
  let x := (srcTy o).decodeDaz (dazOn e.a o.grad) (srcA e.a o).toNat
  let r := o.t.round (e.rnd o 0) x.v
  let v := if o.t.isInt then intRes o.t (o.t.intOf r.pat) else BitVec.ofNat 64 r.pat
  scalarOut e opc o v (r.fl ||| x.fl) (taintOf e.a o.sa)
def opFcvt (o : TOp) (e : Env) : Out := cvtOut e 0x2B o
def opFcvti (o : TOp) (e : Env) : Out := cvtOut e 0x2C o
def opIcvtf (o : TOp) (e : Env) : Out := cvtOut e 0x2D o

def execFadd (o : TOp) (s : State) : Result := .next (issueOne 0x20 o opFadd true s)
def execFsub (o : TOp) (s : State) : Result := .next (issueOne 0x21 o opFsub true s)
def execFmul (o : TOp) (s : State) : Result := .next (issueOne 0x22 o opFmul true s)
def execFma (o : TOp) (s : State) : Result := .next (issueOne 0x23 o opFma true s)
def execFdiv (o : TOp) (s : State) : Result := .next (issueOne 0x24 o opFdiv true s)
def execFsqrt (o : TOp) (s : State) : Result := .next (issueOne 0x25 o opFsqrt true s)
def execFmin (o : TOp) (s : State) : Result := .next (issueOne 0x26 o opFmin true s)
def execFmax (o : TOp) (s : State) : Result := .next (issueOne 0x27 o opFmax true s)
def execFcmp (o : TOp) (s : State) : Result := .next (issueOne 0x28 o opFcmp true s)
def execFclass (o : TOp) (s : State) : Result := .next (issueOne 0x29 o opFclass true s)
def execFsgn (o : TOp) (s : State) : Result := .next (issueOne 0x2A o opFsgn true s)
def execFcvt (o : TOp) (s : State) : Result := .next (issueOne 0x2B o opFcvt true s)
def execFcvti (o : TOp) (s : State) : Result := .next (issueOne 0x2C o opFcvti true s)
def execIcvtf (o : TOp) (s : State) : Result := .next (issueOne 0x2D o opIcvtf true s)
end Sys2Proof.Machine
end

