-- ==== Sys2Proof/Machine/Access.lean ====
section
/-! DEFINITION. What memory accesses share: elements and their conversion (R196, R199), reading and writing bytes as the
core sees them (R193, R194, R220, R239, R270), watermarks and guards (R254, R346), the stack test (R236), atomic windows
(R202), and the delivery of loads. -/
namespace Sys2Proof.Machine

/-! ## Which elements -/

def isGather (opc : Nat) : Bool := opc == 0xB4 || opc == 0xB5
def isVecMem (opc : Nat) : Bool := [0xB2, 0xB3, 0xB4, 0xB5, 0xB7, 0xC4, 0xCA].contains opc
def isStoreOp (opc : Nat) : Bool := [0xB1, 0xB3, 0xB5, 0xC7, 0xC9, 0xCA].contains opc
def isAtomicOp (opc : Nat) : Bool := 0xB8 ≤ opc ∧ opc ≤ 0xC4
def readsMem (opc : Nat) : Bool := !isStoreOp opc
def writesMem (opc : Nat) : Bool := isStoreOp opc || isAtomicOp opc

/-- Active elements (R111, R199). -/
def activeElems (opc : Nat) (o : TOp) (mask : Word32) : List Nat :=
  if !isVecMem opc then (if mask.getLsbD 0 then [0] else [])
  else if o.t == .c32 then (List.range 16).filter (fun k => mask.getLsbD (2 * k))
  else (List.range 32).filter (fun k => mask.getLsbD k)

/-- Formats that an instruction accepts beyond those of R196 (R198, R204, R205). -/
def opFmtOk (opc : Nat) (t : Ty) (g : Reg) : Bool :=
  if opc == 0xB6 || opc == 0xB7 || opc == 0xC6 || opc == 0xC7 then g.fmt == 0 || g.fmt == 8
  else if isAtomicOp opc then
    (if t.isInt then g.fmt == 0 || (g.fmt == 8 && t.width == 32)
     else (match t with | .f32 => g.fmt == 1 | .bf16 => g.fmt == 2 | _ => false))
  else true

/-- The access of a memory operation at `addr` (R199, R200). -/
def accessAt (opc : Nat) (o : TOp) (addr : Nat) (lanes : List Nat) (vb : Lanes) : Access :=
  ⟨addr, o.t, readsMem opc, writesMem opc, isGather opc, lanes, fun k => if isGather opc then (laneAt vb k).toNat else k,
    opFmtOk opc o.t, opc == 0xC4⟩
/-- Its elements. -/
def State.elemsAt (s : State) (c : Core) (opc : Nat) (o : TOp) (addr : Nat) (lanes : List Nat) (vb : Lanes) :
    Except AFail (List (Elem × Reg)) := s.accessOf c (accessAt opc o addr lanes vb)

/-- The elements as the format registers in force now place them (R243); a page keeps those of issue, and so does a lane whose bytes were
read at issue (R200). -/
def State.refresh (s : State) (c : Core) (r : Req) : List Elem :=
  if !r.locs.any Loc.isSpad then r.elems
  else match s.elemsAt c r.opc r.o r.addr (activeElems r.opc r.o r.mask) r.vb with
    | .ok xs => xs.map (fun x => match r.elems.find? (fun el => el.lane == x.1.lane) with
      | some el => if !el.locs.all Loc.isSpad || el.locs.all (fun l => r.got.any (fun y => y.1 == l)) then el else x.1
      | none => x.1)
    | .error _ => r.elems

/-! ## Conversion (R196) -/

/-- Class and mode of a rounding of a memory access, for its element (R67, R79). -/
def elemRnd (r : Req) (el : Elem) : Rnd := ⟨RMode.ofCode (r.o.mdN / 8), el.rc, laneAt r.rnd el.lane, r.ftz⟩
/-- R70: a forward-class access reads subnormal operands as zero under DAZ. -/
def elemDaz (r : Req) (el : Elem) : Bool := r.daz && !el.rc

/-- Bits that a store writes for the data bits of one element. -/
def encodeElem (t : Ty) (rnd : Rnd) (daz : Bool) (el : Elem) (x : Nat) : Nat × Flags8 :=
  match el.fmt with
  | 0 => (x % 2 ^ el.width, 0#8)
  | 9 => (x % 2 ^ el.width, 0#8)
  | 7 => (x % 2 ^ el.width, 0#8)
  | 6 | 8 =>
    let v := t.intOf x
    let y := clampInt v (-(2 ^ (el.width - 1) : Nat)) ((2 ^ (el.width - 1) : Nat) - 1)
    (wrap el.width y, flagIf (y != v) fSAT)
  | n =>
    match Fmt.ofCode n with
    | none => (0, 0#8)
    | some f =>
      if t.fmt == some f then (x % 2 ^ el.width, 0#8)
      else let y := t.decodeDaz daz (x % 2 ^ t.width); let r := f.round rnd y.v; (r.pat, y.fl ||| r.fl)

/-- Register bits that a load delivers for one element. A load that converts a signalling NaN of BF16 or F32 delivers the canonical NaN with IV
(R69), though R58 says that a NaN moved by a load sets no flag: it is converted, not moved (DEDUCED, log 10). -/
def decodeElem (t : Ty) (rnd : Rnd) (el : Elem) (raw : Nat) (scale : Option Nat) : Word64 × Flags8 :=
  match el.fmt with
  | 0 => (if t.isInt then intRes t (t.intOf raw) else BitVec.ofNat 64 raw, 0#8)
  | 9 => (if t.isInt then intRes t (t.intOf raw) else BitVec.ofNat 64 raw, 0#8)
  | 7 => (BitVec.ofNat 64 raw, 0#8)
  | 6 | 8 => satRes t (signedOf el.width raw)
  | n =>
    match Fmt.ofCode n with
    | none => (0#64, 0#8)
    | some f =>
      if t.fmt == some f && el.geom == 0 then (BitVec.ofNat 64 raw, 0#8)
      else match scale, t.fmt with
        | some g, some tf => let r := deliverScaled tf rnd (scaled f raw g); (BitVec.ofNat 64 r.pat, r.fl)
        | _, _ => let r := t.round rnd (f.decode raw); (BitVec.ofNat 64 r.pat, r.fl)

/-- Data bits of element `k` of a store. -/
def storeBits (r : Req) (k : Nat) : Nat :=
  if !isVecMem r.opc then r.d.toNat
  else if r.o.t == .c32 then (laneAt r.vd (2 * k)).toNat + (laneAt r.vd (2 * k + 1)).toNat * 2 ^ 32
  else (laneAt r.vd k).toNat

/-- The masked bytes of one element with the bits `x` (R6, R55). -/
def elemWrites (el : Elem) (x : Nat) : List ByteW :=
  el.locs.mapIdx (fun i l => ⟨l, BitVec.ofNat 8 (((2 ^ el.width - 1) * 2 ^ el.sh) / 256 ^ i), BitVec.ofNat 8 ((x * 2 ^ el.sh) / 256 ^ i)⟩)
/-- The bits of an element from its bytes. -/
def elemRaw (el : Elem) (rd : Loc → Byte) : Nat := leNat (el.locs.map rd) / 2 ^ el.sh % 2 ^ el.width

/-- What a store writes, element by element in ascending order, and its flags (R199, R200). -/
def encodeStore (r : Req) (els : List Elem) : List ByteW × Flags8 :=
  els.foldl (fun x el =>
    let e := encodeElem r.o.t (elemRnd r el) (elemDaz r el) el (storeBits r el.lane)
    (x.1 ++ elemWrites el e.1, x.2 ||| e.2)) ([], 0#8)

/-! ## Result of a load -/

def taintOfLoad (r : Req) : Taint := if r.opc == 0xB6 || r.opc == 0xB7 then 1 + r.o.mdN % 8 else 0

/-- The register write of a scalar or vector memory result, by the mask of issue (R81, R111). -/
def memWr (r : Req) (f : Nat → Word64) : Wr :=
  if !isVecMem r.opc then
    (if r.mask.getLsbD 0 then .s (regN r.o.dst) (f 0) true (taintOfLoad r)
     else if predZero r.o then .s (regN r.o.dst) 0#64 true 0 else .s (regN r.o.dst) 0#64 false 0)
  else
    let x := fun (k : Nat) => if r.o.t == .c32 && r.opc != 0xC4 then
        (let y := f (k / 2); if k % 2 == 0 then y.setWidth 32 else (y >>> 32).setWidth 32)
      else (f k).setWidth 32
    let m := if r.o.t == .c32 then pairMask r.mask else r.mask
    if predZero r.o then .v (regN r.o.dst) 0xFFFFFFFF#32 (vecOf 32 (fun k => if m.getLsbD k then x k else 0#32)) (taintOfLoad r)
    else .v (regN r.o.dst) m (vecOf 32 x) (taintOfLoad r)

/-- Values and flags of a load from the raw bits and scale bytes of its elements. -/
def loadValues (r : Req) (els : List Elem) (rd : Loc → Byte) : List (Nat × Word64) × Flags8 :=
  els.foldl (fun x el =>
    let v := decodeElem r.o.t (elemRnd r el) el (elemRaw el rd) (el.scale.map (fun l => (rd l.2).toNat))
    (x.1 ++ [(el.lane, v.1)], x.2 ||| v.2)) ([], 0#8)

def pick (xs : List (Nat × Word64)) (k : Nat) : Word64 := ((xs.find? (fun x => x.1 == k)).map Prod.snd).getD 0#64

/-- Bytes that an element reads, by address: its own and its scale. -/
def Elem.places (el : Elem) : List (Nat × Loc) := el.locs.mapIdx (fun i l => (el.addr + i, l)) ++ el.scale.toList
/-- The lowest of the addresses. -/
def lowest (as : List Nat) : Option Nat := as.foldl (fun m a => match m with | none => some a | some b => some (min a b)) none
/-- The lowest poisoned byte that an access reads, as its address (R216, R217). -/
def poisonAt (els : List Elem) (bad : Loc → Bool) : Option Nat :=
  lowest (els.flatMap (fun el => (el.places.filter (fun x => bad x.2)).map Prod.fst))

def auxAddr (a d : Nat) : Word64 := BitVec.ofNat 64 (a % 2 ^ 56 * 256 + d)

/-- The flight of a load whose bytes are at hand (R199, R217). -/
def loadFlight (r : Req) (els : List Elem) (rd : Loc → Byte × Bool) (due : Nat) (cls : Option LatClass) : Flight :=
  match poisonAt els (fun l => (rd l).2) with
  | some a => ⟨due, r.issue, r.o.slot, cls, [memWr r (fun _ => 0#64)], 0#8, some (0x09, auxAddr a 0), none⟩
  | none =>
    let v := loadValues r els (fun l => (rd l).1)
    -- flags of the lanes that were converted at a target come with the reply (R276)
    ⟨due, r.issue, r.o.slot, cls, [memWr r (pick v.1)], v.2 ||| (if els.any (fun el => el.fmt == fmtFlat) then r.reply.headD 0#8 else 0#8), none,
      match r.kind with | .acquire sc => some sc | _ => none⟩

/-! ## Atomics (R204, R205) -/

/-- The new word of an atomic from the old one (R204), and its flags. -/
def atomicNew (r : Req) (el : Elem) (k : Nat) (m : Nat) : Nat × Flags8 :=
  let w := el.width
  let t := r.o.t
  let b := if r.opc == 0xC4 then (laneAt r.vb k).toNat % 2 ^ w else r.b.toNat % 2 ^ w
  let d := r.d.toNat % 2 ^ w
  let fadd := fun (_ : Unit) =>
    let xm := t.decodeDaz (elemDaz r el) m
    let xb := t.decodeDaz (elemDaz r el) b
    let x := xsum [xm.v, xb.v]
    let y := t.round (elemRnd r el) x.v
    (y.pat, y.fl ||| x.fl ||| xm.fl ||| xb.fl)
  let mm := fun (mx : Bool) =>
    if t == .f32 then
      let xm := t.decodeDaz (elemDaz r el) m
      let xb := t.decodeDaz (elemDaz r el) b
      fminmax t mx xm xb (pickBits t xm m) (pickBits t xb b)
    else (if decide (t.intOf m < t.intOf b) != mx then m else b, 0#8)
  match r.opc with
  | 0xB8 => ((m + b) % 2 ^ w, 0#8)
  | 0xB9 => fadd ()
  | 0xBA => mm false
  | 0xBB => mm true
  | 0xBC => (m &&& b, 0#8)
  | 0xBD => (m ||| b, 0#8)
  | 0xBE => (m ^^^ b, 0#8)
  | 0xBF => (b, 0#8)
  | 0xC0 => (if m == d then b else m, 0#8)
  | 0xC1 => (if bits b 32 32 > bits m 32 32 then b else m, 0#8)
  | 0xC2 => (if bits m 48 16 == bits d 48 16 then ((bits m 48 16 + 1) % 2 ^ 16) * 2 ^ 48 + bits b 0 48 else m, 0#8)
  | 0xC3 => (if m == d then ((bits m 56 8 + 1) % 2 ^ 8) * 2 ^ 56 + bits b 0 56 else m, 0#8)
  | _ => if t.isFloat then fadd () else ((m + b) % 2 ^ w, 0#8)

/-- The old word as the register receives it (R80, R109). -/
def atomicOld (r : Req) (m : Nat) : Word64 :=
  if r.o.t.isInt then intRes r.o.t (r.o.t.intOf m) else BitVec.ofNat 64 m

/-- Accumulation of an adjoint (R183) and the clear of one (R182): bits of the cell to its new bits. -/
def accCell (c32 : Bool) (cell g : Nat) : Nat :=
  let one := fun (a b : Nat) => (Bin.f32.round Rnd.rneGrad (xsum [Bin.f32.decode a, Bin.f32.decode b]).v).pat
  if c32 then one (bits cell 0 32) (bits g 0 32) + one (bits cell 32 32) (bits g 32 32) * 2 ^ 32
  else one cell g

/-- What a request does at its home or its window: writes, register result, flags (R182, R183, R204, R205). -/
def rmwOf (r : Req) (els : List Elem) (rd : Loc → Byte) : List ByteW × List (Nat × Word64) × Flags8 :=
  els.foldl (fun x el =>
    let m := elemRaw el rd
    match r.kind with
    | .accum => (x.1 ++ elemWrites el (accCell (el.fmt == 7) m (storeBits r el.lane)), x.2.1, x.2.2)
    | .clear => (x.1 ++ elemWrites el 0, x.2.1 ++ [(el.lane, BitVec.ofNat 64 m)], x.2.2)
    | _ =>
      let n := atomicNew r el el.lane m
      (x.1 ++ elemWrites el n.1, x.2.1 ++ [(el.lane, atomicOld r m)], x.2.2 ||| n.2)) ([], [], 0#8)

/-! ## Bytes as a core sees them -/

/-- Later writes over a byte. -/
def overlay (ws : List ByteW) (l : Loc) (b : Byte) : Byte :=
  ws.foldl (fun b w => if w.loc == l then mergeByte w.mask b w.val else b) b

/-- The core that a store came from, as it stands now. -/
def State.coreAt (s : State) (clus core : Nat) : Core :=
  (s.allCores.find? (fun c => c.pclus == clus && c.pcore == core)).getD (core0 clus core)

/-- A byte as the core finds it, its own pending stores aside (R193, R194). -/
def State.baseSee (s : State) (c : Core) (l : Loc) : Byte :=
  match l with
  | .pa a => (match c.l1Find a with
    | some x => x.data.extractLsb' (8 * (a % 128)) 8
    | none => s.seeByte (dieOf c.pclus) a c.acq false)
  | .far _ _ => 0#8
  | .flat _ _ => 0#8
  | l => s.mem.get l.key

/-- Bytes that a pending store will write, or a held accumulation or clear of cells that read `rd` (R191). -/
def State.perfWrites (s : State) (rd : Loc → Byte) (p : Perf) : List ByteW :=
  match p.req with
  | none => p.ws
  | some r =>
    if p.sent then p.ws else match r.kind with
    | .store => p.ws ++ (encodeStore r (s.refresh (s.coreAt p.clus p.core) r)).1
    | .accum => p.ws ++ (rmwOf r r.elems rd).1
    | .clear => p.ws ++ (rmwOf r r.elems rd).1
    | _ => p.ws

/-- Pending stores in order, each over the ones before it. -/
def State.pendWrites (s : State) (base : Loc → Byte) (ps : List Perf) : List ByteW :=
  ps.foldl (fun ws p => ws ++ s.perfWrites (fun l => overlay ws l (base l)) p) []

/-- R219, R220: stores of the core that no one else sees yet and that it sees at a beat: released ones, then held ones. -/
def State.heldBy (s : State) (c : Core) (beat : Nat) : List Perf :=
  s.perfs.filter (fun p => p.clus == c.pclus && p.core == c.pcore && decide (p.due > beat) &&
    (match p.own with | some b => decide (b ≤ beat) | none => false)) ++ c.held.filter (fun p => decide (p.due ≤ beat))
/-- R220: what those stores write. -/
def State.heldView (s : State) (c : Core) (beat : Nat) : List ByteW := s.pendWrites (s.baseSee c) (s.heldBy c beat)

/-- A scratchpad byte at a beat: stores due by then (R193), and the core's own held ones (R220). -/
def State.spadSee (s : State) (c : Core) (beat : Nat) (l : Loc) : Byte :=
  overlay (s.pendWrites (s.baseSee c) (s.perfs.filter (fun p => decide (p.due ≤ beat) && p.release.isNone) ++
    s.heldBy c beat)) l (s.mem.get l.key)

/-- Own stores older than a request that have not performed (R194). -/
def State.ownEarlier (s : State) (c : Core) (issue : Nat) : List ByteW :=
  s.pendWrites (s.baseSee c) ((s.perfs.filter (fun p => p.clus == c.pclus && p.core == c.pcore && decide (p.issue < issue))) ++
    c.held.filter (fun p => decide (p.issue < issue)))

/-- May the core's L1 serve this request (R207, R239)? -/
def l1Ok (r : Req) : Bool :=
  decide (r.taint < 2) && (match r.kind with | .load => true | .acquire sc => decide (sc < 1) | _ => false)
/-- R207, R270: the request takes no clean byte from the L2. -/
def noCleanReq (r : Req) : Bool := decide (r.taint ≥ 4) || (match r.kind with | .acquire sc => decide (sc ≥ 3) | _ => false)

/-- A memory byte for a request, before the core's own stores, and whether it is poisoned (R194, R239, R270, R281). -/
def State.memSee (s : State) (c : Core) (r : Req) (a : Nat) : Byte × Bool :=
  match (if l1Ok r then c.l1Find a else none) with
  | some l => (l.data.extractLsb' (8 * (a % 128)) 8, l.poison || r.psn.contains (a / 4096))
  | none =>
    (s.seeByte (dieOf c.pclus) a c.acq (noCleanReq r),
      (match s.sectorAt (dieOf c.pclus) a with | some x => x.poison | none => false) || r.psn.contains (a / 4096))

/-- A byte for a request at its read, and whether it is poisoned (R193, R194, R217). -/
def State.reqSee (s : State) (c : Core) (r : Req) (own : List ByteW) (l : Loc) : Byte × Bool :=
  match l with
  | .spad k n o =>
    match r.got.find? (fun x => x.1 == l) with
    | some x => (x.2, r.gotBad.contains l)
    | none => (overlay own l (s.mem.get l.key), s.blockPoisoned k n o)
  | .pa a =>
    match r.got.find? (fun x => x.1 == l) with
    | some x => (x.2, r.gotBad.contains l)
    | none => let b := s.memSee c r a; (overlay own l b.1, b.2)
  | .far _ _ => (match r.got.find? (fun x => x.1 == l) with | some x => overlay own l x.2 | none => 0#8, r.answer == 9)
  | .flat _ _ => (match r.got.find? (fun x => x.1 == l) with | some x => x.2 | none => 0#8, r.answer == 9)

/-! ## Tests at issue -/

/-- Channels of a cluster with a range that still misses bytes of [lo, hi) (R254). -/
def State.unfilled (s : State) (clus lo hi : Nat) : Bool :=
  s.allCores.any (fun c => c.pclus == clus && [c.chan0, c.chan1].any (fun ch => decide (ch.wm < ch.rhi ∧ ch.wm < hi ∧ lo < ch.rhi)))

/-- The address of the core's byte as a collective names it (R338). -/
def collAddr (c : Core) (a : Nat) : Nat := if spadBase ≤ a ∧ a < spadBase + 0x2000000 then a + (c.pclus - c.base) * 2 ^ 56 else a

/-- Guarded ranges of a collective (R346): first the ones that act as a watermark, then the flag of a failed one. -/
def Coll.guards (k : Coll) : List (Nat × Nat) :=
  if k.flagged.isSome then []
  else (k.flag, 8) :: k.chunks.flatMap (fun ch => (ch.addr, ch.len) ::
    (if ch.opf == 0 then [] else [(ch.stg, ch.nop * ch.len)]))
def Coll.failFlag (k : Coll) : Option (Nat × Word64) :=
  match k.flagged with | some w => if w.getLsbD 63 then some (k.flag, w) else none | none => none
def meets (lo hi : Nat) (r : Nat × Nat) : Bool := decide (lo < r.1 + r.2 ∧ r.1 < hi)

def State.collsOf (s : State) (c : Core) : List Coll := s.pk.colls.filter (fun k => k.job == c.job && k.rank == c.rank)
/-- R346: the access touches a guarded byte. -/
def State.guarded (s : State) (c : Core) (lo hi : Nat) : Bool :=
  (s.collsOf c).any (fun k => k.guards.any (meets (collAddr c lo) (collAddr c (hi - 1) + 1)))
/-- The first byte of a range that a channel has not filled or a collective guards (R393). -/
def State.unready (s : State) (c : Core) (lo hi : Nat) : Nat :=
  let fills := (s.allCores.filter (fun d => d.pclus == c.pclus)).flatMap (fun d => [d.chan0, d.chan1].filterMap (fun ch =>
    if ch.wm < ch.rhi ∧ ch.wm < hi ∧ lo < ch.rhi then some (max lo ch.wm) else none))
  let guards := (s.collsOf c).flatMap (fun k => (k.guards.filter (meets (collAddr c lo) (collAddr c (hi - 1) + 1))).map (fun g => lo + (g.1 - collAddr c lo)))
  (lowest (fills ++ guards)).getD lo
/-- R346: the flag value of a failed collective that the access touches. -/
def State.failedFlag (s : State) (c : Core) (lo hi : Nat) : Option Word64 :=
  (s.collsOf c).findSome? (fun k => match k.failFlag with
    | some (a, w) => if meets (collAddr c lo) (collAddr c (hi - 1) + 1) (a, 8) then some w else none
    | none => none)

/-- The stack test (R236): the lowest byte touched, through fp or sp. -/
def stackTest (a : Arch) (sa : BitVec 8) (lowest : Int) : Option Word64 :=
  if (sa == 61#8 || sa == 63#8) && decide (lowest < a.stklo.toNat) then some (auxAddr (wrap 56 lowest) 1) else none

/-- Watermark, guard and failed-flag tests on byte ranges (R254, R346): a wait with reason 3, or cause 0x14. -/
def fillTest (e : Env) (ranges : List (Nat × Nat)) : Option Out :=
  match ranges.findSome? (fun r => e.s.failedFlag e.c r.1 (r.1 + r.2)) with
  | some w => some (.fault 0x14 w)
  | none =>
    match ranges.find? (fun r => e.s.unfilled e.c.pclus r.1 (r.1 + r.2) || e.s.guarded e.c r.1 (r.1 + r.2)) with
    | some r => some (.wait 3 (e.s.unready e.c r.1 (r.1 + r.2)))
    | none => none

/-- A failure to form an access, as an answer (R216, R277, R278). -/
def failOut : AFail → Out
  | .fault c d a => .fault c (auxAddr a d)
  | .trans a f => .fault 0x07 (auxTrans a f)
  | .miss a => .wait 6 a
  | .flat => .ok {}

end Sys2Proof.Machine
end

