-- ==== Sys2Proof/Machine/Flat.lean ====
section
/-! DEFINITION. Accesses that leave the module or come to it: requests to a flat address or to another module's memory
(R275, R276, R330, R333, R353), service at the target (R276, R335, R336, R347, R356), writes at a home (R279, R280, R283). -/
namespace Sys2Proof.Machine

/-! ## Writes at a home (R267, R279, R283) -/

/-- The Turnstile counts one byte written at its home; after the fire beat it marks an overrun (R283). -/
def countTile (die a : Nat) (beat : Nat) (t : TTile) : TTile :=
  if decide (t.base ≤ a ∧ a < t.base + t.len) then
    let late := match t.full with | some b => decide (beat > b + 4) | none => false
    let dies := t.dies.mapIdx (fun i d => if i == die && d.armed then { d with cnt := d.cnt + 1, ovr := d.ovr || late } else d)
    { t with
      dies := dies
      full := if t.full.isSome then t.full else if dies.any (fun d => d.armed) && dies.all (fun d => !d.armed || decide (d.cnt ≥ d.tgt)) then some beat else none }
  else t

/-- One byte performs at its home; the Turnstile counts it (R283), but not where no bit of the byte is written. -/
def State.homeWrite (s : State) (a : Nat) (mask v : Byte) : State :=
  { s with
    mem := s.mem.put a (mergeByte mask (s.mem.get a) v)
    pk := { s.pk with tiles := if paHbm a && mask != 0#8 then s.pk.tiles.map (countTile (homeDie a) a s.beat) else s.pk.tiles } }

/-- A byte that two neighbouring elements of one write share is written once (R283). -/
def oneWrite : List ByteW → List ByteW
  | [] => []
  | w :: r => match oneWrite r with
    | x :: t => if x.loc == w.loc then ⟨w.loc, w.mask ||| x.mask, mergeByte x.mask w.val x.val⟩ :: t else w :: x :: t
    | [] => [w]
/-- Bytes of one write at their homes. -/
def State.homeWrites (s : State) (ws : List ByteW) : State :=
  (oneWrite ws).foldl (fun s w => match w.loc with | .pa a => s.homeWrite a w.mask w.val | _ => s) s

def sectorsOf (ls : List Loc) : List Nat := (ls.filterMap (fun l => match l with | .pa a => some (a / 128) | _ => none)).eraseDups

/-- R269, R280: the dirty bytes of a sector go to their homes; a poisoned sector poisons its page. -/
def State.writeBack (s : State) (die sector : Nat) : State :=
  match s.sectorAt die (sector * 128) with
  | none => s
  | some x =>
    let s := (List.range 128).foldl (fun s i =>
      if x.dirty.getLsbD i then s.homeWrite (sector * 128 + i) 0xFF#8 (x.byte i) else s) s
    let s := if x.poison && x.dirty != 0#128 then s.poisonPage (sector * 128) else s
    s.setSector { x with dirty := 0#128 }

/-- R208, R285: stores of the cores of a die whose bytes are all home have performed at .pkg. -/
def State.settleStores (s : State) : State :=
  s.mapCores (fun c => { c with outst := c.outst.filter (fun x =>
    x.away || x.reached < 2 || x.locs.any (fun l => match l with
      | .pa a => (match s.sectorAt (dieOf c.pclus) a with | some y => y.dirty.getLsbD (a % 128) | none => false)
      | _ => false)) })

/-! ## FSW (R212) -/

def fswDead : Nat := 2
def fswRef : Nat := 4
def fswPsn : Nat := 8
def fswMoved : Nat := 16
def fswLate : Nat := 32
def fswTo : Nat := 64

/-- A failed store is recorded (R212). -/
def fswFail (x : Word64) (bits_ port addr : Nat) : Word64 :=
  let n := x.toNat
  let first := bits n 8 8 == 0
  let cnt := min 255 (bits n 8 8 + 1)
  let low := (n % 128) ||| bits_
  let hi := if first then (addr / 4096 % 2 ^ 32) * 2 ^ 32 + port * 65536 else n / 65536 * 65536
  BitVec.ofNat 64 (hi + cnt * 256 + low)

/-- R208, R210, R212: a store that the core issued at a beat is known to have failed; FSW takes it at the end of the beat. -/
def Core.storeFailed (c : Core) (issue id bits_ port addr : Nat) : Core :=
  { c with
    fswDue := c.fswDue ++ [(issue, bits_, port, addr)]
    failed := c.failed ++ [(issue, bits_)]
    outst := c.outst.filter (fun x => x.id != id) }
/-- FSW bits of the failures that a STREL issued now covers (R210). -/
def Core.failedBits (c : Core) : Nat := c.failed.foldl (fun n f => n ||| f.2) 0
/-- The failures of the beat enter FSW, after a SETS and after the clear of a FENCE (R212). -/
def Core.takeFsw (c : Core) : Core :=
  { c with a := { c.a with fsw := c.fswDue.foldl (fun w f => fswFail w f.2.1 f.2.2.1 f.2.2.2) c.a.fsw }, fswDue := [] }

/-- A store that a core issued at a beat has failed: FSW, and every STREL that covers it (R210, R212). -/
def State.failStore (s : State) (clus core issue id bits_ port addr : Nat) : State :=
  { s.mapCore clus core (fun c => c.storeFailed issue id bits_ port addr) with
    perfs := s.perfs.map (fun p => if p.clus == clus && p.core == core && p.release.isSome && decide (issue < p.issue)
      then { p with bad := p.bad ||| bits_ } else p) }

/-! ## Requests that leave a core (R276, R330, R333, R353) -/

def State.mapEntry (s : State) (job rank : Nat) : Nat :=
  match s.jobOf job with
  | none => 0
  | some j => match j.map.find? (fun x => x.1 == rank) with | some x => x.2.toNat % 4096 | none => 0
def State.mapPending (s : State) (job rank : Nat) : Bool :=
  match s.jobOf job with | some j => j.newMap.any (fun x => x.1 == rank) | none => false

def flitHdr (kind dmod smod tag lseq ctx : Nat) : Word64 :=
  BitVec.ofNat 64 (kind * 2 ^ 60 + dmod % 4096 * 2 ^ 48 + smod % 4096 * 2 ^ 36 + tag % 256 * 2 ^ 28 + lseq % 256 * 2 ^ 20 + ctx % 2 ^ 20)

def State.portOf (s : State) (n : Nat) : Port := (s.pk.ports.find? (fun p => p.n == n)).getD ⟨n, true, 0, 0, 0, 0, none⟩
def State.setPort (s : State) (p : Port) : State :=
  { s with pk := { s.pk with ports := p :: s.pk.ports.filter (fun x => x.n != p.n) } }

def State.emit (s : State) (m : OutMsg) : State := { s with pk := { s.pk with out := s.pk.out ++ [m] } }

/-- The ports over which firmware routes a module (R333). -/
def routes (dmod : Nat) : List Nat := ((Config.routes dmod).1 :: (Config.routes dmod).2).map (fun p => p % 144)
/-- The port of a request: its routes take turns by its number, as far as their links are live; with no live route its first one (R333; the
turns are log 8). -/
def State.routeOf (s : State) (dmod k : Nat) : Nat :=
  let live := (routes dmod).filter (fun p => (s.portOf p).alive)
  (live[k % live.length]?).getD ((routes dmod).headD 0)

/-- A flit leaves by a port with the next link sequence number (R330, R332). -/
def State.sendFlitOf (s : State) (port kind dmod smod tag ctx count job rank : Nat) (payload : List Byte) (req : Option FlatReq) (info : Nat) :
    State :=
  let p := s.portOf port
  (s.setPort { p with lseq := (p.lseq + 1) % 256 }).emit
    (.flit ⟨port, flitHdr kind dmod smod tag p.lseq ctx, (payload ++ List.replicate 56 0#8).take 56, count, job, rank, req, info⟩)
/-- A flit whose layout says all (R331). -/
def State.sendFlit (s : State) (port kind dmod smod tag ctx : Nat) (payload : List Byte) : State :=
  s.sendFlitOf port kind dmod smod tag ctx 0 0 0 payload none 0

/-- Pieces of `n` bytes. -/
def slices (n : Nat) : Nat → List Byte → List (List Byte)
  | 0, _ => []
  | k + 1, x => if x.isEmpty then [] else x.take n :: slices n k (x.drop n)
/-- Values of `n` bytes each that a request carries. -/
def words (n k : Nat) (x : List Byte) : List Nat := (slices n k x).map leNat

def chunks48 : Nat → List Byte → List (List Byte)
  | 0, _ => []
  | n + 1, x => if x.isEmpty then [] else x.take 48 :: chunks48 n (x.drop 48)
/-- What flits of 48 data bytes carry, with the offset of each: at least one (R330). -/
def flitPieces (data : List Byte) : List (List Byte × Nat) :=
  let parts := if data.isEmpty then [[]] else chunks48 (data.length / 48 + 1) data
  (parts.zip (List.range parts.length)).map (fun x => (x.1, 48 * x.2))

/-! ## What a request carries (log 20): opcode 0xA0 plain bytes from an address on, 0xA1 a chunk of a copy record with value
stages, 0xA3 plain bytes by a list of addresses, else the memory operation. Rank 65536 stands for physical addresses of the
target module (R275). -/

def physRank : Nat := 65536

/-- The operation that a flat request stands for at its target. -/
def flatOp (f : FlatReq) : TOp :=
  ⟨0, BitVec.ofNat 5 (f.rnd % 4 * 8), BitVec.ofNat 6 f.ty, 0#8, 0#8, 0#8, 0#6, 0#8, 0#4, 0#22⟩
/-- Bytes of the values of a memory operation: of its lanes, and of the second operand of a scalar atomic. -/
def valueBytes (f : FlatReq) : Nat :=
  let nb := (flatOp f).t.width / 8
  if isVecMem f.opc then 32 * nb else if isAtomicOp f.opc then 2 * nb else nb
/-- The data bytes that the flits of a request carry: its values (R330). -/
def wireOf (b : FlatReq) : List Byte :=
  if b.kind == .read || b.opc == 0xA1 then []
  else if b.opc == 0xA0 then b.data
  else if b.opc == 0xA3 then (slices 10 b.data.length b.data).map (fun x => x.getD 9 0#8)
  else (b.data.drop (if b.rank ≥ physRank then 11 * b.count else 0)).take (valueBytes b)
/-- The request with the data bytes that its flits brought. -/
def withWire (b : FlatReq) (bs : List Byte) : FlatReq :=
  if b.kind == .read || b.opc == 0xA1 then b
  else if b.opc == 0xA0 then { b with data := bs }
  else if b.opc == 0xA3 then { b with data := ((slices 10 b.data.length b.data).zip bs).flatMap (fun x => x.1.take 9 ++ [x.2]) }
  else
    let k := if b.rank ≥ physRank then 11 * b.count else 0
    { b with data := b.data.take k ++ bs ++ b.data.drop (k + bs.length) }
/-- The address that its flits name (R330): the flat one, or the physical one of a stage-2 leaf (R275). -/
def flatAddr (b : FlatReq) : Nat := if b.rank ≥ physRank then b.off else 2 ^ 55 + b.rank * 2 ^ 39 + b.off

/-- The flits of a request to another module (R275, R330): one for each 48 bytes that it carries, at least one. -/
def State.sendBody (s : State) (port dmod ctx want : Nat) (b : FlatReq) : State :=
  match b.kind with
  | .read => s.sendFlitOf port 2 dmod b.smod b.tag ctx want b.job 0 (leBytes 8 (flatAddr b)) (some b) 0
  | k => (flitPieces (wireOf b)).foldl (fun s x => s.sendFlitOf port (if k == .write then 1 else 3) dmod b.smod b.tag ctx x.1.length b.job 0
      (leBytes 8 (flatAddr b + x.2) ++ x.1) (some b) 0) s

/-- A core's request to a flat address or another module goes out (R276, R330, R333): held while the rank's map entry
changes (R353); to this module it crosses the package. With no live route no flit leaves, and it fails in this beat (`State.lateEvent`). -/
def State.request (s : State) (c : Core) (id addr want : Nat) (far chan : Option Nat) (body : FlatReq) : State :=
  let ctx := s.pk.ctx
  let dmod := far.getD (s.mapEntry c.job body.rank)
  let own := s.ownModule c.job
  let held := far.isNone && s.mapPending c.job body.rank
  let port := if dmod == own then 0xFFFF else s.routeOf dmod ctx
  let rm : Remote := ⟨ctx, port, c.pclus, c.pcore, id, chan, addr, want, [], s.beat, held, far,
    { body with job := c.job, smod := own, req := ctx }⟩
  let s := { s with pk := { s.pk with ctx := (ctx + 1) % 2 ^ 20, remotes := s.pk.remotes ++ [rm] } }
  if held || dmod == own || !(s.portOf port).alive then s else s.sendBody port dmod ctx want rm.body

/-- A read of plain bytes by address. -/
def readBody (rank : Nat) (as : List Nat) : FlatReq :=
  ⟨.read, 0, 0, 0, false, 0, rank, as.headD 0, 5, 0, 1#32, 0xA3, as.length, as.flatMap (leBytes 8)⟩
/-- The type code of a plain write whose bytes are poisoned (R280). -/
def poisonTy : Nat := 6
/-- The clusters under whose numbers this module's own requests go out that no core issued: those of requests that it serves, by their number
(R275), and what firmware reads for launches and restores (R297). -/
def proxyClus : Nat := 4096
def prepClus : Nat := 4097
/-- And what the ports read and write for a collective (R275, R342 to R345): core and number of such a request are the member's rank and the
collective's number, its address the reason with which it fails. -/
def collClus : Nat := 4098
/-- A write of plain bytes by address, mask and value. -/
def writeBody (rank : Nat) (tag : Option Nat) (poison : Bool) (ws : List (Nat × Byte × Byte)) : FlatReq :=
  ⟨.write, 0, 0, 0, tag.isSome, tag.getD 0, rank, (ws.headD (0, 0#8, 0#8)).1, if poison then poisonTy else 5, 0, 1#32, 0xA3, ws.length,
    ws.flatMap (fun w => leBytes 8 w.1 ++ [w.2.1, w.2.2])⟩

/-- Bytes outside the module, by module (R275) and by flat rank (R276). -/
def farMods (ls : List Loc) : List Nat := (ls.filterMap (fun l => match l with | .far m _ => some m | _ => none)).eraseDups
def flatRanks (ls : List Loc) : List Nat := (ls.filterMap (fun l => match l with | .flat k _ => some k | _ => none)).eraseDups
def farAt (m : Nat) (l : Loc) : Option Nat := match l with | .far n a => if n == m then some a else none | _ => none
def flatAt (k : Nat) (l : Loc) : Option Nat := match l with | .flat n a => if n == k then some a else none | _ => none

/-- Runs of consecutive addresses, each of at most `n`. -/
def runs {α : Type} (n : Nat) : List (Nat × α) → List (List (Nat × α))
  | [] => []
  | x :: xs => match runs n xs with
    | [] => [[x]]
    | g :: gs => if (g.head?.map Prod.fst) == some (x.1 + 1) && decide (g.length < n) then (x :: g) :: gs else [x] :: g :: gs

/-- Requests for bytes to read: one for each run of bytes in a module or a flat rank. -/
def State.askBytes (s : State) (c : Core) (id addr : Nat) (chan : Option Nat) (ls : List Loc) : State :=
  let reads := fun (s : State) (far : Option Nat) (rank : Nat) (as : List Nat) =>
    (runs (2 ^ 16) (as.map (fun a => (a, ())))).foldl (fun (s : State) g =>
      s.request c id addr g.length far chan (readBody rank (g.map Prod.fst))) s
  let s := (farMods ls).foldl (fun (s : State) m => reads s (some m) physRank (ls.filterMap (farAt m))) s
  (flatRanks ls).foldl (fun (s : State) k => reads s none k (ls.filterMap (flatAt k))) s
/-- Bodies of the requests that write bytes, one a flit: each with the module of a stage-2 leaf. -/
def writeBodies (tag : Option Nat) (poison : Bool) (ws : List ByteW) : List (Option Nat × FlatReq) :=
  let ls := ws.map (fun w => w.loc)
  let at_ := fun (f : Loc → Option Nat) => ws.filterMap (fun w => (f w.loc).map (fun a => (a, w.mask, w.val)))
  (farMods ls).flatMap (fun m => (runs 48 (at_ (farAt m))).map (fun g => (some m, writeBody physRank none poison g))) ++
  (flatRanks ls).flatMap (fun k => (runs 48 (at_ (flatAt k))).map (fun g => (none, writeBody k tag poison g)))
/-- The bytes that such a request named, as the issuer knows them. -/
def Remote.locs (rm : Remote) : List Loc :=
  let n := if rm.body.kind == .write then 10 else 8
  ((slices n rm.body.data.length rm.body.data).map (fun x => leNat (x.take 8))).map (fun a => match rm.far with | some m => Loc.far m a | none => .flat rm.body.rank a)

/-- The bytes that a memory operation carries to its target: values of the data register, of the second one for an atomic,
indexes, random lanes. -/
def Req.carry (r : Req) : List Byte :=
  let nb := r.o.t.width / 8
  let n := if isVecMem r.opc then 32 else 1
  let val := fun (k : Nat) => if isAtomicOp r.opc then (if isVecMem r.opc then (laneAt r.vb k).toNat else r.d.toNat) else storeBits r k
  (List.range n).flatMap (fun k => leBytes nb (val k)) ++
  (if isAtomicOp r.opc && !isVecMem r.opc then leBytes nb r.b.toNat else (List.range n).flatMap (fun k => leBytes 4 (laneAt r.vb k).toNat)) ++
  (List.range n).flatMap (fun k => leBytes 4 (laneAt r.rnd k).toNat)

/-- What it asks of a read-modify-write: 0 the atomic itself, 1 an accumulation, 2 a read-and-clear (R182, R183). -/
def Req.role (r : Req) : Nat := match r.kind with | .accum => 1 | .clear => 2 | _ => 0

/-- A flat access of a core (R276, R347): stores and atomics are tagged; rounding mode, flush, DAZ, enabled flags and role go along. -/
def Req.body (r : Req) (kind : FlatKind) (c : Core) : FlatReq :=
  ⟨kind, 0, 0, 0, kind != .read, c.step.toNat, r.flat.1, r.flat.2, r.o.ty.toNat,
    r.o.mdN / 8 + flag64 r.ftz 2 + 8 * (c.a.fctl.setWidth 8).toNat + 4096 * r.role + flag64 r.daz 14, r.mask, r.opc, 0, r.carry⟩
/-- Bytes that a flat access of a core returns: its values (R331). -/
def Req.wants (r : Req) : Nat := (if isVecMem r.opc then 32 else 1) * (r.o.t.width / 8)

/-- The access of one lane to a TIER 2 page, as its target sees it: a scalar one, whose count names the lane (R200, R276). -/
def Req.laneBody (r : Req) (kind : FlatKind) (c : Core) (el : Elem) : FlatReq :=
  let at_ := match el.locs.head? with | some (.flat k o) => (k, o) | _ => (0, 0)
  { r.body kind c with
    rank := at_.1, off := at_.2, lane := 1#32, opc := if kind == .read then 0xB0 else 0xB1, count := el.lane + 1
    data := leBytes (r.o.t.width / 8) (storeBits r el.lane) ++ leBytes 4 0 ++ leBytes 4 (laneAt r.rnd el.lane).toNat }

/-- An element in another module's memory, as a read-modify-write names it. -/
def farElem (el : Elem) : List Byte :=
  [BitVec.ofNat 8 el.lane, BitVec.ofNat 8 el.fmt, BitVec.ofNat 8 (flag64 el.rc 0)] ++
    leBytes 8 (match el.locs.head? with | some (.far _ a) => a | _ => 0)
def elemFar (t : Ty) (x : List Byte) : Elem :=
  let fmt := leNat ((x.drop 1).take 1)
  let a := leNat ((x.drop 3).take 8)
  ⟨leNat (x.take 1), a, (List.range (elemBytes fmt t 0)).map (fun k => .pa (a + k)), 0, elemWidth fmt t, fmt, 0, leNat ((x.drop 2).take 1) == 1, none⟩

/-- A request of a memory access with no active element: it touches no byte, and is delivered at a beat that is not fixed (R199, R201). -/
def Req.idle (r : Req) : Bool := r.elems.isEmpty && (activeElems r.opc r.o r.mask).isEmpty
/-- Does the access leave the module, or a part of it? -/
def leaves (r : Req) : Bool :=
  (r.elems.isEmpty && !r.idle) || r.elems.any (fun el => el.locs.any Loc.away)
/-- The lanes of an access that lie in TIER 2 pages or the flat space (R200). -/
def Req.flatLanes (r : Req) : List Elem := r.elems.filter (fun el => el.fmt == fmtFlat)
/-- The elements with bytes in another module. -/
def Req.inModule (r : Req) (m : Nat) : List Elem := r.elems.filter (fun el => el.locs.any (fun l => (farAt m l).isSome))

/-- A read-modify-write of elements in another module, by their physical addresses there (R275). -/
def Req.farBody (r : Req) (c : Core) (els : List Elem) : FlatReq :=
  { r.body .atomic c with
    tagged := false, rank := physRank, off := leNat (((els.headD default).locs.head?.map (fun l => match l with | .far _ a => leBytes 8 a | _ => [])).getD [])
    count := els.length, data := els.flatMap farElem ++ r.carry }

/-- An access that leaves the module is sent, each part to its own target (R275, R276). -/
def State.sendAccess (s : State) (c : Core) (r : Req) (kind : FlatKind) : State :=
  if r.elems.isEmpty then s.request c r.id r.addr r.wants none none (r.body kind c)
  else
    let s := if kind == .read then
        s.askBytes c r.id r.addr none (r.away.filter (fun l => match l with | .far _ _ => true | _ => false)).eraseDups
      else (farMods r.away).foldl (fun (s : State) m =>
        s.request c r.id r.addr r.wants (some m) none (r.farBody c (r.inModule m))) s
    r.flatLanes.foldl (fun (s : State) el => s.request c r.id el.addr (r.o.t.width / 8) none none (r.laneBody kind c el)) s

/-! ## Service at the target (R276, R335, R336, R347) -/

/-- Hold the translations that a region lookup misses, as a target does (R276). -/
def State.withPages (s : State) (c : Core) (f : Core → Except AFail (List (Elem × Reg))) : Nat → Core × Except AFail (List (Elem × Reg))
  | 0 => (c, f c)
  | n + 1 => match f c with
    | .error (.miss a) => match s.translate c.job c.rank a with
      | .ok t => s.withPages (c.hold t) f n
      | .error e => (c, .error (.trans a e))
    | r => (c, r)

/-- Status of R331 that a target answers: 0 performed, 1 refused, 2 poison, 3 moved, 4 late. -/
abbrev FStatus := Nat

/-- An answer: its status, the bytes that it returns, and what the reply's layout has no place for (log 21): the flags that a conversion
raised, or for a failure one more than the address of the byte that failed, 0 where none is named. -/
structure Ans where
  st : FStatus
  data : List Byte
  info : Nat
  deriving DecidableEq, Repr

/-- The target side of a flat access: elements, or refused (R276). The cells of an accumulation or a read-and-clear are F32 or C32 (R176). -/
def State.flatElems (s : State) (f : FlatReq) (o : TOp) (vb : Lanes) : Except FStatus (List Elem) :=
  let c := { core0 0 0 with job := f.job, rank := f.rank }
  let lanes := activeElems f.opc o f.lane
  let r := s.withPages c (fun c => s.elemsAt c f.opc o f.off lanes vb) 64
  match r.2 with
  | .error _ => .error 1
  | .ok xs =>
    if xs.any (fun x => x.2.d || x.1.addr ≥ 2 ^ 39 || x.1.locs.any (fun l => match l with | .pa _ => false | .far _ _ => false | _ => true) ||
        !(match r.1.held? x.1.addr with | some t => t.g && (f.kind == .write || t.r) && (f.kind == .read || t.w) | none => false) ||
        (f.kind == .atomic && f.rnd / 4096 % 4 != 0 && x.1.fmt != (if o.t == .c32 then 7 else 1))) then .error 1
    else .ok (xs.map Prod.fst)

/-- R281: a byte of memory is poisoned for an access that its target serves: by the bitmap, or by a sector of one of its dies. -/
def State.homePoisoned (s : State) (a : Nat) : Bool := s.pagePoisoned a || s.l2.any (fun x => x.poison && x.sector == a / 128)
def Loc.poisonedAt (s : State) : Loc → Bool | .pa a => s.homePoisoned a | _ => false
def Loc.pageBad (s : State) : Loc → Bool | .pa a => s.pagePoisoned a | _ => false
/-- A byte as the target sees it: at its home, or as it came from a third module. -/
def State.targetByte (s : State) (got : List (Loc × Byte)) : Loc → Byte
  | .pa a => s.homeByte a
  | l => ((got.find? (fun x => x.1 == l)).map Prod.snd).getD 0#8

/-- R347: is a tagged write late? -/
def lateTag (atag tag : Nat) : Bool := let d := (atag + 256 - tag % 256) % 256; decide (1 ≤ d ∧ d ≤ 127)

/-- A rank record changed. -/
def State.setRank (s : State) (r : Rank) : State :=
  { s with pk := { s.pk with ranks := s.pk.ranks.map (fun x => if x.job == r.job && x.rank == r.rank then r else x) } }

/-- Where a request finds an address of its rank: in this module's memory, or in that of another module (R275, R276). -/
def State.targetLoc (s : State) (f : FlatReq) (a : Nat) : Option Loc :=
  if f.rank ≥ physRank then (if paHbm a || paCold a then some (.pa a) else none)
  else if a ≥ 2 ^ 39 then none
  else match s.translate f.job f.rank a with
    | .ok t => if t.tier == 2 || t.d || !t.g || (f.kind != .write && !t.r) || (f.kind != .read && !t.w) then none
        else some (if t.module == s.ownModule f.job then .pa (t.out + (a - t.va)) else .far t.module (t.out + (a - t.va)))
    | .error _ => none

/-- The plain bytes that a request names: addresses, and for a write masks and values. -/
def flatBytes (f : FlatReq) : List (Nat × Byte × Byte) :=
  if f.opc != 0xA3 then
    (if f.kind == .write then f.data.mapIdx (fun i b => (f.off + i, 0xFF#8, b)) else (List.range f.count).map (fun i => (f.off + i, 0#8, 0#8)))
  else if f.kind == .write then
    (slices 10 f.data.length f.data).map (fun x => (leNat (x.take 8), x.getD 8 0#8, x.getD 9 0#8))
  else (words 8 f.data.length f.data).map (fun a => (a, 0#8, 0#8))

/-- Bytes of a third module among some. -/
def thirdBytes (ls : List Loc) : List Loc := (ls.filter Loc.away).eraseDups
/-- What a write at its target leaves to other modules. -/
def thirdWrites (ws : List ByteW) : List ByteW := ws.filter (fun w => w.loc.away)

/-- Plain bytes at their target, checked page by page (R276). A write of poisoned bytes poisons the pages that it touches (R279,
R280); a read of poisoned bytes answers so, and gives them (R251). `got` holds the bytes of third modules. -/
def State.serveRaw (s : State) (f : FlatReq) (got : List (Loc × Byte)) : State × Ans × List ByteW :=
  let xs := (flatBytes f).map (fun x => (x.1, s.targetLoc f x.1, x.2))
  let bad := fun (p : Loc → Bool) => (lowest ((xs.filter (fun x => match x.2.1 with | some l => p l | none => false)).map Prod.fst)).map (fun a => a + 1)
  match xs.find? (fun x => x.2.1.isNone) with
  | some x => (s, ⟨1, [], x.1 + 1⟩, [])
  | none =>
    if f.kind == .write then
      match bad (Loc.pageBad s) with
      | some i => (s, ⟨2, [], i⟩, [])
      | none =>
        let ws := xs.filterMap (fun x => x.2.1.map (fun l => (⟨l, x.2.2.1, x.2.2.2⟩ : ByteW)))
        let s := s.homeWrites ws
        (if f.ty == poisonTy then ws.foldl (fun (s : State) w => match w.loc with | .pa a => s.poisonPage a | _ => s) s else s, ⟨0, [], 0⟩, thirdWrites ws)
    else
      let data := xs.map (fun x => s.targetByte got (x.2.1.getD (.pa 0)))
      match bad (Loc.poisonedAt s) with
      | some i => (s, ⟨2, data, i⟩, [])
      | none => (s, ⟨0, data, 0⟩, [])

/-- The memory operation of a request at its target, from the bytes that it carries. -/
def flatAccess (f : FlatReq) (beat : Nat) (els : List Elem) (x : List Byte) : Req :=
  let o := flatOp f
  let nb := o.t.width / 8
  let n := if isVecMem f.opc then 32 else 1
  let vals := words nb 128 x
  let idx : Lanes := vecOf 32 (fun k => BitVec.ofNat 32 ((words 4 64 (x.drop (n * nb))).getD k 0))
  let two := isAtomicOp f.opc && !isVecMem f.opc
  let rnd : Lanes := vecOf 32 (fun k => BitVec.ofNat 32 ((words 4 64 (x.drop (if two then 2 * nb else n * nb + 4 * n))).getD k 0))
  let kind : ReqKind := match f.kind, f.rnd / 4096 % 4 with
    | .read, _ => .load | .write, _ => .store | .atomic, 1 => .accum | .atomic, 2 => .clear | .atomic, _ => .atomic
  let c32 := o.t == .c32
  { id := f.req, kind := kind, opc := f.opc, o := o, issue := beat, addr := f.off, elems := els, mask := f.lane
    b := BitVec.ofNat 64 (vals.getD 1 0), vb := if isAtomicOp f.opc && !two then vecOf 32 (fun k => BitVec.ofNat 32 (vals.getD k 0)) else idx, d := BitVec.ofNat 64 (vals.getD 0 0)
    vd := vecOf 32 (fun k => if c32 then BitVec.ofNat 32 (vals.getD (k / 2) 0 / (if k % 2 == 0 then 1 else 2 ^ 32)) else BitVec.ofNat 32 (vals.getD k 0))
    rnd := rnd, ftz := f.rnd.testBit 2, daz := f.rnd.testBit 14, psn := [], tape := none, taint := 0, got := [], gotBad := [], homed := none, answer := 0, reply := [], fixed := none
    held := false, diff := false, flat := (0, 0) }

/-- The elements of a memory operation at its target. -/
def State.accessElems (s : State) (f : FlatReq) : Except FStatus (List Elem) :=
  let o := flatOp f
  if f.rank ≥ physRank then .ok ((slices 11 f.count f.data).map (elemFar o.t))
  else
    let n := if isVecMem f.opc then 32 else 1
    s.flatElems f o (vecOf 32 (fun k => BitVec.ofNat 32 ((words 4 64 (f.data.drop (n * (o.t.width / 8)))).getD k 0)))

/-- A memory operation performs at its target (R276, R335): its values and flags come back; a flag that the issuer has
enabled suppresses what it would write (R74). -/
def State.serveAccess (s : State) (f : FlatReq) (got : List (Loc × Byte)) : State × Ans × List ByteW :=
  match s.accessElems f with
  | .error st => (s, ⟨st, [], 0⟩, [])
  | .ok els =>
    let r := flatAccess f s.beat els (if f.rank ≥ physRank then f.data.drop (11 * f.count) else f.data)
    let nb := r.o.t.width / 8
    let n := if isVecMem f.opc then 32 else 1
    let rd := s.targetByte got
    let cut := fun (fl : Flags8) => fl &&& BitVec.ofNat 8 (f.rnd / 8) != 0#8
    let back := fun (v : List (Nat × Word64)) => (List.range n).flatMap (fun k => leBytes nb (pick v (if isVecMem f.opc || f.rank < physRank then k else (els.headD default).lane)).toNat)
    let write := fun (ws : List ByteW) (fl : Flags8) => if cut fl then (s, []) else (s.homeWrites ws, thirdWrites ws)
    match (if f.kind == .write then lowest (els.flatMap (fun el => (el.places.filter (fun x => el.locs.contains x.2 && x.2.pageBad s)).map Prod.fst))
        else poisonAt els (Loc.poisonedAt s)) with
    | some a => (s, ⟨2, [], a + 1⟩, [])
    | none => match f.kind with
      | .read => let v := loadValues r els rd; (s, ⟨0, back v.1, v.2.toNat⟩, [])
      | .write => let e := encodeStore r els; let x := write e.1 e.2; (x.1, ⟨0, [], e.2.toNat⟩, x.2)
      | .atomic =>
        -- elements of a third module have their turn there (R275)
        let w := rmwOf r (els.filter (fun el => !el.locs.any Loc.away)) rd
        let x := write w.1 w.2.2
        (x.1, ⟨0, back w.2.1, if r.kind == .atomic then w.2.2.toNat else 0⟩, x.2)

/-- What a request meets before its access (R276, R347, R356): an answer in place of it; `none` lets it be served. -/
def State.metAtTarget (s : State) (f : FlatReq) : Option (State × Ans) :=
  if f.rank ≥ physRank then none
  else match s.rankOf f.job f.rank with
  | none => some (s, ⟨if s.pk.tombs.any (fun t => t.job == f.job && t.rank == f.rank && t.ended) then 3 else 1, [], 0⟩)
  | some rk =>
    if rk.st == .dead then some (s, ⟨1, [], 0⟩)
    else if f.kind != .read && f.tagged && lateTag rk.atag f.tag then
      some (s.setRank { rk with latec := min (rk.latec + 1) (2 ^ 32 - 1) }, ⟨4, [], 0⟩)
    else none

/-! ## Outcomes at the issuer (R336) -/

/-- FSW bits of a status, for stores. -/
def fswOf : FStatus → Nat | 1 => fswRef | 2 => fswPsn | 3 => fswMoved | 4 => fswLate | _ => fswDead
/-- The failure of a load or an atomic: 9 for poison, else 16 + the detail of R216. -/
def answerOf : FStatus → Nat | 0 => 1 | 2 => 9 | 1 => 16 + 11 | 4 => 16 + 11 | 3 => 16 + 12 | _ => 16 + 10

/-- Flags that a conversion at the target raised reach the core. -/
def Core.flagsBack (c : Core) (id : Nat) (beat : Nat) (fl : Flags8) : Core :=
  match c.outst.find? (fun x => x.id == id) with
  | some x => if fl == 0#8 then c else { c with flights := c.flights ++ [⟨beat, x.issue, id % 8, none, [], fl, none, none⟩] }
  | none => c

/-- The element of a request for one lane, the elements of one for another module's cells. -/
def Req.partOf (r : Req) (rm : Remote) : List Elem :=
  match rm.far with
  | some m => r.inModule m
  | none => r.elems.filter (fun el => el.lane + 1 == rm.body.count)
/-- Bytes that came for a request that waits for them: plain bytes, or the values of its part, with the flags that they raised. -/
def Req.arrived (r : Req) (rm : Remote) (data : List Byte) (info : Nat) : Req :=
  let nb := r.o.t.width / 8
  let got := r.got ++ (if rm.body.opc == 0xA3 then rm.locs.zip data
    else (r.partOf rm).flatMap (fun el => el.locs.zip ((data.drop (if rm.far.isSome && isVecMem r.opc then nb * el.lane else 0)).take nb)))
  let r := { r with got := got, reply := if r.answer ≤ 1 then [r.reply.headD 0#8 ||| BitVec.ofNat 8 info] else r.reply }
  { r with answer := if r.answer ≤ 1 && r.allIn then 1 else r.answer }

/-- The address that a failed request reports (R216): of the lowest poisoned byte, where the answer names it, else of its lowest lane. -/
def Req.failedAt (r : Req) (rm : Remote) (st info : Nat) : Nat :=
  let at_ := info - 1
  if r.elems.isEmpty then (if st == 2 && info != 0 then r.addr + (at_ - rm.body.off) else r.addr)
  else
    let ls := if rm.body.opc == 0xA3 then rm.locs else (r.partOf rm).flatMap (fun el => el.locs)
    let hit := ls.filter (fun l => match l with | .far _ a => a == at_ | .flat _ a => a == at_ | _ => false)
    if st == 2 then (lowest (r.elems.flatMap (fun el => (el.places.filter (fun x => (if hit.isEmpty then ls else hit).contains x.2)).map Prod.fst))).getD rm.addr
    else match r.elems.find? (fun el => el.places.any (fun x => ls.contains x.2)) with
      | some el => el.addr
      | none => rm.addr
/-- A part of a request failed: what it reports; of several failures of one kind the lowest address, else the first (R216). -/
def Req.failPart (r : Req) (rm : Remote) (st info : Nat) : Req :=
  let a := r.failedAt rm st info
  let code := answerOf st
  if r.answer ≤ 1 then { r with answer := code, reply := leBytes 8 a }
  else if r.answer == code && st == 2 then { r with reply := leBytes 8 (min a (leNat r.reply)) }
  else r

/-- Numbers of the reads and writes of a core that no memory instruction makes: its next bundle, its tape, its DLD, its Tombola table. From
`oldId` on they are reads of the bytes that a forward store overwrites in another module, by the offset of the tape (R178). -/
def sysId : Nat := 2 ^ 62
def tapeId : Nat := sysId + 1
def dldId : Nat := sysId + 2
def tombId : Nat := sysId + 3
def oldId : Nat := sysId + 16
/-- The place of the byte that an answer names. -/
def Remote.named (rm : Remote) (info : Nat) : List Loc :=
  rm.locs.filter (fun l => match l with | .far _ a => info == a + 1 | .flat _ a => info == a + 1 | _ => false)
/-- Old bytes of a record reach the tape (R178). -/
def Arch.putTape (a : Arch) (off : Nat) (x : List Byte) : Arch :=
  let base := a.tapep.toNat - a.tape.length
  { a with tape := a.tape.mapIdx (fun i b => if decide (off ≤ base + i ∧ base + i < off + x.length) then x.getD (base + i - off) b else b) }
/-- The outcome of such a read (R78, R169, R178, R179, R275, R276). -/
def Core.sysRead (c : Core) (rm : Remote) (st : FStatus) (data : List Byte) (info : Nat) : Core :=
  let got := rm.locs.zip data
  if rm.id ≥ oldId then
    if st == 0 || st == 2 then
      -- what was sent home before has to go there once more
      let put := fun (a : Arch) => let a := a.putTape (rm.id - oldId) data; { a with tapeHome := min a.tapeHome (rm.id - oldId) }
      { c with a := put c.a, shadow := put c.shadow }
    else c
  else if rm.id == dldId then
    { c with dld := c.dld.map (fun d => { d with
        got := d.got ++ got, poisoned := d.poisoned || st == 2, failed := if st == 0 || st == 2 then d.failed else some (answerOf st - 16) }) }
  else if rm.id == tombId then
    { c with tombGot := c.tombGot ++ got, tombBad := if st == 0 then c.tombBad else c.tombBad ++ [(st, rm.named info)] }
  else
    { c with
      fetchGot := c.fetchGot ++ (if st == 0 || rm.id == tapeId then got else [])
      fetchAsk := if rm.id == tapeId then c.fetchAsk else false
      fetchBad := if st == 0 || rm.id == tapeId then c.fetchBad else some st }

/-- A remote access has its outcome (R336). A store is over when no request of it is left; its bytes in this module's memory may
still have to reach their homes. An accumulation is over when all of its parts are (R183). -/
def State.finish (s : State) (rm : Remote) (st : FStatus) (data : List Byte) (info : Nat) : State :=
  let s := { s with pk := { s.pk with remotes := s.pk.remotes.filter (fun x => x.ctx != rm.ctx) } }
  let write := fun (x : Remote) => (x.body.kind == .write : Bool)
  let more := s.pk.remotes.any (fun x => x.chan.isNone && x.clus == rm.clus && x.core == rm.core && x.id == rm.id && write x == write rm)
  let onWay := s.perfs.any (fun p => p.clus == rm.clus && p.core == rm.core && p.id == rm.id)
  let known := (s.coreAt rm.clus rm.core).outst.find? (fun x => x.id == rm.id)
  if rm.id ≥ sysId then (if write rm then s else s.mapCore rm.clus rm.core (fun c => c.sysRead rm st data info))
  else if write rm then
    if st == 0 then (s.mapCore rm.clus rm.core (fun c =>
      let c := c.flagsBack rm.id s.beat (BitVec.ofNat 8 info)
      if more then c else { c with outst := c.outst.map (fun x => if x.id == rm.id then { x with reached := if onWay then x.reached else 2, away := false, flat := false } else x) })).settleStores
    else match known with
      | some x => s.failStore rm.clus rm.core x.issue rm.id (fswOf st) (if st == 5 then rm.port else 0xFFFF) rm.addr
      | none => s
  else s.mapCore rm.clus rm.core (fun c =>
    { c with reqs := (c.reqs.map (fun r =>
        if r.id != rm.id || r.kind == .store then r
        else if st != 0 then r.failPart rm st info
        else if r.elems.isEmpty then { r with answer := 1, reply := data ++ [BitVec.ofNat 8 info] }
        else r.arrived rm data info)).filter (fun r => !(r.id == rm.id && r.kind == .accum && r.answer == 1 && (r.local_.isEmpty || r.homed.isSome))) })

end Sys2Proof.Machine
end

