-- ==== Sys2Proof/Machine/Mem.lean ====
section
/-! DEFINITION. Loads, stores, gathers, scatters, load-consume forms, acquire and release, atomics, guarded stores, compare
and fence (R192 to R217), with differentiable accesses (R175 to R183). -/
namespace Sys2Proof.Machine

/-! ## The captured request -/

def memMask (e : Env) (opc : Nat) (o : TOp) : Word32 :=
  if isVecMem opc then laneMask e.a o else activeMask e.a o

def reqId (e : Env) (o : TOp) : Nat := e.c.bundles * 8 + o.slot

/-- Target rank and offset of a flat address, or of the one that a TIER 2 leaf gives (R276). -/
def flatTarget (s : State) (c : Core) (a : Nat) : Nat × Nat :=
  match s.locOf c a with | .flat k o => (k, o) | _ => (0, 0)

/-- The poisoned 4 KiB pages among the bytes of elements, as the held translations have them at issue (R279). -/
def poisonBits (c : Core) (els : List Elem) : List Nat :=
  if c.tlb.all (fun t => t.bad.isEmpty) then []
  else (els.flatMap (fun el => el.places.filterMap (fun x => match x.2 with
    | .pa p => (match c.held? x.1 with | some t => if t.bad.contains (p / 4096) then some (p / 4096) else none | none => none)
    | _ => none))).eraseDups

def mkReq (e : Env) (opc : Nat) (o : TOp) (kind : ReqKind) (addr : Nat) (els : List Elem) (fixed : Option (Nat × Nat)) : Req where
  id := reqId e o
  kind := kind
  opc := opc
  o := o
  issue := e.t
  addr := addr
  elems := els
  mask := memMask e opc o
  b := srcB e.a o
  vb := e.a.rv (regN o.sb)
  d := e.a.rs (regN o.dst)
  vd := e.a.rv (regN o.dst)
  rnd := e.lanes
  ftz := ftzOn e.a
  daz := e.a.fctl.getLsbD 9
  taint := widest [taintOf e.a o.sa, if o.lk == 0#4 then taintOf e.a o.sb else 0]
  got := []
  gotBad := []
  homed := none
  answer := 0
  reply := []
  fixed := fixed
  held := false
  diff := false
  flat := flatTarget e.s e.c addr
  psn := poisonBits e.c els
  tape := none

/-! ## Checks -/

/-- R175: what a differentiable page allows. -/
def diffOk (opc : Nat) (t : Ty) (g : Reg) (addr : Nat) : Bool :=
  [0xB0, 0xB1, 0xB2, 0xB3, 0xC9, 0xCA].contains opc && decide (addr < spadBase) && g.geom == 0 &&
  (match t with | .f32 => g.fmt == 1 | .bf16 => g.fmt == 2 | .c32 => g.fmt == 7 | _ => false)

/-- An access that passed its address checks. -/
structure Checked where
  addr : Nat
  els : List Elem
  diff : Bool

/-- Byte ranges that elements touch, scales included (R254). -/
def elemRanges (els : List Elem) : List (Nat × Nat) :=
  els.flatMap (fun el => (el.addr, el.locs.length) :: (el.scale.map (fun x => (x.1, 1))).toList)
def lowestAddr (els : List Elem) : Nat := els.foldl (fun m el => min m el.addr) ((els.map (fun el => el.addr)).headD 0)
def inWindow (a : Nat) : Bool := decide (spadBase ≤ a ∧ a < spadBase + 0x2000000)

/-- Does a TIER 2 leaf deny the access (R277)? -/
def flatDenied (c : Core) (opc a : Nat) : Bool :=
  match c.held? a with | some t => (readsMem opc && !t.r) || (writesMem opc && !t.w) | none => false

/-- A wait and a fault of one operation: in free-running code the wait comes first, in timetabled code the fault does (R392). -/
def waitFirst (e : Env) (w : Option Out) (x : Out) : Out :=
  match w with
  | some (.wait r d) => if e.c.timetabled then x else .wait r d
  | _ => x

/-- Is an address in the memory class (R192)? -/
def memAt (a : Nat) : Bool := decide (a < spadBase ∨ 2 ^ 55 ≤ a)

/-- Is an address in a TIER 2 page whose leaf has D = 1? Such a page is differentiable, and does not lie in rank-private memory (R175;
DEDUCED, log 31). -/
def flatDiff (c : Core) (a : Nat) : Bool := match c.held? a with | some t => t.tier == 2 && t.d | none => false
/-- An access whose base lies in the flat space, or in a TIER 2 page: the issuer checks its range, its rank, and the leaf's permission
(R276, R277); a differentiable page does not lie there (R175). -/
def checkFlat (e : Env) (opc a : Nat) : Except Out Checked :=
  if (flatTarget e.s e.c a).1 > bits e.c.rankid.toNat 16 16 then .error (.fault 0x07 (auxTrans a (e.c.rankFault a)))
  else if flatDenied e.c opc a then .error (.fault 0x08 (auxAddr a 6))
  else if flatDiff e.c a then .error (.fault 0x0C (auxAdj a 0 3)) else .ok ⟨a, [], false⟩

/-- The lowest address of the active elements of an access whose sum lies outside the address space, exactly (R192, R236); elements count by the
size of the type there (log 31). -/
def exactLow (ai : Int) (x : Access) : Int := ai + ((lowest (x.lanes.map (fun k => x.t.width / 8 * x.idx k))).getD 0 : Nat)

/-- Address checks of one memory operation with active elements, in the order of R392 (R192 to R202, R214, R236). -/
def checkMem (e : Env) (opc : Nat) (o : TOp) (lanes : List Nat) : Except Out Checked :=
  let ai := memAddr e.a opc o
  let a := wrap 56 ai
  let vb := e.a.rv (regN o.sb)
  let x := accessAt opc o a lanes vb
  let addrs := e.s.laneAddrs e.c x
  let illegal := if !(e.c.timetabled && readsMem opc) || ai < 0 || ai ≥ 2 ^ 56 then none
    else if isGather opc && !a.testBit 55 then addrs.find? memAt else if memAt a then addrs.head? else none
  let low := (lowest addrs).getD a
  match illegal with
  | some b => .error (.fault 0x10 (auxAddr b 1))
  | none =>
  if ai < 0 ∨ ai ≥ 2 ^ 56 then .error (match stackTest e.a o.sa (exactLow ai x) with
    | some y => .fault 0x0D y
    | none => .fault 0x07 (auxTrans a ⟨false, 7, 1⟩))
  else
    let r := e.s.accessOf e.c x
    match r, stackTest e.a o.sa (low : Nat) with
    | .error (.miss b), none => .error (failOut (.miss b))
    | .error (.miss b), some y => .error (if e.c.timetabled then .fault 0x0D y else failOut (.miss b))
    | .ok xs, some y => .error (waitFirst e (fillTest e (elemRanges (xs.map Prod.fst))) (.fault 0x0D y))
    | _, some y => .error (.fault 0x0D y)
    | .error .flat, none => checkFlat e opc a
    | .error f, none => .error (failOut f)
    | .ok xs, none =>
      match xs.find? (fun x => x.2.d && !diffOk opc o.t x.2 x.1.addr) with
      | some x => .error (waitFirst e (fillTest e (elemRanges (xs.map Prod.fst))) (.fault 0x0C (auxAdj x.1.addr 0 3)))
      | none => .ok ⟨a, xs.map Prod.fst, xs.any (fun x => x.2.d)⟩

/-- R202: the access meets a window, or as an atomic an access on its way. A held access performs later, and meets none now (R220). -/
def windowTest (e : Env) (o : TOp) (els : List Elem) (atomic : Bool) (b0 b1 : Nat) : Option Out :=
  match (banksTouched els).find? (fun k => e.s.windowHit k.1 k.2.1 k.2.2 b0 b1 || (atomic && e.s.bankUsed k.1 k.2.1 k.2.2 b0 b1)) with
  | some _ => some (.fault 0x06 (auxWindow (lowestAddr els) o.slot))
  | none => none

/-- Where the elements lie: every one in the core's own scratchpad, every one in the window, or some in memory. -/
inductive Where_ where
  | own | clus | memory
  deriving DecidableEq, Repr
def whereOf (c : Core) (els : List Elem) : Where_ :=
  if els.isEmpty then .memory
  else if els.all (fun el => inWindow el.addr) then
    (if els.all (fun el => winCore el.addr == c.pcore) then .own else .clus)
  else .memory

/-- The beats that a path adds to a memory result when no element is active: those of the path of its address (R21, R201). -/
def inactiveAdd (e : Env) (opc : Nat) (o : TOp) : Nat :=
  if opc == 0xB4 then 7 else match pathOf e.c (memAddr e.a opc o) with | .clus _ => 4 | _ => 0
/-- The result of an access with no active element (R199): it counts as a delivery, at the beat of its path; in the memory class that beat
is not fixed, and the scoreboard tracks it (R21, R192). A gather without active lanes has no lane in the memory class (R201). -/
def inactiveOut (e : Env) (opc : Nat) (o : TOp) : Out :=
  let ai := memAddr e.a opc o
  if isStoreOp opc then .ok {}
  else if !isGather opc && (match pathOf e.c ai with | .priv => true | .flat => true | _ => false) then
    .ok { reqs := [mkReq e opc o .load (wrap 56 ai) [] none] }
  else
    let cls := latOf opc o
    let L := match cls with | some l => e.lat l | none => 1
    .ok { flights := [⟨e.t + L + inactiveAdd e opc o, e.t, o.slot, cls, [memWr (mkReq e opc o .load 0 [] none) (fun _ => 0#64)], 0#8, none, none⟩] }

/-- Byte ranges of its own rank that an access touches through the flat space or a TIER 2 page, as its target finds them (R276, R346). -/
def flatRanges (e : Env) (opc : Nat) (o : TOp) (k : Checked) : List (Nat × Nat) :=
  let kind : FlatKind := if isAtomicOp opc then .atomic else if isStoreOp opc then .write else .read
  let r := mkReq e opc o .load k.addr k.els none
  let bodies := (if k.els.isEmpty then [r.body kind e.c] else r.flatLanes.map (r.laneBody kind e.c)).filter (fun b => b.rank == e.c.rank)
  bodies.flatMap (fun b => match e.s.accessElems { b with job := e.c.job } with | .ok els => elemRanges els | .error _ => [])
/-- Every byte range that an access touches (R254, R346). -/
def accessRanges (e : Env) (opc : Nat) (o : TOp) (k : Checked) : List (Nat × Nat) := elemRanges k.els ++ flatRanges e opc o k

/-- A request that leaves the module when it is sent (R276). -/
def sendReq (r : Req) (kind : FlatKind) (s : State) : State := s.sendAccess s.core r kind

/-! ## Loads -/

/-- LD, VLD, VGATH, LDC, VLDC and LDACQ with their elements (R193, R194, R199 to R201, R209). -/
def loadOut (e : Env) (opc : Nat) (o : TOp) (k : Checked) : Out :=
  let kind : ReqKind := if opc == 0xC6 then .acquire (o.mdN % 8) else .load
  let cls := latOf opc o
  let L := match cls with | some l => e.lat l | none => 0
  let g := if opc == 0xB4 then 7 else 0
  match fillTest e (accessRanges e opc o k) with
  | some x => x
  | none =>
  match whereOf e.c k.els with
  | .own =>
    match windowTest e o k.els false e.t e.t with
    | some x => x
    | none =>
      let r := mkReq e opc o kind k.addr k.els none
      .ok { flights := [loadFlight r r.elems (e.s.reqSee e.c r (e.s.heldView e.c e.t)) (e.t + L + g) cls] }
  | .clus =>
    let mine := k.els.filter (fun el => winCore el.addr == e.c.pcore)
    match (windowTest e o mine false e.t e.t).or
        (windowTest e o (k.els.filter (fun el => winCore el.addr != e.c.pcore)) false (e.t + 4) (e.t + 4)) with
    | some x => x
    | none =>
      let own := e.s.heldView e.c e.t
      let r := mkReq e opc o kind k.addr k.els (some (e.t + 4, e.t + L + (if opc == 0xB4 then 7 else 4)))
      let seen := (mine.flatMap (fun el => el.places.map Prod.snd)).map (fun l => (l, e.s.reqSee e.c r own l))
      .ok { reqs := [{ r with got := seen.map (fun x => (x.1, x.2.1)), gotBad := (seen.filter (fun x => x.2.2)).map Prod.fst }] }
  | .memory =>
    let r := { mkReq e opc o kind k.addr k.els none with diff := k.diff }
    .ok { reqs := [r], spost := if leaves r then sendReq r .read else id }

/-! ## Stores -/

/-- The beat at which a store performs or is sent (R192, R195, R201). -/
def storeBeat (e : Env) (opc : Nat) (els : List Elem) : Nat :=
  if opc == 0xB5 then e.t + 7
  else e.t + (if isVecMem opc then 3 else 2) + (if whereOf e.c els == .clus then 4 else 0)

def mkPerf (e : Env) (o : TOp) (due : Nat) (req : Option Req) (ws : List ByteW) (release : Option Nat) (n : Nat) : Perf :=
  ⟨due, e.t, e.c.pclus, e.c.pcore, o.slot, reqId e o, req, ws, release, 0, n, none, false, none⟩

def outstOf (e : Env) (o : TOp) (r : Req) : Outst :=
  ⟨reqId e o, e.t, 0, r.elems.flatMap (fun el => el.locs), leaves r,
    r.elems.isEmpty || r.elems.any (fun el => el.locs.any (fun l => match l with | .flat _ _ => true | _ => false)),
    if r.elems.isEmpty then r.addr else lowestAddr r.elems, r.diff⟩

/-- The tape record of a forward store: its bytes (R178). -/
def tapeHeader (span kind addr : Nat) : List Byte := leBytes 8 (span * 2 ^ 60 + kind * 2 ^ 56 + addr % 2 ^ 56)
def spanCode (t : Ty) (vec : Bool) : Nat :=
  match t, vec with | .bf16, false => 1 | .c32, false => 3 | _, false => 2 | .bf16, true => 6 | _, true => 7
/-- The record that a forward store pushes, from the bytes that it overwrites by address (R178). -/
def recordOf (r : Req) (old : Nat → Byte) : List Byte :=
  if isVecMem r.opc then
    let held := r.elems.flatMap (fun el => (List.range el.locs.length).map (fun i => el.addr + i))
    (List.range 128).map (fun i => if held.contains (r.addr + i) then old (r.addr + i) else 0#8) ++ leBytes 8 r.mask.toNat ++
      tapeHeader (spanCode r.o.t true) 2 r.addr
  else ((List.range 8).map (fun i => if i < r.o.t.width / 8 then old (r.addr + i) else 0#8)) ++ tapeHeader (spanCode r.o.t false) 1 r.addr
/-- A byte as a store that reaches the die's L2 overwrites it (R178, R269). -/
def State.l2Over (s : State) (die a : Nat) : Byte :=
  match s.sectorAt die a with
  | some x => if x.dirty.getLsbD (a % 128) || x.valid then x.byte a else s.homeByte a
  | none => s.homeByte a
/-- The primal bytes that a store of the core overwrites by address, after its earlier stores `own` (R178, R194); those of another
module's page are on their way from there (`State.askOld`), and free values until they come (log 31). -/
def State.oldBytes (s : State) (c : Core) (r : Req) (own : List ByteW) (a : Nat) : Byte :=
  match r.elems.find? (fun el => decide (el.addr ≤ a ∧ a < el.addr + el.locs.length)) with
  | some el => (match el.locs[a - el.addr]? with
    | some (.far m p) => overlay own (.far m p) (Config.freeByte (s.free + p))
    | some (.pa p) => overlay own (.pa p) (s.l2Over (dieOf c.pclus) p)
    | _ => 0#8)
  | none => 0#8
/-- The old bytes of a record in another module are read there, before the store reaches it (R178, R275). -/
def State.askOld (s : State) (r : Req) (off : Nat) : State :=
  let c := s.core
  let xs := r.elems.flatMap (fun el => el.locs.mapIdx (fun i l => (off + (el.addr + i - r.addr), l)))
  (farMods (xs.map Prod.snd)).foldl (fun (s : State) m =>
    (runs 4096 (xs.filterMap (fun x => (farAt m x.2).map (fun a => (a, x.1))))).foldl (fun (s : State) g =>
      s.request c (oldId + (g.map Prod.snd).headD 0) r.addr g.length (some m) none (readBody physRank (g.map Prod.fst))) s) s

/-- Does the core have a tape bank (R179, R241)? -/
def State.tapeBank (s : State) (c : Core) : Bool := (List.range 4).any (fun n => (s.banksOf c.pclus c.pcore).mode n == 3)
/-- Push of a record (R178, R179): the tape bank holds it; with no TAPE bank the core does, until it holds its old bytes and goes straight
home (`execTapeSpill`). -/
def Core.pushTape (c : Core) (x : List Byte) : Core :=
  { c with a := { c.a with tape := c.a.tape ++ x, tapep := c.a.tapep + BitVec.ofNat 64 x.length, tapeFl := false } }
/-- Where the bytes [lo, hi) of the tape have their homes (R179); a translation or a permission may fail. -/
def State.tapeLocs (s : State) (c : Core) (wr : Bool) (lo hi : Nat) : Except AFail (List Loc) :=
  collect c.timetabled ((List.range (hi - lo)).map (fun i =>
    let a := (c.a.tapeb.toNat + lo + i) % 2 ^ 56
    match s.regionOf c a with
    | .error f => .error f
    | .ok g => if !g.open_ then .error (.fault 0x08 2 a) else if (wr && !g.w) || (!wr && !g.r) then .error (.fault 0x08 6 a) else .ok (s.locOf c a)))
def wholeBytes (ls : List Loc) (bs : List Byte) : List ByteW := (ls.zip bs).map (fun x => ⟨x.1, 0xFF#8, x.2⟩)

/-- Entries of the store-withholding buffer that a primal write takes (R220). -/
def entries (k : Checked) : Nat := if k.diff then k.els.length else 1

/-- ST, VST, VSCAT, STG, VSTG and STREL with their elements (R192 to R195, R199 to R201, R210, R214). `tape` is the place of the record
that a forward store pushes. -/
def storeOut (e : Env) (opc : Nat) (o : TOp) (tape : Option Nat) (k : Checked) : Out :=
  let due := storeBeat e opc k.els
  let spad := whereOf e.c k.els != .memory
  let rel := if opc == 0xC7 then some (o.mdN % 8) else none
  let r := { mkReq e opc o .store k.addr k.els (if spad then some (due, due) else none) with diff := k.diff, tape := tape }
  match fillTest e (accessRanges e opc o k) with
  | some x => x
  | none =>
  if rel.isSome && e.c.timetabled && spad && e.c.uncovered e.s.perfs (rel.getD 0) e.t true then .fault 0x06 (auxTiming 8 o.slot 0)
  else match (if spad && !e.c.guarded then windowTest e o k.els false due due else none) with
  | some x => x
  | none =>
    let eff : Eff := { perfs := [{ mkPerf e o due (some r) [] rel (entries k) with bad := if rel.isSome then e.c.failedBits else 0 }] }
    let eff := if spad then eff else { eff with post := fun c => { c with outst := c.outst ++ [outstOf e o r] } }
    .ok eff

/-- What keeps a push of `n` bytes waiting: the tape bank has no room, and the spill of its oldest bytes has yet to come (R179), or
fails. -/
def pushWait (e : Env) (n : Nat) : Option Out :=
  if e.s.tapeBank e.c && decide (e.a.tape.length + e.tp + n > 65536) then
    let base := e.a.tapep.toNat - e.a.tape.length
    match e.s.tapeLocs e.c true base (base + 4096) with
    | .error f => some (failOut f)
    | .ok _ => some (.wait 9 0)
  else none

/-- The forward differentiable store (R178, R180, R191). -/
def forwardOut (e : Env) (opc : Nat) (o : TOp) (k : Checked) : Out :=
  let r := mkReq e opc o .store k.addr k.els none
  let off := e.a.tapep.toNat + e.tp
  let rec_ := recordOf r (e.s.oldBytes e.c r (e.s.ownEarlier e.c e.t))
  if e.a.tapeb.toNat + off + rec_.length > e.a.tapel.toNat then
    waitFirst e (fillTest e (accessRanges e opc o k)) (.fault 0x0B (auxAdj k.addr (rec_.length / 16) 0))
  else match (if e.s.tapeBank e.c then .ok [] else e.s.tapeLocs e.c true off (off + rec_.length)) with
  | .error f => failOut f
  | .ok _ =>
  match pushWait e rec_.length with
  | some x => x
  | none =>
  match storeOut e opc o (some off) k with
  | .ok eff => .ok { eff with
      tape := rec_.length
      post := fun c => (eff.post c).pushTape rec_
      spost := fun s => (eff.spost s).askOld r off }
  | x => x

/-! ## Adjoint cells (R176, R181, R182) -/

/-- A(x) of R176. -/
def cellAddr (a : Arch) (bf : Bool) (x : Nat) : Nat := (a.adjoff.toNat + (if bf then 2 else 1) * x) % 2 ^ 56

/-- A cell in the flat space, directly or through a TIER 2 leaf: the issuer checks its rank and the leaf's permission, its target the rest
(R176, R276). -/
def flatCell (e : Env) (t : Ty) (lane a : Nat) : Except AFail Elem :=
  if (flatTarget e.s e.c a).1 > bits e.c.rankid.toNat 16 16 then .error (.trans a (e.c.rankFault a))
  else match e.c.held? a with
    | some u => if !u.r || !u.w then .error (.fault 0x08 6 a) else if u.d then .error (.fault 0x08 4 a) else .ok (flatElem t lane a (e.s.locOf e.c a))
    | none => .ok (flatElem t lane a (e.s.locOf e.c a))
/-- The adjoint cells of the elements of an access: translated, permitted and of the right format (R176). All of them lie in the window, or
all in the memory class, as an access to them keeps one span (R197). -/
def cellsOf (e : Env) (o : TOp) (els : List Elem) : Except AFail (List Elem) :=
  let t : Ty := if o.t == .c32 then .c32 else .f32
  let r := collect e.c.timetabled (els.map (fun el =>
    let a := cellAddr e.a (o.t == .bf16) el.addr
    match e.s.accessOf e.c ⟨a, t, true, true, false, [0], fun k => k, fun g => !g.d && g.fmt == (if o.t == .c32 then 7 else 1), false⟩ with
    | .error (.fault 0x08 8 b) => .error (.fault 0x08 4 b)
    | .error .flat => flatCell e t el.lane a
    | .error f => .error f
    | .ok xs => match xs.head? with
      | some x => .ok { x.1 with lane := el.lane }
      | none => .error (.fault 0x08 4 a)))
  match r with
  | .error f => .error f
  | .ok cs => match cs.find? (fun x => inWindow x.addr != inWindow ((cs.headD x).addr)) with
    | some x => .error (.fault 0x08 3 x.addr)
    | none => .ok cs

/-- An accumulation or a clear of cells: in the scratchpad in a window, in memory at the home (R183); in guarded mode held (R191). -/
def cellReq (e : Env) (opc : Nat) (o : TOp) (kind : ReqKind) (addr : Nat) (cells : List Elem) : Out :=
  let w := whereOf e.c cells
  let add := if w == .clus then 4 else 0
  let rd := if o.t == .bf16 then (fun (x : Word64) => x <<< 16) else id
  let base := mkReq e opc o kind addr cells (if w == .memory then none else some (e.t + 4 + add, e.t + 4 + add))
  let r := { base with
    d := rd base.d, vd := if o.t == .bf16 then vecOf 32 (fun k => (laneAt base.vd k) <<< 16) else base.vd
    o := if o.t == .bf16 then { o with ty := 0x10#6 } else o
    held := e.c.guarded
    diff := true }
  match (fillTest e (accessRanges e opc o ⟨addr, cells, true⟩)).or
      (if w == .memory || e.c.guarded then none else windowTest e o cells true (e.t + 2 + add) (e.t + 4 + add)) with
  | some x => x
  | none => .ok
    { reqs := [r]
      spost := if leaves r && !e.c.guarded then sendReq r .atomic else id
      perfs := if e.c.guarded then [mkPerf e o (e.t + 4) (some r) [] none cells.length] else []
      wins := if w == .memory || e.c.guarded then [] else (banksTouched cells).map (fun k => ⟨e.t + 2 + add, k.1, k.2.1, k.2.2, e.t⟩) }

/-- The reverse load (R181): it reads its destination register at issue, and waits for a result that is still owed to it (R22). -/
def reverseLoad (e : Env) (opc : Nat) (o : TOp) (k : Checked) : Out :=
  let d := o.dst.toNat
  if e.c.owed d || e.c.awaiting d then .wait 2 0
  else match cellsOf e o k.els with
  | .error f => failOut f
  | .ok cells => cellReq e opc o .accum k.addr cells

/-- The top record of the tape below the `tp` bytes that lower slots of the bundle pop: its bytes as far as the tape bank holds them
(R179, R182). -/
def topBytes (a : Arch) (tp n : Nat) : Option (List Byte) :=
  if a.tape.length < tp + n then none else some ((a.tape.drop (a.tape.length - tp - n)).take n)

/-- Pop of a record (R182). -/
def Core.popTape (c : Core) (n : Nat) : Core :=
  let p := c.a.tapep.toNat - n
  { c with a := { c.a with tape := c.a.tape.take (c.a.tape.length - n), tapep := BitVec.ofNat 64 p, tapeHome := min c.a.tapeHome p } }

/-- The reverse store (R182): check, pop, read and clear, restore, deliver. -/
def reverseStore (e : Env) (opc : Nat) (o : TOp) (k : Checked) : Out :=
  let vec := isVecMem opc
  let n := if vec then 144 else 16
  let left := e.a.tapep.toNat - e.tp
  match cellsOf e o k.els with
  | .error f => failOut f
  | .ok cells =>
    let early := fun (d : Nat) => waitFirst e (fillTest e (accessRanges e opc o { k with els := k.els ++ cells })) (.fault 0x0C (auxAdj k.addr 0 d))
    if left == 0 then early 2
    else if left < n then early 1
    else match topBytes e.a e.tp n with
    | none => (match e.s.tapeLocs e.c false (left - n) (e.a.tapep.toNat - e.a.tape.length) with
      | .error f => failOut f
      | .ok _ => .wait 9 0)
    | some top =>
      let okHdr := top.drop (n - 8) == tapeHeader (spanCode o.t vec) (if vec then 2 else 1) k.addr &&
        (!vec || leNat ((top.drop 128).take 8) == (laneMask e.a o).toNat)
      if !okHdr then early 1
      else match (fillTest e (accessRanges e opc o k)), cellReq e opc o .clear k.addr cells with
      | some x, _ => x
      | none, .ok eff =>
        let r := { mkReq e opc o .store k.addr k.els none with diff := true }
        let ws := k.els.flatMap (fun el => el.locs.mapIdx (fun i l => (⟨l, 0xFF#8, top.getD (el.addr - k.addr + i) 0#8⟩ : ByteW)))
        .ok { eff with
          tape := n
          perfs := eff.perfs ++ [{ mkPerf e o (storeBeat e opc k.els) none ws none k.els.length with psn := some r.psn }]
          post := fun c => let c := (eff.post c).popTape n; { c with outst := c.outst ++ [outstOf e o r] } }
      | none, x => x

/-! ## Atomics -/

/-- A scalar atomic or VAMADD with its elements (R192, R202 to R205). -/
def atomicOut (e : Env) (opc : Nat) (o : TOp) (k : Checked) : Out :=
  let L := e.lat .at
  let w := whereOf e.c k.els
  let add := if w == .clus then 4 else 0
  let r := mkReq e opc o .atomic k.addr k.els (if w == .memory then none else some (e.t + 4 + add, e.t + L + add))
  match (fillTest e (accessRanges e opc o k)).or
      (if w == .memory then none else windowTest e o k.els true (e.t + 2 + add) (e.t + 4 + add)) with
  | some x => x
  | none => .ok
    { reqs := [r]
      wins := if w == .memory then [] else (banksTouched k.els).map (fun k => ⟨e.t + 2 + add, k.1, k.2.1, k.2.2, e.t⟩)
      spost := if w == .memory && leaves r then sendReq r .atomic else id }

/-! ## The operations -/

/-- R221: what guarded mode refuses; a bundle with a gap reports the entries that it needs (`Core.gaps`). -/
def gapped (e : Env) (opc : Nat) : Bool := e.c.guarded && (isAtomicOp opc || opc == 0xC7 || opc == 0xC5)

/-- One access: no active element, or its checks and then its effect by kind and adjoint mode. -/
def opMem (opc : Nat) (o : TOp) (e : Env) : Out :=
  let lanes := activeElems opc o (memMask e opc o)
  if gapped e opc then
    (match (if lanes.isEmpty then none else match checkMem e opc o lanes with | .error (.fault 0x10 a) => some a | _ => none) with
      | some a => .fault 0x10 a | none => .fault 0x1A 2#64)
  else if lanes.isEmpty then inactiveOut e opc o
  else match checkMem e opc o lanes with
  | .error x => x
  | .ok k =>
    if isAtomicOp opc then atomicOut e opc o k
    else if isStoreOp opc then
      (if k.diff && e.a.adjmode == 1#2 then forwardOut e opc o k
       else if k.diff && e.a.adjmode == 2#2 then reverseStore e opc o k
       else storeOut e opc o none k)
    else if k.diff && e.a.adjmode == 2#2 then reverseLoad e opc o k
    else loadOut e opc o k

def opLd : TOp → Env → Out := opMem 0xB0
def opSt : TOp → Env → Out := opMem 0xB1
def opVld : TOp → Env → Out := opMem 0xB2
def opVst : TOp → Env → Out := opMem 0xB3
def opVgath : TOp → Env → Out := opMem 0xB4
def opVscat : TOp → Env → Out := opMem 0xB5
def opLdc : TOp → Env → Out := opMem 0xB6
def opVldc : TOp → Env → Out := opMem 0xB7
def opAmadd : TOp → Env → Out := opMem 0xB8
def opAmfadd : TOp → Env → Out := opMem 0xB9
def opAmmin : TOp → Env → Out := opMem 0xBA
def opAmmax : TOp → Env → Out := opMem 0xBB
def opAmand : TOp → Env → Out := opMem 0xBC
def opAmor : TOp → Env → Out := opMem 0xBD
def opAmxor : TOp → Env → Out := opMem 0xBE
def opAmswap : TOp → Env → Out := opMem 0xBF
def opAmcas : TOp → Env → Out := opMem 0xC0
def opAmcasgt : TOp → Env → Out := opMem 0xC1
def opAmcasv : TOp → Env → Out := opMem 0xC2
def opAmcasp : TOp → Env → Out := opMem 0xC3
def opVamadd : TOp → Env → Out := opMem 0xC4
def opLdacq : TOp → Env → Out := opMem 0xC6
def opStrel : TOp → Env → Out := opMem 0xC7

/-- The lowest differing 32-bit lane of two operands, as R215 reports it: SECOND, FIRST. -/
def mismatchAux (first second : List Word32) : Option Word64 :=
  (first.zip second).findSome? (fun x => if x.1 != x.2 then some (x.2 ++ x.1) else none)

def halves (x : Word64) : List Word32 := [x.setWidth 32, (x >>> 32).setWidth 32]

/-- CHK (R213). -/
def opChk (o : TOp) (e : Env) : Out :=
  let two : List Word32 × List Word32 :=
    if isS o.sa then (halves (e.a.rs (regN o.sa)), halves (e.a.rs (regN o.sb)))
    else if isV o.sa then ((e.a.rv (regN o.sa)).toList, (e.a.rv (regN o.sb)).toList)
    else ([e.a.rp (predN o.sa)], [e.a.rp (predN o.sb)])
  match mismatchAux two.1 two.2 with
  | some x => .mismatch x
  | none => .ok {}

/-- STG (R214). -/
def opStg (o : TOp) (e : Env) : Out :=
  match (if activeS e.a o then mismatchAux (halves (e.a.rs (regN o.dst))) (halves (e.a.rs (regN o.sb))) else none) with
  | some x => .mismatch x
  | none => opMem 0xC9 o e

/-- VSTG (R214). -/
def opVstg (o : TOp) (e : Env) : Out :=
  let m := laneMask e.a o
  let keep := fun (x : Lanes) => (List.range 32).map (fun k => if m.getLsbD k then laneAt x k else 0#32)
  match mismatchAux (keep (e.a.rv (regN o.dst))) (keep (e.a.rv (regN o.sb))) with
  | some x => .mismatch x
  | none => opMem 0xCA o e

/-- The status word of a FENCE at its completion (R211, R212): DONE when every covered store performed and the word records no
failure. -/
def fenceStatus (fsw : Word64) (failed timeout : Bool) : Word64 :=
  let x := fsw &&& ~~~(1#64)
  if timeout then x ||| 0x40#64 else if x &&& 0xFF7E#64 == 0#64 && !failed then x ||| 1#64 else x

/-- R337: flat-space copy writes that failed and were read before a beat are counted in FSW; their bits. -/
def Core.takeFails (c : Core) (before : Nat) : Core × Nat :=
  let x := c.copyFails.filter (fun f => decide (f.readAt < before))
  ({ c with
      a := { c.a with fsw := x.foldl (fun w f => fswFail w f.bits f.port f.addr) c.a.fsw }
      copyFails := c.copyFails.filter (fun f => !decide (f.readAt < before)) }, x.foldl (fun n f => n ||| f.bits) 0)

/-- A FENCE completes at `beat` (R211, R272, R337): the acquire, the cleared FSW and the delivery of its status word at c + 1. Failures
that become known at `beat` enter FSW after the clear; DONE is clear when a covered store failed, whatever FSW says by then (R212). -/
def Core.fenceDone (c : Core) (beat scope : Nat) (dst : BitVec 6) (issue slot : Nat) (timeout : Bool) : Core :=
  let c := if scope == 4 then (c.takeFails issue).1 else c
  let st := fenceStatus c.a.fsw (c.failed.any (fun f => decide (f.1 < issue))) timeout
  let c := c.acquire beat scope
  { c with
    a := { c.a with fsw := c.a.fsw &&& 1#64 }
    failed := c.fswDue.map (fun f => (f.1, f.2.1))
    waits := c.waits.filter (fun w => match w with | .fence _ _ _ _ => false | _ => true)
    readyAt := max c.readyAt (beat + 1)
    flights := c.flights ++ [⟨beat + 1, issue, slot, none, [.s dst st true 0], 0#8, none, none⟩] }

/-- FENCE (R211, R221, R337). -/
def opFence (o : TOp) (e : Env) : Out :=
  let sc := o.mdN % 8
  if gapped e 0xC5 then .fault 0x1A 2#64
  else if e.c.timetabled && e.c.uncovered e.s.perfs sc e.t true then .fault 0x06 (auxTiming 8 o.slot 0)
  else if !e.s.fenceFree e.c sc e.t then .ok { waits := [.fence sc (regN o.dst) e.t o.slot] }
  else .ok { final := fun c => c.fenceDone e.t sc (regN o.dst) e.t o.slot false }

def execLd (o : TOp) (s : State) : Result := .next (issueOne 0xB0 o opLd true s)
def execSt (o : TOp) (s : State) : Result := .next (issueOne 0xB1 o opSt true s)
def execVld (o : TOp) (s : State) : Result := .next (issueOne 0xB2 o opVld true s)
def execVst (o : TOp) (s : State) : Result := .next (issueOne 0xB3 o opVst true s)
def execVgath (o : TOp) (s : State) : Result := .next (issueOne 0xB4 o opVgath true s)
def execVscat (o : TOp) (s : State) : Result := .next (issueOne 0xB5 o opVscat true s)
def execLdc (o : TOp) (s : State) : Result := .next (issueOne 0xB6 o opLdc true s)
def execVldc (o : TOp) (s : State) : Result := .next (issueOne 0xB7 o opVldc true s)
def execAmadd (o : TOp) (s : State) : Result := .next (issueOne 0xB8 o opAmadd true s)
def execAmfadd (o : TOp) (s : State) : Result := .next (issueOne 0xB9 o opAmfadd true s)
def execAmmin (o : TOp) (s : State) : Result := .next (issueOne 0xBA o opAmmin true s)
def execAmmax (o : TOp) (s : State) : Result := .next (issueOne 0xBB o opAmmax true s)
def execAmand (o : TOp) (s : State) : Result := .next (issueOne 0xBC o opAmand true s)
def execAmor (o : TOp) (s : State) : Result := .next (issueOne 0xBD o opAmor true s)
def execAmxor (o : TOp) (s : State) : Result := .next (issueOne 0xBE o opAmxor true s)
def execAmswap (o : TOp) (s : State) : Result := .next (issueOne 0xBF o opAmswap true s)
def execAmcas (o : TOp) (s : State) : Result := .next (issueOne 0xC0 o opAmcas true s)
def execAmcasgt (o : TOp) (s : State) : Result := .next (issueOne 0xC1 o opAmcasgt true s)
def execAmcasv (o : TOp) (s : State) : Result := .next (issueOne 0xC2 o opAmcasv true s)
def execAmcasp (o : TOp) (s : State) : Result := .next (issueOne 0xC3 o opAmcasp true s)
def execVamadd (o : TOp) (s : State) : Result := .next (issueOne 0xC4 o opVamadd true s)
def execFence (o : TOp) (s : State) : Result := .next (issueOne 0xC5 o opFence true s)
def execLdacq (o : TOp) (s : State) : Result := .next (issueOne 0xC6 o opLdacq true s)
def execStrel (o : TOp) (s : State) : Result := .next (issueOne 0xC7 o opStrel true s)
def execChk (o : TOp) (s : State) : Result := .next (issueOne 0xC8 o opChk true s)
def execStg (o : TOp) (s : State) : Result := .next (issueOne 0xC9 o opStg true s)
def execVstg (o : TOp) (s : State) : Result := .next (issueOne 0xCA o opVstg true s)
/-! ## Direct forms (R36, R37, R198) -/

/-- LD.n64 and ST.n64 with an offset of 8 × imm4. -/
def dirMem (d a : BitVec 6) (off : BitVec 4) : TOp :=
  ⟨0, 0#5, 8#6, sreg d, sreg a, 0#8, 0#6, 0#8, 1#4, off.setWidth 22 * 8#22⟩
def execLdDirect (d a : BitVec 6) (off : BitVec 4) (s : State) : Result := .next (issueOne 0xB0 (dirMem d a off) opLd false s)
def execStDirect (d a : BitVec 6) (off : BitVec 4) (s : State) : Result := .next (issueOne 0xB1 (dirMem d a off) opSt false s)

end Sys2Proof.Machine
end

