-- ==== Sys2Proof/Machine/Dict.lean ====
section
/-! DEFINITION. Dictionary instructions and loads (R162 to R173), adjoint instructions and the tape (R177 to R191),
checkpoint, return and breakpoint (R218, R224, R230, R231). -/
namespace Sys2Proof.Machine

/-! ## Dictionary (R168 to R173) -/

def dictBank (o : TOp) : Bool := o.md.getLsbD 0
/-- The entry index: an immediate field, or a register's low byte (R168). -/
def dictIndex (e : Env) (o : TOp) (imm : BitVec 8) : BitVec 8 :=
  if o.md.getLsbD 1 then (e.a.rs (regN o.sb)).setWidth 8 else imm

/-- Checks 1 to 9 of R44 on an image word: the code, 0 when it passes (R169). -/
def storedCode (t : Template) : Nat := checkTemplate t

/-- DSET (R170). -/
def opDset (o : TOp) (e : Env) : Out :=
  let n := dictIndex e o o.dst
  let t := srcA e.a o
  let code := if n == 0#8 then 10 else storedCode t
  let entry := if code == 0 then some t else none
  .ok { flights := [⟨e.t + 1, e.t, o.slot, none, [.dset (dictBank o) n entry code], 0#8, none, none⟩]
        changes := [.entry (dictBank o) n entry] }

/-- DGET (R171). -/
def opDget (o : TOp) (e : Env) : Out :=
  let n := dictIndex e o o.sa
  let x : Word64 := if n == 0#8 then 0#64 else
    match e.c.dict.toList.getD (dictIx (dictBank o) n.toNat) none with
    | some t => t
    | none => 0xFFFFFFFFFFFFFFFF#64
  result e 0xE2 o [.s (regN o.dst) x true (if o.md.getLsbD 1 then taintOf e.a o.sb else 0)] 0#8

/-- DSEL (R172). -/
def opDsel (o : TOp) (e : Env) : Out :=
  .ok { flights := [⟨e.t + 1, e.t, o.slot, none, [.dsel (dictBank o)], 0#8, none, none⟩], changes := [.bank (dictBank o)] }

/-- FFENCE (R165, R166, R173). -/
def opFfence (_ : TOp) (_ : Env) : Out := .ok { ffence := true }

/-- Translation and permission of a 2 KiB image at a memory address (R169): the places of its bytes. -/
def imageLocs (s : State) (c : Core) (a : Nat) : Except AFail (List Loc) :=
  let chk := fun (b : Nat) => match s.regionOf c b with
    | .error .flat =>
      if (flatTarget s c b).1 > bits c.rankid.toNat 16 16 then Except.error (.trans b (c.rankFault b))
      else (match c.held? b with
      | some t => if t.r then .ok () else .error (.fault 0x08 6 b)
      | none => .ok ())
    | .error f => .error f
    | .ok g => if !g.r then .error (.fault 0x08 6 b) else .ok ()
  match collect c.timetabled [chk a, chk (a + 2047)] with
  | .error f => .error f
  | .ok _ => .ok ((List.range 2048).map (fun i => s.locOf c (a + i)))

/-- DLD (R166, R169). -/
def opDld (o : TOp) (e : Env) : Out :=
  let x := srcA e.a o
  let a := x.toNat
  let tgt := !e.c.sel
  let start := fun (readAt done : Option Nat) (ls : List Loc) (bs : List Byte) (bad : Bool) =>
    (Out.ok {
      post := fun c => { c with dld := some ⟨tgt, e.t, readAt, done, a, ls, bs, bad, [], none,
        if memAt a then (match e.c.held? a with | some t => t.bad | none => []) else [], taintOf e.a o.sa⟩ }
      spost := fun s => s.askBytes s.core dldId a none (ls.filter Loc.away) })
  let path := pathOf e.c a
  if e.c.timetabled && (path == .priv || path == .flat) then .fault 0x10 (auxAddr a 1)
  else match stackTest e.a o.sa a with
  | some w => .fault 0x0D w
  | none =>
  let spad := fun (add : Nat) =>
    if (e.s.banksOf e.c.pclus (winCore a)).mode (winIn a / 0x10000) != 0 then Out.fault 0x08 (auxAddr a 2)
    else if a % 2048 != 0 then .fault 0x0E (auxAddr a 7)
    else match fillTest e [(a, 2048)] with
      | some y => y
      | none =>
        if e.s.windowHit e.c.pclus (winCore a) (winIn a / 0x10000) (e.t + add) (e.t + add) then .fault 0x06 (auxWindow a o.slot)
        else
          let ls := (List.range 2048).map (fun i => e.s.locOf e.c (a + i))
          if add == 0 then
            start (some e.t) (some (e.t + 64)) [] (ls.map (fun l => e.s.spadSee e.c e.t l))
              ((List.range 16).any (fun i => e.s.blockPoisoned e.c.pclus (winCore a) (winIn a + 128 * i)))
          else start (some (e.t + add)) (some (e.t + 64 + add)) ls [] false
  match path with
  | .out => .fault 0x07 (auxTrans a ⟨false, 7, 1⟩)
  | .unmapped => .fault 0x08 (auxAddr a 9)
  | .own => spad 0
  | .clus _ => spad 4
  | .flat =>
    if a / 2 ^ 39 % 65536 > bits e.c.rankid.toNat 16 16 then .fault 0x07 (auxTrans a ⟨false, 7, 6⟩)
    else if a % 2048 != 0 then .fault 0x0E (auxAddr a 7)
    else start none none ((List.range 2048).map (fun i => e.s.locOf e.c (a + i))) [] false
  | .priv =>
    match imageLocs e.s e.c a with
    | .error f => failOut f
    | .ok ls => if a % 2048 != 0 then .fault 0x0E (auxAddr a 7) else start none none ls [] false

/-- Words 1 to 255 of an image: the entries, and the refused ones with their codes (R169). -/
def imageEntries (bs : List Byte) : List (Option Template) × List (Nat × Nat) :=
  (List.range 255).foldr (fun i x =>
    let t : Template := BitVec.ofNat 64 (leNat ((bs.drop (8 * (i + 1))).take 8))
    if t == 0#64 then (none :: x.1, x.2)
    else let code := storedCode t
      if code == 0 then (some t :: x.1, x.2) else (none :: x.1, (i + 1, code) :: x.2)) ([], [])

/-- The DLD of a core completes (R163, R165, R169). -/
def Core.dldDone (c : Core) (d : Dld) : Core :=
  let r := if d.poisoned then (List.replicate 255 none, (List.range 255).map (fun i => (i + 1, 0xF))) else imageEntries d.bytes
  let ts := none :: r.1
  { c with
    dict := vecOf 512 (fun i => if decide (dictIx d.bank 1 ≤ i ∧ i < dictIx d.bank 256) then ts.getD (i - dictIx d.bank 0) none
      else c.dict.toList.getD i none)
    dld := none
    lbank := d.bank
    ldref := r.2.length
    ldidx := (r.2.head?.map Prod.fst).getD 0
    ldcode := (r.2.head?.map Prod.snd).getD 0
    changes := c.changes ++ [(c.bundles + 3, .image d.bank ts)] }

/-- A byte as the core reads it for itself, and whether it is poisoned (R169, R207, R270): with the taint of its address, the pages poisoned
for it, and the bytes that came from other modules. -/
def State.ownByte (s : State) (c : Core) (taint : Taint) (psn : List Nat) (got : List (Loc × Byte)) (own : List ByteW) (l : Loc) : Byte × Bool :=
  match l with
  | .pa a =>
    (overlay own l (s.seeByte (dieOf c.pclus) a c.acq (decide (taint ≥ 4))),
      (match s.sectorAt (dieOf c.pclus) a with | some x => x.poison | none => false) || psn.contains (a / 4096))
  | .spad k n o => (s.spadSee c s.beat l, s.blockPoisoned k n o)
  | l => (match got.find? (fun x => x.1 == l) with | some x => overlay own l x.2 | none => 0#8, false)

/-- The last byte of the image of a DLD arrives (R169): it completes 64 beats later. An uncorrectable error sets the bit of its page (R279). -/
def State.dldArrives (s : State) (c : Core) (d : Dld) (uncorrectable : Bool) : State :=
  let own := s.ownEarlier c d.issue
  let xs := d.locs.map (s.ownByte c d.taint d.psn d.got own)
  let s := if uncorrectable then d.locs.foldl (fun (s : State) l => match l with | .pa a => s.poisonPage a | _ => s) s else s
  s.mapCore c.pclus c.pcore (fun c => { c with dld := some { d with
    done := some (s.beat + 64), readAt := some s.beat, bytes := xs.map Prod.fst, poisoned := d.poisoned || uncorrectable || xs.any Prod.snd } })

/-- No byte of the image of a DLD is missing, and its completion is not set yet (R169). -/
def Dld.whole (d : Dld) : Bool :=
  d.done.isNone && d.failed.isNone && d.readAt.isNone && !d.locs.any (fun l => l.away && !d.got.any (fun x => x.1 == l))

/-- DLD_COMPLETION: the load of the stepping core completes (R169). A read that its target refuses, or that a link loses, leaves
the entries and raises access refused with that detail at the completion (DESIGN CHOICE, log 31). -/
def execDldCompletion (s : State) : Result :=
  let c := s.core
  match c.dld with
  | none => .next s
  | some d =>
    match d.done, d.failed with
    | some b, none => if b ≤ s.beat then .next (s.mapCore c.pclus c.pcore (fun c => { c.dldDone d with lastDone := s.beat })) else .next s
    | _, some k => .next (s.mapCore c.pclus c.pcore (fun c => ({ c with dld := none, lastDone := s.beat }).raise 0x08 1 c.pc (auxAddr d.src k) s.beat))
    | none, none => .next s

/-! ## Adjoint instructions (R184 to R189) -/

/-- A tape write of the core: plain bytes of slot 6. -/
def Perf.isTape (p : Perf) : Bool := p.slot == 6 && p.req.isNone
def State.ownPerfs (s : State) (c : Core) : List Perf := s.perfs.filter (fun p => p.clus == c.pclus && p.core == c.pcore)
/-- Tape bytes on their way to their homes (R179, R188). -/
def State.tapeOut (s : State) (c : Core) : Bool :=
  (s.ownPerfs c).any Perf.isTape ||
  s.pk.remotes.any (fun r => r.id == tapeId && r.body.kind == .write && r.clus == c.pclus && r.core == c.pcore)
/-- Records that do not hold their old bytes yet: their stores have not performed (R178). -/
def State.recordsOpen (s : State) (c : Core) : Bool :=
  (s.ownPerfs c).any (fun p => match p.req with | some r => r.tape.isSome | none => false) ||
  s.pk.remotes.any (fun r => decide (r.id ≥ oldId) && r.clus == c.pclus && r.core == c.pcore)
/-- The offset of the lowest record whose store has yet to perform, held ones among them, or of the top of the tape. -/
def State.firstOpen (s : State) (c : Core) : Nat :=
  ((s.ownPerfs c ++ c.held).filterMap (fun p => match p.req with | some r => r.tape | none => none) ++
    s.pk.remotes.filterMap (fun r => if decide (r.id ≥ oldId) && r.clus == c.pclus && r.core == c.pcore then some (r.id - oldId) else none)).foldl min c.a.tapep.toNat

/-- Earlier differentiable accesses of the core that are not complete at `by_` (R184). A held access completes only at its
checkpoint, and is not waited for (DEDUCED, log 32). -/
def State.adjBusy (s : State) (c : Core) (by_ : Nat) : Bool :=
  c.reqs.any (fun r => r.diff && !r.held && (match r.kind, r.fixed with
    | .store, _ => false
    | _, some (_, d) => decide (d > by_)
    | .load, none => true
    | _, none => r.owesHome)) ||
  (s.ownPerfs c).any (fun p => match p.req with
    | some r => r.diff && r.kind == .store
    | none => p.slot != 6 && p.ws.any (fun w => !w.loc.isSpad)) ||
  c.outst.any (fun x => x.diff && x.away && !c.held.any (fun p => p.id == x.id))

/-- ADJM (R184). -/
def opAdjm (o : TOp) (e : Env) : Out :=
  if e.c.timetabled && e.s.adjBusy e.c (e.t + 1) then .fault 0x06 (auxTiming 9 o.slot 0)
  else .ok { post := fun c => { c with a := { c.a with adjmode := o.md.setWidth 2 } }, waits := [.adj] }

/-- ADJLD (R186). -/
def opAdjld (o : TOp) (e : Env) : Out :=
  let xi := if o.lk == 1#4 then addrOf (srcA e.a o) (litS o) else addrOf (srcA e.a o) 0#64
  let x := wrap 56 xi
  match pathOf e.c xi with
  | .out => .fault 0x07 (auxTrans x ⟨false, 7, 1⟩)
  | .priv =>
    match e.s.regionOf e.c x with
    | .error (.fault _ _ _) => .fault 0x0C (auxAdj x 0 7)
    | .error .flat => (match e.c.held? x with
      | some t => if t.d then result e 0xE6 o [.s (regN o.dst) (BitVec.ofNat 64 (cellAddr e.a (t.fmt == 2) x)) true (taintOf e.a o.sa)] 0#8
        else .fault 0x0C (auxAdj x 0 7)
      | none => .fault 0x0C (auxAdj x 0 7))
    | .error f => failOut f
    | .ok g =>
      if !g.d then .fault 0x0C (auxAdj x 0 7)
      else result e 0xE6 o [.s (regN o.dst) (BitVec.ofNat 64 (cellAddr e.a (g.fmt == 2) x)) true (taintOf e.a o.sa)] 0#8
  | _ => .fault 0x0C (auxAdj x 0 7)

/-- ADJCLR (R187). -/
def opAdjclr (o : TOp) (e : Env) : Out :=
  if e.a.adjmode != 0#2 then .fault 0x0C (auxAdj 0 0 6)
  else .ok { flights := [⟨e.t + 1, e.t, o.slot, none, [.tapeClear], 0#8, none, none⟩] }

/-- Tape bytes not yet home: offset of the first, and the bytes (R179, R188). -/
def Arch.unhomed (a : Arch) : Nat × List Byte :=
  let base := a.tapep.toNat - a.tape.length
  (max a.tapeHome base, a.tape.drop (a.tapeHome - base))

/-- Every tape byte not yet home is sent there; what cannot be translated stays (R188). -/
def State.flushTape (s : State) (issue : Nat) : State :=
  let c := s.core
  let u := c.a.unhomed
  match s.tapeLocs c true u.1 (u.1 + u.2.length) with
  | .error _ => s
  | .ok [] => { s with core := { c with a := { c.a with tapeFl := true } } }
  | .ok ls =>
    { s with
      perfs := s.perfs ++ [⟨s.beat + 3, issue, c.pclus, c.pcore, 6, tapeId, none, wholeBytes ls u.2, none, 0, 0, none, false, none⟩]
      core := { c with a := { c.a with tapeHome := c.a.tapep.toNat, tapeFl := true } } }

/-- TAPEFL (R188): the records that lower slots of the bundle push are part of the tape that it writes. -/
def opTapefl (o : TOp) (e : Env) : Out :=
  let u := e.a.unhomed
  match e.s.tapeLocs e.c true u.1 (e.a.tapep.toNat + (if e.a.adjmode == 1#2 then e.tp else 0)) with
  | .error f => failOut f
  | .ok ls =>
    if e.c.timetabled && (!ls.isEmpty || e.s.tapeOut e.c || e.s.recordsOpen e.c || (e.a.adjmode == 1#2 && e.tp != 0)) then
      .fault 0x06 (auxTiming 9 o.slot 0)
    else .ok { spost := fun s => s.flushTape e.t, waits := [.tapefl] }

/-- Tape bytes that have their old bytes and are to go home, and can (R179, R188). -/
def State.tapeDue (s : State) (c : Core) (lo hi : Nat) : Option (List Loc) :=
  if lo < hi then
    let r := s.withPages c (fun c => match s.tapeLocs c true lo hi with | .ok _ => .ok [] | .error f => .error f) 4
    match s.tapeLocs r.1 true lo hi with | .ok ls => some ls | .error _ => none
  else none
/-- Tape bytes go home at `due` (R179). -/
def State.sendTape (s : State) (due : Nat) (ls : List Loc) (bs : List Byte) : State :=
  { s with perfs := s.perfs ++ [⟨due, s.beat, s.core.pclus, s.core.pcore, 6, tapeId, none, wholeBytes ls bs, none, 0, 0, none, false, none⟩] }
/-- With no TAPE bank a record goes straight home once it holds its old bytes, those below it first; outside reverse mode the core keeps no
copy of what is home (R179). -/
def State.homeRecords (s : State) : State :=
  let c := s.core
  let a := c.a
  let base := a.tapep.toNat - a.tape.length
  let lo := max a.tapeHome base
  let hi := s.firstOpen c
  match s.tapeDue c lo hi with
  | some ls =>
    let s := s.sendTape s.beat ls ((a.tape.drop (lo - base)).take (hi - lo))
    { s with core := { s.core with a := { a with tapeHome := hi } } }
  | none =>
    let n := min hi a.tapeHome - base
    if a.adjmode == 2#2 then s else { s with core := { c with a := { a with tape := a.tape.drop n } } }
/-- Does the core wait for a TAPEFL (R188)? -/
def Core.flushing (c : Core) : Bool := c.waits.any (fun w => w == .tapefl)
/-- Old bytes that came late from another module have to go home after a TAPEFL (R178, R188). -/
def State.flushLeft (s : State) (c : Core) : Bool :=
  let u := c.a.unhomed
  !s.recordsOpen c && (s.tapeDue c u.1 (u.1 + u.2.length)).isSome

/-- TAPE_SPILL (R179): a tape bank without room for the records of another bundle sends its oldest 4,096 bytes to their homes, and
gives them up once they have performed there; with no TAPE bank records go straight home. -/
def execTapeSpill (s : State) : Result :=
  let c := s.core
  let a := c.a
  if s.tapeBank c && decide (a.tape.length + 304 > 65536) then
    let base := a.tapep.toNat - a.tape.length
    if a.tapeHome ≥ base + 4096 then
      (if s.tapeOut c then .next s else .next { s with core := { c with a := { a with tape := a.tape.drop 4096 } } })
    else
      let r := s.withPages c (fun c => match s.tapeLocs c true base (base + 4096) with | .ok _ => .ok [] | .error f => .error f) 4
      match s.tapeLocs r.1 true base (base + 4096) with
      | .error _ => .next s
      | .ok ls => .next { s.sendTape (s.beat + 3) ls (a.tape.take 4096) with core := { c with a := { a with tapeHome := base + 4096 } } }
  else if c.flushing && s.flushLeft c then .next (s.flushTape s.beat)
  else if s.tapeBank c then .next s
  else .next s.homeRecords

/-- Does reverse mode find less than the records of a bundle in the tape bank (R179)? -/
def Core.wantsRefill (c : Core) : Bool :=
  c.a.adjmode == 2#2 && decide (c.a.tape.length < 288) && decide (c.a.tape.length < c.a.tapep.toNat)

/-- TAPE_REFILL (R179): up to 4,096 bytes below those of the bank are read at their homes, and come into the bank a free number of
beats later (log 32). -/
def execTapeRefill (s : State) : Result :=
  let c := s.core
  let a := c.a
  if c.wantsRefill then
    let hi := a.tapep.toNat - a.tape.length
    let lo := hi - 4096
    let r := s.withPages c (fun c => match s.tapeLocs c false lo hi with | .ok _ => .ok [] | .error f => .error f) 4
    match s.tapeLocs r.1 false lo hi with
    | .error _ => .next s
    | .ok ls =>
      let away := ls.filter Loc.away
      match c.tapeFill with
      | none => if s.tapeOut c then .next s else
        .next ({ s with free := s.free + 1, core := { c with tapeFill := some (s.beat + 1 + Config.storeDelay s.free) } }.askBytes c tapeId
          (a.tapeb.toNat + lo) none away)
      | some b =>
        if decide (b > s.beat) || s.tapeOut c || away.any (fun l => !c.fetchGot.any (fun x => x.1 == l)) then .next s
        else
          let bs := ls.map (fun l => (s.ownByte c 0 [] c.fetchGot (s.ownEarlier c s.beat) l).1)
          .next { s with core := { c with a := { a with tape := bs ++ a.tape, tapeHome := max a.tapeHome hi }, tapeFill := none, fetchGot := [] } }
  else .next { s with core := { c with tapeFill := none } }

/-! ## Checkpoint, return, breakpoint (R218, R224, R230, R231) -/

def opCkpt (_ : TOp) (e : Env) : Out := if e.c.drained then .ok { ckpt := true } else .hold
def opRte (_ : TOp) (e : Env) : Out :=
  if !e.c.hm then .fault 0x13 (auxPriv 3 false 0) else .ok { waits := [.rte (e.t + 1)] }
def opBkpt (_ : TOp) (_ : Env) : Out := .ok { after := some (0x16, 0#64) }

def execDld (o : TOp) (s : State) : Result := .next (issueOne 0xE0 o opDld true s)
def execDset (o : TOp) (s : State) : Result := .next (issueOne 0xE1 o opDset true s)
def execDget (o : TOp) (s : State) : Result := .next (issueOne 0xE2 o opDget true s)
def execDsel (o : TOp) (s : State) : Result := .next (issueOne 0xE3 o opDsel true s)
def execFfence (o : TOp) (s : State) : Result := .next (issueOne 0xE4 o opFfence true s)
def execAdjm (o : TOp) (s : State) : Result := .next (issueOne 0xE5 o opAdjm true s)
def execAdjld (o : TOp) (s : State) : Result := .next (issueOne 0xE6 o opAdjld true s)
def execAdjclr (o : TOp) (s : State) : Result := .next (issueOne 0xE7 o opAdjclr true s)
def execTapefl (o : TOp) (s : State) : Result := .next (issueOne 0xE8 o opTapefl true s)
def execCkpt (o : TOp) (s : State) : Result := .next (issueOne 0xE9 o opCkpt true s)
def execRte (o : TOp) (s : State) : Result := .next (issueOne 0xEA o opRte true s)
def execBkpt (o : TOp) (s : State) : Result := .next (issueOne 0xEC o opBkpt true s)
/-! ## Direct forms -/

def bankMd (b : BitVec 1) : BitVec 5 := b.setWidth 5
def execDldDirect (a : BitVec 6) (s : State) : Result :=
  .next (issueOne 0xE0 (dirX 0#8 (sreg a) 0#8 0#4 0#22 0#5) opDld false s)
def execDsetDirect (a : BitVec 6) (bank : BitVec 1) (n : BitVec 8) (s : State) : Result :=
  .next (issueOne 0xE1 (dirX n (sreg a) 0#8 0#4 0#22 (bankMd bank)) opDset false s)
def execDgetDirect (d : BitVec 6) (bank : BitVec 1) (n : BitVec 8) (s : State) : Result :=
  .next (issueOne 0xE2 (dirX (sreg d) n 0#8 0#4 0#22 (bankMd bank)) opDget false s)
def execDselDirect (bank : BitVec 1) (s : State) : Result :=
  .next (issueOne 0xE3 (dirX 0#8 0#8 0#8 0#4 0#22 (bankMd bank)) opDsel false s)
def execFfenceDirect (s : State) : Result := .next (issueOne 0xE4 (dirX 0#8 0#8 0#8 0#4 0#22 0#5) opFfence false s)
def execCkptDirect (s : State) : Result := .next (issueOne 0xE9 (dirX 0#8 0#8 0#8 0#4 0#22 0#5) opCkpt false s)

end Sys2Proof.Machine
end

