-- ==== Sys2Proof/Machine/Matrix.lean ====
section
/-! DEFINITION. The outer-product engine and the accumulator slot (R134 to R161). -/
namespace Sys2Proof.Machine

/-! ## Accumulation (R135, R139, R140) -/

/-- Events of a step (R135): IVC, OFC, NANC, INXC. -/
structure Ev where
  ivc : Bool
  ofc : Bool
  nanc : Bool
  inxc : Bool
  deriving DecidableEq, Repr

def Ev.none : Ev := ⟨false, false, false, false⟩
/-- R136: a step counts each event once. -/
def Ev.or (a b : Ev) : Ev := ⟨a.ivc || b.ivc, a.ofc || b.ofc, a.nanc || b.nanc, a.inxc || b.inxc⟩

/-- An element's new pattern and its events. -/
structure Acc where
  pat : Nat
  ev : Ev

def afNan (operand : Bool) : Acc := ⟨Bin.af48.nanPat, ⟨!operand, false, operand, false⟩⟩
def roundAf (x : Dy) : Rounded := Bin.af48.roundFin Rnd.rneGrad x

/-- A finite value on the grid of multiples of 2^e, ties to even; a zero keeps its sign (R140). -/
def gridRound (d : Dy) (e : Int) : Dy :=
  if d.m == 0 ∨ d.e ≥ e then d
  else
    let k := (e - d.e).toNat
    let q := d.m / 2 ^ k
    let r := d.m % 2 ^ k
    let up := decide (2 * r > 2 ^ k) || (2 * r == 2 ^ k && q % 2 == 1)
    ⟨d.neg, if up then q + 1 else q, e⟩

/-- accum of R140: `nan` tells that an operand of a product is a NaN. -/
def accum (c : XVal) (nan : Bool) (ps : List XVal) : Acc :=
  if c.isNan || nan then afNan true
  else if ps.any XVal.isNan then afNan false
  else
    let terms := c :: ps
    let pos := terms.any (fun x => x == .inf false)
    let neg := terms.any (fun x => x == .inf true)
    if pos && neg then afNan false
    else if pos || neg then ⟨Bin.af48.withSign neg Bin.af48.infPat, Ev.none⟩
    else match c with
    | .fin cd =>
      let pd := finTerms ps
      let nz := pd.filter (fun d => d.m != 0)
      let cr := match nz with
        | [] => cd
        | d :: ds => gridRound cd (ds.foldl (fun m x => max m x.log2) d.log2 - 47)
      let x := dySum (cr :: pd)
      let r := roundAf x
      let changed := Dy.cmp cr cd != .eq
      ⟨r.pat, ⟨false, r.fl &&& fOF != 0#8, false, changed || r.fl &&& fNX != 0#8⟩⟩
    | _ => afNan false

/-- A tile from its element updates, with the events of the step. -/
def stepTile (f : Nat → Nat → Acc) : Tile × Ev :=
  let rows := (List.range 32).map (fun i => (List.range 32).map (fun j => f i j))
  (tileOf (fun i j => BitVec.ofNat 48 ((rows.getD i []).getD j ⟨0, Ev.none⟩).pat),
    rows.foldl (fun e r => r.foldl (fun e a => e.or a.ev) e) Ev.none)

def afAt (t : Tile) (init : Bool) (i j : Nat) : XVal := if init then .zero else Bin.af48.decode (tileAt t i j).toNat

/-- The outer-product step of R140 and R145 over K products. -/
def outerStep (t : Tile) (neg init : Bool) (prods : List (List XVal × List XVal)) : Tile × Ev :=
  stepTile (fun i j =>
    let ops := prods.map (fun p => (p.1.getD i .zero, p.2.getD j .zero))
    let ps := ops.map (fun x => let p := (xmul x.1 x.2).v; if neg then p.negate else p)
    accum (afAt t init i j) (ops.any (fun x => x.1.isNan || x.2.isNan)) ps)

/-- x truncated toward zero to its 8 leading significant bits (R146). -/
def cut8 (d : Dy) : Dy :=
  let k := Nat.log2 d.m + 1 - 8
  if d.m == 0 then ⟨false, 0, 0⟩ else ⟨d.neg, d.m / 2 ^ k * 2 ^ k, d.e⟩
/-- The slices of R146; a slice that is zero is +0. -/
def sliceOf (n : Nat) (d : Dy) : Dy :=
  let plus := fun (x : Dy) => if x.m == 0 then ⟨false, 0, 0⟩ else x
  let x0 := cut8 d
  let r1 := d.add x0.negate
  let x1 := cut8 r1
  plus (match n with | 0 => x0 | 1 => x1 | _ => r1.add x1.negate)
/-- The slices that step `k` of MOPS multiplies. -/
def mopsPair (k : Nat) : Nat × Nat := [(0, 2), (1, 1), (2, 0), (0, 1), (1, 0)].getD k (0, 0)
/-- Step `k` of MOPS (R146). -/
def mopsStep (t : Tile) (k : Nat) (neg init : Bool) (a b : List XVal) : Tile × Ev :=
  let p := mopsPair k
  stepTile (fun i j =>
    let x := a.getD i .zero
    let y := b.getD j .zero
    let sg := fun (v : XVal) => if neg then v.negate else v
    match x, y with
    | .fin dx, .fin dy => accum (afAt t (init && k == 0) i j) false [sg (.fin ((sliceOf p.1 dx).mul (sliceOf p.2 dy)))]
    | _, _ =>
      if k == 0 then accum (afAt t init i j) (x.isNan || y.isNan) [sg (xmul x y).v]
      else accum (afAt t false i j) false [.zero])

/-- One part of MOPC (R147): sum, compensation, events. -/
def mopcPart (h c : XVal) (opNan : Bool) (q : List XVal) : Nat × Nat × Ev :=
  if h.isNan || c.isNan || opNan then (Bin.af48.nanPat, 0, ⟨false, false, true, false⟩)
  else if q.any XVal.isNan then (Bin.af48.nanPat, 0, ⟨true, false, false, false⟩)
  else
    let terms := h :: c :: q
    let pos := terms.any (fun x => x == .inf false)
    let neg := terms.any (fun x => x == .inf true)
    if pos && neg then (Bin.af48.nanPat, 0, ⟨true, false, false, false⟩)
    else if pos || neg then (Bin.af48.withSign neg Bin.af48.infPat, 0, Ev.none)
    else
      let t := dySum (finTerms terms)
      let allNeg := (finTerms terms).all (fun d => d.neg && d.m == 0)
      let rh := roundAf t
      let rc := Bin.af48.round Rnd.rneGrad (xsum [.fin t, (Bin.af48.decode rh.pat).negate]).v
      (rh.pat, if allNeg then Bin.af48.signBit else rc.pat,
        ⟨false, rh.fl &&& fOF != 0#8, false, rh.fl &&& fNX != 0#8 || rc.fl &&& fNX != 0#8⟩)

/-- The compensated complex step (R147). -/
def mopcStep (t : Tile) (neg init : Bool) (a b : List XVal) : Tile × Ev :=
  let part := fun (i j : Nat) =>
    let ar := a.getD (2 * i) .zero
    let ai := a.getD (2 * i + 1) .zero
    let br := b.getD (2 * (j / 2)) .zero
    let bi := b.getD (2 * (j / 2) + 1) .zero
    let sg := fun (v : XVal) => if neg then v.negate else v
    let q := if j % 2 == 0 then [sg (xmul ar br).v, sg (xmul ai bi).v.negate] else [sg (xmul ar bi).v, sg (xmul ai br).v]
    mopcPart (afAt t init i j) (afAt t init (16 + i) j) ([ar, ai, br, bi].any XVal.isNan) q
  let rows := (List.range 16).map (fun i => (List.range 32).map (fun j => part i j))
  let at_ := fun (i j : Nat) => (rows.getD i []).getD j (0, 0, Ev.none)
  (tileOf (fun i j => BitVec.ofNat 48 (if i < 16 then (at_ i j).1 else (at_ (i - 16) j).2.1)),
    rows.foldl (fun e r => r.foldl (fun e x => e.or x.2.2) e) Ev.none)

/-! ## Operands (R137 to R139) -/

/-- K and the element width of R137. -/
def packOf (t : Ty) : Nat × Nat := match t with | .bf16 => (1, 16) | .t6 => (4, 6) | _ => (2, 8)
def mFmt (t : Ty) : Option Fmt := match t with | .i8 => some .i8 | x => x.fmt

/-- Column or row `s` of a packed vector operand, scaled under .scl (R137 to R139). -/
def packed (t : Ty) (x : Lanes) (s : Nat) (scale : Option Nat) : List XVal :=
  let w := (packOf t).2
  x.toList.map (fun l =>
    let b := bits l.toNat (w * s) w
    match mFmt t with
    | none => .zero
    | some f => match scale with | some g => scaled f b g | none => f.decode b)

def msclA (x : Word64) (s : Nat) : Nat := bits x.toNat (8 * s) 8
def msclB (x : Word64) (s : Nat) : Nat := bits x.toNat (32 + 8 * s) 8
def f32s (x : Lanes) : List XVal := x.toList.map (fun l => Bin.f32.decode l.toNat)

/-! ## Busy units (R141, R143, R153) -/

/-- TRAPAUX of R143. -/
def auxBusy (left unit slot : Nat) : Word64 := BitVec.ofNat 64 (left % 256 * 256 + unit * 128 + slot * 16 + 0xB)
/-- An M operation with its busy beats; the timing fault when the engine is busy (R143). -/
def withEngine (e : Env) (busy : Nat) (x : Out) : Out :=
  match x with
  | .ok eff =>
    if e.c.engBusy > e.t then .fault 0x06 (auxBusy (e.c.engBusy - e.t) 0 3)
    else .ok { eff with post := fun c => { eff.post c with engBusy := e.t + busy } }
  | x => x
def withASlot (e : Env) (busy : Nat) (x : Out) : Out :=
  match x with
  | .ok eff =>
    if e.c.aBusy > e.t then .fault 0x06 (auxBusy (e.c.aBusy - e.t) 1 7)
    else .ok { eff with post := fun c => { eff.post c with aBusy := e.t + busy } }
  | x => x

def mNeg (o : TOp) : Bool := o.md.getLsbD 1
def mInit (o : TOp) : Bool := o.md.getLsbD 2
def mStep (e : Env) (o : TOp) (d v : Nat) (k : StepKind) : EngStep := ⟨e.t + d, e.t + d + e.lat .mx + v, e.t, tileN o.dst, k⟩

/-! ## Outer products -/

def opMop (o : TOp) (e : Env) : Out :=
  let scl := o.md.getLsbD 0
  let prods := (List.range (packOf o.t).1).map (fun s =>
    (packed o.t (e.a.rv (regN o.sa)) s (if scl then some (msclA e.a.mscl s) else none),
     packed o.t (e.a.rv (regN o.sb)) s (if scl then some (msclB e.a.mscl s) else none)))
  withEngine e 1 (.ok { steps := [mStep e o 0 0 (.accum (mNeg o) (mInit o) prods)] })

def opMops (o : TOp) (e : Env) : Out :=
  withEngine e 6 (.ok { steps := (List.range 6).map (fun k =>
    mStep e o k 0 (.mops k (mNeg o) (mInit o) (f32s (e.a.rv (regN o.sa))) (f32s (e.a.rv (regN o.sb))))) })
def opMopc (o : TOp) (e : Env) : Out :=
  withEngine e 9 (.ok { steps := [mStep e o 8 0 (.mopc (mNeg o) (mInit o) (f32s (e.a.rv (regN o.sa))) (f32s (e.a.rv (regN o.sb))))] })
def opMrank1 (o : TOp) (e : Env) : Out :=
  withEngine e 9 (.ok { steps := [mStep e o 8 0 (.accum (mNeg o) (mInit o) [(f32s (e.a.rv (regN o.sa)), f32s (e.a.rv (regN o.sb)))])] })
def opMzero (o : TOp) (e : Env) : Out := withEngine e 1 (.ok { steps := [mStep e o 0 0 .zero] })
def opMscale (o : TOp) (e : Env) : Out :=
  withEngine e 1 (.ok { post := fun c => { c with a := { c.a with mscl := srcA e.a o } } })

/-! ## Scratchpad access by the engine (R156, R158, R159) -/

/-- An address of the core's own scratchpad in a SPAD bank: its offset (R158). -/
def engAddr (e : Env) (x : Word64) : Except Out Nat :=
  let a := x.toNat
  match pathOf e.c a with
  | .own =>
    let off := winIn a
    if (e.s.banksOf e.c.pclus e.c.pcore).mode (off / 0x10000) != 0 then .error (.fault 0x08 (auxAddr a 2)) else .ok off
  | _ => .error (.fault 0x08 (auxAddr a 1))

def ownLoc (c : Core) (off : Nat) : Loc := .spad c.pclus c.pcore off
def ownAddr (c : Core) (off : Nat) : Nat := spadBase + c.pcore * 0x40000 + off
def ownQ (e : Env) (off : Nat) : Word64 := (e.s.banksOf e.c.pclus e.c.pcore).qf (off / 0x4000)

/-- Watermarks, guards and windows over a range that the engine accesses (R158, R202, R254); rows that are held meet no window
now (R220). -/
def engFill (e : Env) (slot off len b0 b1 : Nat) (held : Bool) (k : Out) : Out :=
  match fillTest e [(ownAddr e.c off, len)] with
  | some x => x
  | none => if !held && e.s.windowHit e.c.pclus e.c.pcore (off / 0x10000) b0 b1 then .fault 0x06 (auxWindow (ownAddr e.c off) slot) else k

/-- R151: formats of MFILL and MSTASH, and the bytes of 1,024 elements. -/
def fillFmt (q : Word64) : Option (Nat × Nat) :=
  if qGeom q != 0 then none
  else match qFmt q with
  | 1 => some (4, 4096) | 2 => some (2, 2048) | 3 => some (1, 1024) | 4 => some (1, 1024) | 5 => some (3, 768)
  | 6 => some (1, 1024) | 8 => some (4, 4096)
  | _ => none

/-- The checks of MFILL and MSTASH (R151, R152, R159, R236): the offset. -/
def tileSpan (e : Env) (o : TOp) : Except Out (Nat × Nat) :=
  let x := srcA e.a o
  match stackTest e.a o.sa x.toNat with
  | some w => .error (.fault 0x0D w)
  | none =>
  match engAddr e x with
  | .error f => .error f
  | .ok off =>
    let q := ownQ e off
    match fillFmt q with
    | none => .error (.fault 0x08 (auxAddr x.toNat 4))
    | some (esz, len) =>
      if off < qDbase q then .error (.fault 0x08 (auxAddr x.toNat 4))
      else if off / 0x4000 != (off + len - 1) / 0x4000 then .error (.fault 0x08 (auxAddr x.toNat 3))
      else if off % 128 != 0 ∨ (off - qDbase q) % esz != 0 then .error (.fault 0x0E (auxAddr x.toNat 7))
      else .ok (off, len)

def opMfill (o : TOp) (e : Env) : Out :=
  withEngine e 34 (match tileSpan e o with
    | .error f => f
    | .ok (off, len) => engFill e 3 off len (e.t + 2) (e.t + 33) false
        (.ok { steps := [mStep e o 33 0 (.fill [] (o.md.getLsbD 0) off)] }))

/-- Rows to come, in row order, with the identity of the operation (R152, R156, R220). -/
def rowPerfs (e : Env) (o : TOp) (first : Nat) (row : Nat → List ByteW) : List Perf :=
  (List.range 32).map (fun i => mkPerf e o (first + i) none (row i) none 1)

def opMstash (o : TOp) (e : Env) : Out :=
  let L := e.lat .mx
  withEngine e 34 (match tileSpan e o with
    | .error f => f
    | .ok (off, len) => engFill e 3 off len (e.t + L + 2) (e.t + L + 33) e.c.guarded
        (.ok { steps := [⟨e.t + L + 1, e.t + L + 1, e.t, tileN o.dst, .stash (o.md.getLsbD 0) o.mode e.lanes off⟩]
               perfs := rowPerfs e o (e.t + L + 2) (fun _ => []) }))

/-! ## Unfolding (R149, R150) -/

/-- Fields of the descriptor. -/
structure Unf where
  W : Nat
  H : Nat
  base : Nat
  dw : Nat
  dh : Nat
  pw : Nat
  ph : Nat
  sw : Nat
  sh : Nat
  kw : Nat
  kh : Nat
  C : Nat

def unfOf (w0 w1 : Nat) : Unf where
  W := bits w0 48 16
  H := bits w0 32 16
  base := bits w0 0 18
  dw := bits w1 44 4
  dh := bits w1 40 4
  pw := bits w1 36 4
  ph := bits w1 32 4
  sw := bits w1 28 4
  sh := bits w1 24 4
  kw := bits w1 20 4
  kh := bits w1 16 4
  C := bits w1 0 16

/-- Output size in one direction, `none` below 1 (R149). -/
def outSize (n p d k s : Nat) : Option Nat :=
  let x : Int := (n : Int) + 2 * p - d * (k - 1 : Nat) - 1
  if x < 0 ∨ s = 0 then none else some (x.toNat / s + 1)
def Unf.oh (u : Unf) : Nat := (outSize u.H u.ph u.dh u.kh u.sh).getD 0
def Unf.ow (u : Unf) : Nat := (outSize u.W u.pw u.dw u.kw u.sw).getD 0
/-- R149: every field in range, reserved bits zero. -/
def unfOk (w0 w1 : Nat) : Bool :=
  let u := unfOf w0 w1
  bits w0 18 14 == 0 && bits w1 48 16 == 0 &&
  [u.W, u.H, u.dw, u.dh, u.sw, u.sh, u.kw, u.kh, u.C].all (fun x => decide (x ≥ 1)) && decide (u.oh ≥ 1) && decide (u.ow ≥ 1)

/-- Element offset of unfolded row m, column k from element 0; `none` outside the extent (R150). -/
def Unf.elem (u : Unf) (m k : Nat) : Option Nat :=
  let ch := k % u.C
  let q := k / u.C
  let kx := q % u.kw
  let ky := q / u.kw
  let oy := m / u.ow
  let ox := m % u.ow
  let iy : Int := (oy * u.sh : Nat) - (u.ph : Int) + (ky * u.dh : Nat)
  let ix : Int := (ox * u.sw : Nat) - (u.pw : Int) + (kx * u.dw : Nat)
  if m ≥ u.oh * u.ow ∨ ky ≥ u.kh ∨ iy < 0 ∨ iy ≥ u.H ∨ ix < 0 ∨ ix ≥ u.W then none
  else some ((iy.toNat * u.W + ix.toNat) * u.C + ch)

/-- Bytes of `n` elements of a format from a data element on. -/
def spanBytes (fmt n : Nat) : Nat :=
  match fmt with | 1 => 4 * n | 2 => 2 * n | 5 => 3 * ((n + 3) / 4) | 7 => 8 * n | 8 => 4 * n | _ => n

/-- The index of element 0 of the tensor, where BASE names an element (R394). -/
def tensorBase (q : Word64) (u : Unf) : Option Nat :=
  let d := u.base - qDbase q
  let b := if qFmt q == 5 then 3 else spanBytes (qFmt q) 1
  if d % b != 0 then none else some (if qFmt q == 5 then 4 * (d / 3) else d / b)

/-- What refuses a tensor (R149, R159, R242, R394): cause and detail, the lowest of them, or the format register of its quarters. A
tensor that reaches past the core's own banks is not in its scratchpad. -/
def tensorQ (b : Banks) (u : Unf) : Except (Nat × Nat) Word64 :=
  let q := b.qf (u.base / 0x4000)
  let last := u.base + spanBytes (qFmt q) (u.H * u.W * u.C) - 1
  let ks := (List.range 16).filter (fun k => decide (u.base / 0x4000 ≤ k ∧ k ≤ last / 0x4000))
  if last ≥ 0x40000 then .error (0x08, 1)
  else if ks.any (fun k => b.mode (k / 4) != 0) then .error (0x08, 2)
  else if ks.any (fun k => b.qf k != q) then .error (0x08, 3)
  else if u.base < qDbase q then .error (0x08, 4)
  else if (tensorBase q u).isNone then .error (0x0E, 7)
  else .ok q

/-- The descriptor at an offset and the register of its quarters, or what refuses it (R149, R159). -/
def loadUnf (b : Banks) (rd : Nat → Byte) (off : Nat) : Except (Nat × Nat) (Nat × Nat × Word64) :=
  let w0 := leNat ((List.range 8).map (fun i => rd (off + i)))
  let w1 := leNat ((List.range 8).map (fun i => rd (off + 8 + i)))
  if !unfOk w0 w1 then .error (0x08, 5)
  else match tensorQ b (unfOf w0 w1) with
    | .error f => .error f
    | .ok q => .ok (w0, w1, q)

/-- MUCFG (R149): the descriptor is judged as it stands at issue + 2, with the stores of its own bundle. -/
def opMucfg (o : TOp) (e : Env) : Out :=
  let x := srcA e.a o
  let late := fun (off : Nat) (ps : List Perf) =>
    let s : State := if e.c.guarded then { e.s with core := { e.c with held := e.c.held ++ ps } } else { e.s with perfs := e.s.perfs ++ ps }
    match loadUnf (s.banksOf e.c.pclus e.c.pcore) (fun i => s.spadSee s.core (e.t + 2) (ownLoc e.c i)) off with
    | .error f => some (f.1, auxAddr x.toNat f.2)
    | .ok _ => none
  withEngine e 4 (match stackTest e.a o.sa x.toNat with
    | some w => .fault 0x0D w
    | none => match engAddr e x with
      | .error f => f
      | .ok off =>
        if off % 16 != 0 then .fault 0x0E (auxAddr x.toNat 7)
        else engFill e 3 off 16 (e.t + 2) (e.t + 2) false
          (.ok { steps := [⟨e.t + 2, e.t + 4, e.t, 0#3, .ucfg off e.c.pc⟩], late := late off }))

/-- One element of the tensor, decoded with its block scale (R64, R65, R150): its value, its bytes and its scale byte. -/
def tensorElem (q : Word64) (rd : Nat → Byte) (i : Nat) : XVal × List Nat × Option Nat :=
  let p := if qFmt q == 5 then (qDbase q + 3 * (i / 4), 6 * (i % 4)) else (qDbase q + spanBytes (qFmt q) 1 * i, 0)
  let n := if qFmt q == 5 then 3 else spanBytes (qFmt q) 1
  let w := if qFmt q == 5 then 6 else 8 * n
  let raw := leNat ((List.range n).map (fun j => rd (p.1 + j))) / 2 ^ p.2 % 2 ^ w
  let bs := (List.range n).map (fun j => p.1 + j)
  match Fmt.ofCode (qFmt q), geomSize (qGeom q) with
  | some f, some (g + 1) => (scaled f raw (rd (qSbase q + i / (g + 1))).toNat, bs, some (qSbase q + i / (g + 1)))
  | some f, _ => (f.decode raw, bs, none)
  | none, _ => (.zero, bs, none)

/-- A scale byte of the engine lies in a SPAD quarter of the core whose format is RAW (R242). -/
def scaleOk (b : Banks) (i : Nat) : Bool := decide (i < 0x40000) && b.mode (i / 0x10000) == 0 && qFmt (b.qf (i / 0x4000)) == 0

/-- MOPV (R150). A breach names the base of the tensor as its address, though R159 does not say which address it is; with no MUCFG done the
descriptor is no tensor and is refused; and what counts as changed since MUCFG is any bit of the quarter register, or the bank's mode now
(DEDUCED, log 11). -/
def opMopv (o : TOp) (e : Env) : Out :=
  let u := unfOf e.a.unf0.toNat e.a.unf1.toNat
  let b := e.s.banksOf e.c.pclus e.c.pcore
  let addr := ownAddr e.c u.base
  let m0 := bits (srcA e.a o).toNat 0 32
  let k0 := bits (srcA e.a o).toNat 32 32
  let K := (packOf o.t).1
  let refused := Out.fault 0x08 (auxAddr addr 4)
  withEngine e 1 (match (if unfOk e.a.unf0.toNat e.a.unf1.toNat then (tensorQ b u).toOption else none), mFmt o.t with
    | some q, some f =>
      if q != e.a.unfq || Fmt.ofCode (qFmt q) != some f || !fmtOk (qFmt q) (qGeom q) then refused
      else
        let rd := fun (i : Nat) => e.s.spadSee e.c e.t (ownLoc e.c i)
        let base := (tensorBase q u).getD 0
        let cols := (List.range K).map (fun s => (List.range 32).map (fun i =>
          match u.elem (m0 + i) (k0 + s) with
          | none => (XVal.zero, [], none)
          | some n => tensorElem q rd (base + n)))
        let scales := (cols.flatten.filterMap (fun x => x.2.2)).eraseDups
        let touched := (cols.flatten.flatMap (fun x => x.2.1)).eraseDups ++ scales
        let scl := o.md.getLsbD 0
        if scales.any (fun i => !scaleOk b i) then refused
        else match fillTest e (touched.map (fun i => (ownAddr e.c i, 1))) with
          | some x => x
          | none =>
            if touched.any (fun i => e.s.windowHit e.c.pclus e.c.pcore (i / 0x10000) e.t e.t) then .fault 0x06 (auxWindow addr 3)
            else
              let prods := (List.range K).map (fun s => ((cols.getD s []).map Prod.fst,
                packed o.t (e.a.rv (regN o.sb)) s (if scl then some (msclB e.a.mscl s) else none)))
              .ok { steps := [mStep e o 0 2 (.accum (mNeg o) (mInit o) prods)] }
    | _, _ => refused)

/-! ## Engine steps at their beats (R141, R151, R152) -/

/-- 32 values of a row of MFILL (R151), in the format that the quarter has at the row's beat: the span and the format were checked at issue alone
(DEDUCED, log 11). -/
def fillRow (q : Word64) (rd : Nat → Byte) (off i : Nat) (tr : Bool) : List XVal :=
  let q0 := BitVec.ofNat 64 (q.toNat % 16 + off * 4096)
  (List.range 32).map (fun j => (tensorElem q0 rd (if tr then 32 * j + i else 32 * i + j)).1)

def roundPat (v : XVal) : Af48 := BitVec.ofNat 48 (Bin.af48.round Rnd.rneGrad v).pat

/-- A row that a read of the engine takes at `beat` (R151, R156). -/
def State.engRow (s : State) (c : Core) (x : EngStep) (beat : Nat) : StepKind :=
  let rd := fun (i : Nat) => s.spadSee c beat (ownLoc c i)
  match x.kind with
  | .fill rows tr off =>
    let i := rows.length
    if x.issue + 2 + i ≤ beat ∧ i < 32 then
      .fill (rows ++ [fillRow ((s.banksOf c.pclus c.pcore).qf (off / 0x4000)) rd off i tr]) tr off
    else x.kind
  | .aread raw rows off =>
    let i := rows.length
    if x.issue + 2 + i ≤ beat ∧ i < 32 then
      .aread raw (rows ++ [(List.range 32).map (fun j =>
        if raw then BitVec.ofNat 48 (leNat ((List.range 6).map (fun b => rd (off + 192 * i + 6 * j + b))))
        else roundPat (Bin.f32.decode (leNat ((List.range 4).map (fun b => rd (off + 128 * i + 4 * j + b))))))]) off
    else x.kind
  | k => k

/-- The new tile of a step and its events (R140 to R151). The manual does not say whether an MFILL that reads a NaN counts it; the
model counts nothing (DESIGN CHOICE, log 33). -/
def stepResult (t : Tile) : StepKind → Option (Tile × Ev)
  | .accum neg init prods => some (outerStep t neg init prods)
  | .mops k neg init a b => some (mopsStep t k neg init a b)
  | .mopc neg init a b => some (mopcStep t neg init a b)
  | .zero => some (tile0, Ev.none)
  | .fill rows _ _ => some (tileOf (fun i j => roundPat ((rows.getD i []).getD j .zero)), Ev.none)
  | _ => none

/-- Replace the tile of an AFILL in flight (R156). -/
def fillFlight (issue : Nat) (rows : List (List Af48)) (f : Flight) : Flight :=
  if f.issue == issue && f.slot == 7 then
    { f with ws := f.ws.map (fun w => match w with
      | .tile n r _ => .tile n r (tileOf (fun i j => (rows.getD i []).getD j 0#48))
      | w => w) }
  else f

/-- One engine step that is due. A descriptor that a copy made bad after the issue of MUCFG traps against its bundle (DESIGN CHOICE,
log 31). -/
def State.runStep (s : State) (c : Core) (x : EngStep) : Core :=
  match x.kind with
  | .aread _ rows _ => { c with flights := c.flights.map (fillFlight x.issue rows) }
  | .ucfg off pc =>
    match loadUnf (s.banksOf c.pclus c.pcore) (fun i => s.spadSee c x.due (ownLoc c i)) off with
    | .ok (w0, w1, q) => { c with flights := c.flights ++
        [⟨x.visible, x.issue, 3, none, [.unf (BitVec.ofNat 64 w0) (BitVec.ofNat 64 w1) q], 0#8, none, none⟩] }
    | .error f => c.raise f.1 0 pc (auxAddr (ownAddr c off) f.2) s.beat
  | k =>
    match stepResult (c.eng.get x.tile.toFin) k with
    | none => c
    | some (t, ev) => { c with
        eng := c.eng.set x.tile.toFin t
        order := c.order + 1
        flights := c.flights ++ [⟨x.visible, x.issue, 3, none, [.vis x.tile (c.order + 1) t, .mxc ev.ivc ev.ofc ev.nanc ev.inxc], 0#8, none, none⟩] }

/-- Does the step run at the end of beat `b`? A stash reads its tile with the deliveries of its beat. -/
def EngStep.runsAt (x : EngStep) (b : Nat) : Bool :=
  decide (x.due ≤ b) && (match x.kind with | .stash _ _ _ _ => false | _ => true)

/-- Engine steps and reads of one core at the end of a beat, in issue order (R141). -/
def State.engineCore (s : State) (c : Core) : Core :=
  let c : Core := { c with steps := c.steps.map (fun (x : EngStep) => { x with kind := s.engRow c x s.beat }) }
  let now := c.steps.filter (fun x => x.runsAt s.beat)
  let c := { c with steps := c.steps.filter (fun x => !x.runsAt s.beat) }
  now.foldl (fun c x => s.runStep c x) c

/-- The rounded elements of a stash and their flags (R152). -/
def stashElems (q : Word64) (t : Tile) (tr : Bool) (mode : RMode) (lanes : Lanes) : List (List Nat) × Flags8 :=
  match Fmt.ofCode (qFmt q) with
  | none => ([], 0#8)
  | some f =>
    let one := fun (i j : Nat) =>
      f.round ⟨mode, qRc q, (laneAt lanes ((i + j) % 32)).rotateLeft i, false⟩ (Bin.af48.decode (tileAt t i j).toNat)
    let rows := (List.range 32).map (fun r => (List.range 32).map (fun k => if tr then one k r else one r k))
    (rows.map (fun r => r.map (fun x => x.pat)), rows.foldl (fun fl r => r.foldl (fun fl x => fl ||| x.fl) fl) 0#8)

/-- The bytes of row `i` of 32 encoded elements (R55, R152). -/
def rowWrites (c : Core) (q : Word64) (off i : Nat) (xs : List Nat) : List ByteW :=
  let n := spanBytes (qFmt q) 32
  let w := if qFmt q == 5 then 6 else n / 32 * 8
  let v := xs.foldr (fun x acc => x % 2 ^ w + 2 ^ w * acc) 0
  (leBytes n v).mapIdx (fun j b => ⟨ownLoc c (off + n * i + j), 0xFF#8, b⟩)

/-- Stashes that read their tile at this beat: flags to raise, and the bytes of each row (R152). -/
def State.stashNow (s : State) (c : Core) : List (EngStep × Flags8 × List (List ByteW)) :=
  (c.steps.filter (fun x => decide (x.due ≤ s.beat))).filterMap (fun x => match x.kind with
    | .stash tr mode lanes off =>
      let q := (s.banksOf c.pclus c.pcore).qf (off / 0x4000)
      let r := stashElems q (c.eng.get x.tile.toFin) tr mode lanes
      some (x, r.2, r.1.mapIdx (fun i xs => rowWrites c q off i xs))
    | _ => none)

/-! ## Accumulator slot (R153 to R157) -/

/-- The row of an A operation (R153). -/
def rowOf (e : Env) (o : TOp) : Nat := if o.md.getLsbD 0 then (e.a.rs (regN o.sb)).toNat % 32 else o.sb.toNat % 32

/-- The taint of the row register, where there is one (R153, R206). -/
def rowTaint (e : Env) (o : TOp) : Taint := if o.md.getLsbD 0 then taintOf e.a o.sb else 0

/-- The exact value that ARD rounds in lane `j` (R154). -/
def ardVal (e : Env) (o : TOp) (j : Nat) : XVal :=
  let t := e.a.rt (tileN o.sa)
  if o.t == .c32 then
    let r := rowOf e o % 16
    (xsum [Bin.af48.decode (tileAt t r j).toNat, Bin.af48.decode (tileAt t (16 + r) j).toNat]).v
  else Bin.af48.decode (tileAt t (rowOf e o) j).toNat
/-- ARD of one lane: opposite infinities are invalid (R58, R154). An AF48 NaN whose top fraction bit is 0, which a RAW AFILL can
leave, counts as signalling (DESIGN CHOICE, log 33). -/
def ardLane (e : Env) (o : TOp) (j : Nat) : Word32 × Flags8 :=
  let t := e.a.rt (tileN o.sa)
  let iv := if o.t == .c32 then
      (xsum [Bin.af48.decode (tileAt t (rowOf e o % 16) j).toNat, Bin.af48.decode (tileAt t (16 + rowOf e o % 16) j).toNat]).fl else 0#8
  if o.t.isInt then
    let r := roundInt (e.rnd o j) o.t.lo o.t.hi (ardVal e o j)
    (laneRes o.t r.1, r.2 ||| iv)
  else let r := o.t.round (e.rnd o j) (ardVal e o j); (BitVec.ofNat 32 r.pat, r.fl ||| iv)

def ardOut (opc : Nat) (o : TOp) (e : Env) (clear : Bool) : Out :=
  let L := e.lat .ar
  let m := laneMask e.a o
  let r := (List.range 32).map (fun j => ardLane e o j)
  let at_ := fun (j : Nat) => r.getD j (0#32, 0#8)
  let rows := if o.t == .c32 then [(rowOf e o % 16, m), (16 + rowOf e o % 16, m)] else [(rowOf e o, m)]
  withASlot e 1 (.ok { flights := [⟨e.t + L, e.t, o.slot, latOf opc o,
    wrV e.a o (regN o.dst) (fun j => (at_ j).1) (rowTaint e o) :: (if clear then [.tile (tileN o.sa) rows tile0] else []),
    laneFlags m (fun j => (at_ j).2), none, none⟩] })
def opArd (o : TOp) (e : Env) : Out := ardOut 0x90 o e false
def opArdc (o : TOp) (e : Env) : Out := ardOut 0x91 o e true

/-- The span of ASPILL and AFILL (R156, R159): its offset. -/
def spillSpan (e : Env) (o : TOp) : Except Out Nat :=
  let x := srcA e.a o
  let raw := o.tyN == 0
  let len := if raw then 6144 else 4096
  match stackTest e.a o.sa x.toNat with
  | some w => .error (.fault 0x0D w)
  | none => match engAddr e x with
    | .error f => .error f
    | .ok off =>
      if off / 0x10000 != (off + len - 1) / 0x10000 then .error (.fault 0x08 (auxAddr x.toNat 3))
      else if off % (if raw then 64 else 128) != 0 then .error (.fault 0x0E (auxAddr x.toNat 7))
      else .ok off

/-- Bytes of row `i` of a spilled tile (R156). Its rounding takes the gradient class, so FCTL.FTZ does not apply (DESIGN CHOICE,
log 33). -/
def spillRow (c : Core) (raw : Bool) (t : Tile) (off i : Nat) : List ByteW :=
  let bs := (List.range 32).flatMap (fun j =>
    if raw then leBytes 6 (tileAt t i j).toNat
    else leBytes 4 (Bin.f32.round Rnd.rneGrad (Bin.af48.decode (tileAt t i j).toNat)).pat)
  bs.mapIdx (fun k b => ⟨ownLoc c (off + bs.length * i + k), 0xFF#8, b⟩)

def opAspill (o : TOp) (e : Env) : Out :=
  withASlot e 32 (match spillSpan e o with
    | .error f => f
    | .ok off =>
      let raw := o.tyN == 0
      engFill e 7 off (if raw then 6144 else 4096) (e.t + 2) (e.t + 33) e.c.guarded
        (.ok { perfs := rowPerfs e o (e.t + 2) (spillRow e.c raw (e.a.rt (tileN o.dst)) off) }))

def opAfill (o : TOp) (e : Env) : Out :=
  withASlot e 32 (match spillSpan e o with
    | .error f => f
    | .ok off =>
      let raw := o.tyN == 0
      engFill e 7 off (if raw then 6144 else 4096) (e.t + 2) (e.t + 33) false
        (.ok { steps := [⟨e.t + 33, e.t + 36, e.t, tileN o.dst, .aread raw [] off⟩]
               flights := [⟨e.t + 36, e.t, o.slot, none,
                 [.tile (tileN o.dst) ((List.range 32).map (fun i => (i, 0xFFFFFFFF#32))) tile0], 0#8, none, none⟩] }))

/-! ## Optimiser operations (R155) -/

/-- One expression formed exactly and rounded to nearest into F32 in the gradient class. -/
def rneF (x : XRes) : XRes := let r := Bin.f32.round Rnd.rneGrad x.v; ⟨Bin.f32.decode r.pat, r.fl ||| x.fl⟩
def XRes.negate (x : XRes) : XRes := ⟨x.v.negate, x.fl⟩
/-- Hyperparameter `k` in the last register of the group, read under R109. -/
def hypAt (e : Env) (o : TOp) (n : BitVec 6) (k : Nat) : XRes := vfltOf e.a .f32 o.grad (laneAt (e.a.rv n) k)
/-- A product of read operands, with their flags. -/
def mulF (a b : XRes) : XRes := let p := xmul a.v b.v; ⟨p.v, p.fl ||| a.fl ||| b.fl⟩

/-- The weight update rnd(w − η·(x + λ·w)), exactly before its rounding. -/
def updOut (e : Env) (o : TOp) (j : Nat) (w eta lam x : XRes) : Rounded :=
  let inner := xsumR [x, mulF lam w]
  let s := xsumR [w, (mulF eta inner).negate]
  let r := o.t.round (e.rnd o j) s.v
  ⟨r.pat, r.fl ||| s.fl⟩

/-- The values of one lane: weight, first and second moment, flags. -/
def optLane (opc : Nat) (o : TOp) (e : Env) (j : Nat) : Word32 × Word32 × Word32 × Flags8 :=
  let d := regN o.dst
  let g := Bin.af48.decode (tileAt (e.a.rt (tileN o.sa)) (rowOf e o) j).toNat
  let w := vfltOf e.a o.t o.grad (laneAt (e.a.rv d) j)
  let hyp := d + BitVec.ofNat 6 (groupLen opc - 1)
  let h := hypAt e o hyp
  let sg := mulF (h 7) ⟨g, 0#8⟩
  let mom := fun (n : BitVec 6) => vfltOf e.a .f32 o.grad (laneAt (e.a.rv n) j)
  let pat := fun (x : XRes) => BitVec.ofNat 32 (Bin.f32.round Rnd.rneGrad x.v).pat
  match opc with
  | 0x94 =>
    let r := updOut e o j w (h 0) (h 1) sg
    (BitVec.ofNat 32 r.pat, 0#32, 0#32, r.fl)
  | 0x95 =>
    let m := rneF (xsumR [mulF (h 2) (mom (d + 1)), sg])
    let r := updOut e o j w (h 0) (h 1) m
    (BitVec.ofNat 32 r.pat, pat m, 0#32, r.fl)
  | _ =>
    let one : XRes := ⟨.fin ⟨false, 1, 0⟩, 0#8⟩
    let m := rneF (xsumR [mulF (h 2) (mom (d + 1)), mulF (xsumR [one, (h 2).negate]) sg])
    let v := rneF (xsumR [mulF (h 3) (mom (d + 2)), mulF (xsumR [one, (h 3).negate]) (mulF sg sg)])
    let cv := mulF (h 6) v
    let sq := xsqrt cv.v
    let dd := rneF ⟨sq.v, sq.fl ||| cv.fl⟩
    let num := mulF (h 5) m
    let den := xsumR [dd, h 4]
    let q0 := xdiv num.v den.v
    let q := rneF ⟨q0.v, q0.fl ||| num.fl ||| den.fl⟩
    let r := updOut e o j w (h 0) (h 1) q
    (BitVec.ofNat 32 r.pat, pat m, pat v, r.fl ||| v.fl)

def optOut (opc : Nat) (o : TOp) (e : Env) : Out :=
  let d := regN o.dst
  let r := (List.range 32).map (fun j => optLane opc o e j)
  let at_ := fun (j : Nat) => r.getD j (0#32, 0#32, 0#32, 0#8)
  let taint := widest (rowTaint e o :: (List.range (groupLen opc)).map (fun i => e.a.tv.get (d + BitVec.ofNat 6 i).toFin))
  let w0 := wrV e.a o d (fun j => (at_ j).1) taint
  let w1 := wrV e.a o (d + 1) (fun j => (at_ j).2.1) taint
  let w2 := wrV e.a o (d + 2) (fun j => (at_ j).2.2.1) taint
  let ws := match opc with | 0x94 => [w0] | 0x95 => [w0, w1] | _ => [w0, w1, w2]
  withASlot e (if opc == 0x96 then 4 else 1)
    (.ok { flights := [⟨e.t + e.lat .ar + (if opc == 0x96 then 4 else 0), e.t, o.slot, latOf opc o, ws,
      laneFlags (laneMask e.a o) (fun j => (at_ j).2.2.2), none, none⟩] })
def opAsgd (o : TOp) (e : Env) : Out := optOut 0x94 o e
def opAmom (o : TOp) (e : Env) : Out := optOut 0x95 o e
def opAadam (o : TOp) (e : Env) : Out := optOut 0x96 o e

/-- ASTAT (R157). -/
def opAstat (o : TOp) (e : Env) : Out :=
  let left := fun (b : Nat) => (b - e.t) % 256
  let x : Word64 := match o.sb.toNat with
    | 0 => e.a.mscl
    | 1 => BitVec.ofNat 64 (left e.c.engBusy + left e.c.aBusy * 256)
    | 2 => BitVec.ofNat 64 ((List.range 8).foldl (fun n k => n + flag64 (e.c.tileBusy k) k) 0)
    | 3 => e.a.unf0
    | _ => e.a.unf1
  withASlot e 1 (result e 0x97 o [.s (regN o.dst) x true 0] 0#8)

def execMop (o : TOp) (s : State) : Result := .next (issueOne 0x80 o opMop true s)
def execMops (o : TOp) (s : State) : Result := .next (issueOne 0x81 o opMops true s)
def execMopc (o : TOp) (s : State) : Result := .next (issueOne 0x82 o opMopc true s)
def execMopv (o : TOp) (s : State) : Result := .next (issueOne 0x83 o opMopv true s)
def execMrank1 (o : TOp) (s : State) : Result := .next (issueOne 0x84 o opMrank1 true s)
def execMzero (o : TOp) (s : State) : Result := .next (issueOne 0x85 o opMzero true s)
def execMfill (o : TOp) (s : State) : Result := .next (issueOne 0x86 o opMfill true s)
def execMstash (o : TOp) (s : State) : Result := .next (issueOne 0x87 o opMstash true s)
def execMucfg (o : TOp) (s : State) : Result := .next (issueOne 0x88 o opMucfg true s)
def execMscale (o : TOp) (s : State) : Result := .next (issueOne 0x89 o opMscale true s)
def execArd (o : TOp) (s : State) : Result := .next (issueOne 0x90 o opArd true s)
def execArdc (o : TOp) (s : State) : Result := .next (issueOne 0x91 o opArdc true s)
def execAspill (o : TOp) (s : State) : Result := .next (issueOne 0x92 o opAspill true s)
def execAfill (o : TOp) (s : State) : Result := .next (issueOne 0x93 o opAfill true s)
def execAsgd (o : TOp) (s : State) : Result := .next (issueOne 0x94 o opAsgd true s)
def execAmom (o : TOp) (s : State) : Result := .next (issueOne 0x95 o opAmom true s)
def execAadam (o : TOp) (s : State) : Result := .next (issueOne 0x96 o opAadam true s)
def execAstat (o : TOp) (s : State) : Result := .next (issueOne 0x97 o opAstat true s)
end Sys2Proof.Machine
end

