-- ==== Sys2Proof/Machine/Copy.lean ====
section
/-! DEFINITION. The copy engine (R246 to R262): channels, transfer records, their stages and beats, watermarks, events, the
copy instructions, bank switches (R244) and FIFO banks (R240). -/
namespace Sys2Proof.Machine

/-! ## Channels -/

def Core.setChan (c : Core) (j : Nat) (x : Chan) : Core := if j == 0 then { c with chan0 := x } else { c with chan1 := x }
def Core.mapChan (c : Core) (j : Nat) (f : Chan → Chan) : Core := c.setChan j (f (c.chan j))

/-- R246: cluster channel 2k + j of a cluster, numbered over the package. -/
def chanNo (c : Core) (j : Nat) : Nat := c.pclus * 256 + 2 * c.pcore + j
/-- The core that owns a channel. -/
def State.chanCore (s : State) (ch : Nat) : Core := s.coreAt (ch / 256) (ch % 256 / 2)
def State.mapChanCore (s : State) (ch : Nat) (f : Core → Core) : State := s.mapCore (ch / 256) (ch % 256 / 2) f
def State.onChan (s : State) (ch : Nat) (f : Chan → Chan) : State := s.mapChanCore ch (fun c => c.mapChan (ch % 2) f)
/-- R255: an entry of the event queue. -/
def eventWord (stat ch : Nat) (ovf : Bool) (addr : Nat) : Word64 :=
  BitVec.ofNat 64 (2 ^ 63 + stat * 2 ^ 59 + ch * 2 ^ 58 + flag64 ovf 57 + addr % 2 ^ 56)
def Core.pushEvent (c : Core) (e : Nat × Nat × Nat) : Core :=
  if c.events.length ≥ 32 then { c with ovf := true }
  else { c with events := c.events ++ [eventWord e.1 e.2.1 c.ovf e.2.2], ovf := false }
/-- An entry is queued in this beat. -/
def Core.queueEvent (c : Core) (stat ch addr : Nat) : Core := { c with evDue := c.evDue ++ [(stat, ch, addr)] }
/-- The entries of this beat enter the queue, those of channel 0 first (R255). -/
def Core.takeEvents (c : Core) : Core :=
  (c.evDue.filter (fun e => e.2.1 == 0) ++ c.evDue.filter (fun e => e.2.1 != 0)).foldl Core.pushEvent { c with evDue := [] }

/-- R246, R253: the channel becomes idle or failed; its range is released. An input chain that ran is complete. -/
def Chan.rest (x : Chan) (st : Nat) (beat : Nat) : Chan :=
  { x with
    st := st, fetchAt := none, cur := none, stopAt := none, parked := 0, rlo := x.rhi, wm := x.rhi, wrote := []
    pendDone := if x.pendIn.isSome && x.pendDone.isNone then some beat else x.pendDone
    quiet := false, got := [], gotAsk := 0 }

/-- The address of the record being processed, or at which the channel is parked (R260). -/
def Chan.addr (x : Chan) : Nat :=
  match x.cur with
  | some r => r.addr
  | none => match x.fetchAt with | some (a, _) => a | none => x.parked

/-- R255: a record fails or is stopped: an entry is queued, and the channel is failed or idle. -/
def State.endRecord (s : State) (ch stat : Nat) : State :=
  s.mapChanCore ch (fun c =>
    let x := c.chan (ch % 2)
    let c := if x.quiet then c else c.queueEvent stat (ch % 2) x.addr
    c.setChan (ch % 2) { (x.rest (if stat == 1 then 0 else 3) s.beat) with lastStat := if stat == 1 then x.lastStat else stat })

/-! ## Records (R247 to R249) -/

/-- The fields of a record. -/
structure RecF where
  own : Bool
  next : Nat
  src : Nat
  dst : Nat
  count : Nat
  cols : Nat
  rows : Nat
  scale : Int
  rnd : Nat
  acc : Bool
  evt : Bool
  tag : Bool
  pck : Bool
  unf : Bool
  scl : Bool
  trn : Bool
  enc : Bool
  dec : Bool
  udesc : Nat
  m0 : Nat
  k0 : Nat
  rcnt : Word64

def recF (ws : List Word64) : RecF :=
  let w := fun (i : Nat) => (ws.getD i 0#64).toNat
  let b := fun (i : Nat) => (w 4).testBit i
  ⟨(w 0).testBit 63, bits (w 0) 0 56, bits (w 1) 0 56, bits (w 2) 0 56, bits (w 3) 0 32, bits (w 4) 48 16, bits (w 4) 32 16,
    signedOf 8 (bits (w 4) 20 8), bits (w 4) 16 2, b 8, b 7, b 6, b 5, b 4, b 3, b 2, b 1, b 0, bits (w 5) 0 56,
    bits (w 6) 0 32, bits (w 6) 32 32, ws.getD 7 0#64⟩

/-- Is a value stage enabled (R248)? -/
def RecF.value (r : RecF) : Bool := r.dec || r.enc || r.scl || r.trn || r.unf || r.acc
/-- P of R252. -/
def RecF.depth (r : RecF) : Nat :=
  2 + (if r.dec then 2 else 0) + (if r.enc then 2 else 0) + (if r.scl then 1 else 0) + (if r.trn then 32 else 0) +
    (if r.unf then 4 else 0) + (if r.pck then 1 else 0) + (if r.tag then 1 else 0) + (if r.acc then 3 else 0)
def RecF.size (r : RecF) : Nat := if r.value then 32 else 128
def RecF.chunks (r : RecF) : Nat := (r.count + r.size - 1) / r.size
/-- How many elements or bytes chunk `j` holds (R252). -/
def RecF.inChunk (r : RecF) (j : Nat) : Nat := min r.size (r.count - r.size * j)

/-- R249 on the words alone. -/
def recBad (ws : List Word64) : Bool :=
  let w := fun (i : Nat) => (ws.getD i 0#64).toNat
  let r := recF ws
  bits (w 0) 56 7 != 0 || bits (w 1) 56 8 != 0 || bits (w 2) 56 8 != 0 || bits (w 3) 32 32 != 0 ||
  bits (w 4) 28 4 != 0 || bits (w 4) 18 2 != 0 || bits (w 4) 9 7 != 0 || r.rnd == 3 ||
  bits (w 5) 56 8 != 0 || (!r.unf && (w 5 != 0 || w 6 != 0)) || (r.rnd != 1 && w 7 != 0) ||
  r.count == 0 || (r.trn && r.unf) || (r.unf && !r.dec) || (r.scl && !r.dec && !r.enc) ||
  ((r.trn || r.unf) && r.rows * r.cols != r.count) || (r.dst.testBit 55 && !r.tag)

/-! ## Regions as the engine reaches them (R238, R240, R242, R276) -/

/-- Pages that an access of the engine needs, translated for it (R255). -/
def State.pagesFor (s : State) (c : Core) (as : List Nat) : Core :=
  as.foldl (fun (c : Core) a =>
    if a < spadBase then
      match c.held? a with
      | some _ => c
      | none => match s.translate c.job c.rank a with | .ok t => { c with tlb := t :: c.tlb } | .error _ => c
    else c) c

/-- A region, and the FIFO bank it is (R240). -/
structure CReg where
  g : Reg
  fifo : Option (Nat × Nat)

/-- Does an address lie in the flat space, directly or through a TIER 2 leaf (R276)? -/
def State.isFlat (s : State) (c : Core) (a : Nat) : Bool := match s.locOf c a with | .flat _ _ => true | _ => false
/-- The region that the engine finds at an address; an error is the status of R255. A rank above NRANK is a translation failure (R277), and a
write to a differentiable page is refused, behind a TIER 2 leaf too (R175). -/
def State.copyReg (s : State) (c : Core) (wr : Bool) (a : Nat) : Except Nat CReg :=
  match s.regionOf c a with
  | .ok g =>
    if g.spad && (s.banksOf c.pclus (winCore a)).mode (winIn a / 0x10000) == 2 then .ok ⟨g, some (winCore a, winIn a / 0x10000)⟩
    else if !g.open_ || (wr && (!g.w || g.d)) || (!wr && !g.r) then .error 3 else .ok ⟨g, none⟩
  | .error .flat =>
    if (flatTarget s c a).1 > (match s.jobOf c.job with | some j => j.nrank | none => 0) then .error 3
    else match c.held? a with
    | some t => if (wr && (!t.w || t.d)) || (!wr && !t.r) then .error 3 else .ok ⟨rawReg, none⟩
    | none => .ok ⟨rawReg, none⟩
  | .error _ => .error 3
/-- The first refusal of a list of accesses, or none. -/
def State.copyRefused (s : State) (c : Core) (wr : Bool) (as : List Nat) : Option Nat :=
  as.findSome? (fun a => match s.copyReg c wr a with | .ok _ => none | .error e => some e)

/-- Bytes of one element as the engine counts them: RAW holds F32 elements (R250). -/
def copyFmt (f : Nat) : Nat := if f == 0 then 1 else f
def copyBytes (f : Nat) : Nat := if f == 5 then 3 else spanBytes (copyFmt f) 1
/-- Index of the element that an address names in a region (R394). -/
def copyIndex (g : Reg) (a : Nat) : Option Nat :=
  if a < g.db then none
  else if g.fmt == 5 then (if (a - g.db) % 3 == 0 then some (4 * ((a - g.db) / 3)) else none)
  else if (a - g.db) % copyBytes g.fmt == 0 then some ((a - g.db) / copyBytes g.fmt) else none
def copyAddr (g : Reg) (i : Nat) : Nat × Nat :=
  if g.fmt == 5 then (g.db + 3 * (i / 4), 6 * (i % 4)) else (g.db + copyBytes g.fmt * i, 0)

/-- The bytes of an element's group that hold its bits, when the element starts at a bit of the group: the first, how many (R55). -/
def copySpan (f sh : Nat) : Nat × Nat := if f == 5 then (sh / 8, (sh % 8 + 13) / 8) else (0, copyBytes f)

/-- A byte as the engine reads it, and whether it is poisoned (R251, R270, R272): one that is at hand, or one of this module. What a target
reads for another module (`targetCore`) is at its home, and poisoned by the sectors of every die (R281, R335). -/
def State.copyByte (s : State) (c : Core) (got : List (Loc × Byte)) (a : Nat) : Byte × Bool :=
  let l := s.locOf c a
  match got.find? (fun x => x.1 == l) with
  | some x => (x.2, false)
  | none => match l with
    | .spad k n o => (s.mem.get (spadKey k n o), s.blockPoisoned k n o)
    | .pa p => (s.seeByte (dieOf c.pclus) p c.acq false,
        if c.pclus < 32 then (match s.sectorAt (dieOf c.pclus) p with | some x => x.poison | none => false) || s.pagePoisoned p else s.homePoisoned p)
    | _ => (0#8, false)
/-- Those of some bytes that lie outside the module and are not at hand (R275, R276). -/
def State.awayOf (s : State) (c : Core) (got : List (Loc × Byte)) (as : List Nat) : List Loc :=
  ((as.map (s.locOf c)).eraseDups.filter Loc.away).filter
    (fun l => !got.any (fun x => x.1 == l))
/-- An uncorrectable error among bytes that the engine reads sets the bit of a page, that of the lowest of them in memory (R279). -/
def State.copyError (s : State) (c : Core) (uncorrectable : Bool) (as : List Nat) : State :=
  if uncorrectable then
    match as.findSome? (fun a => match s.locOf c a with | .pa p => some p | _ => none) with
    | some p => s.poisonPage p
    | none => s
  else s

/-- The source element of output element `e`; `none` reads as zero (R66, R250). -/
def RecF.source (r : RecF) (u : Unf) (e : Nat) : Option Nat :=
  if r.unf then u.elem (r.m0 + e / r.cols) (r.k0 + e % r.cols)
  else if r.trn then some ((e % r.cols) * r.rows + e / r.cols)
  else some e

/-- What one element or byte of a chunk reads: a plain byte; nothing, where it is zero (R66); or an element, by the address of its
group, the bit at which it starts there, its index in the region. -/
inductive Place where
  | byte (a : Nat)
  | zero
  | elem (a sh i : Nat)
  deriving DecidableEq, Repr

/-- What chunk `j` reads, in output order. A FIFO bank gives its bytes in their order, whatever the offset of the address, TRN or UNF
(R240; log 31). -/
def State.chunkPlaces (s : State) (c : Core) (r : RecF) (u : Unf) (j : Nat) : Except Nat (List Place) :=
  let n := r.inChunk j
  match s.copyReg c false r.src with
  | .error x => .error x
  | .ok ⟨g, fifo⟩ =>
    if !r.value then .ok ((List.range n).map (fun i => .byte (if fifo.isSome then r.src else r.src + 128 * j + i)))
    else if fifo.isSome then .ok ((List.range n).map (fun i => .elem r.src (if g.fmt == 5 then 6 * (i % 4) else 0) (32 * j + i)))
    else match copyIndex g r.src with
    | none => .error 3
    | some i0 =>
      .ok ((List.range n).map (fun i => match r.source u (32 * j + i) with
        | none => .zero
        | some e => let p := copyAddr g (i0 + e); .elem p.1 p.2 (i0 + e)))

/-- The scale base of the elements of a record in region `g`: that of the source's region, from which its blocks count, where `g` goes on with
it (R64, R394). -/
def State.scaleBase (s : State) (c : Core) (r : RecF) (g : Reg) : Nat :=
  match s.copyReg c false r.src with
  | .ok ⟨g0, _⟩ => if g0.same == g.same && g0.spad == g.spad then g0.sb else g.sb
  | .error _ => g.sb

/-- The bytes that one place reads, its scale included. -/
def State.placeBytes (s : State) (c : Core) (r : RecF) : Place → List Nat
  | .byte a => [a]
  | .zero => []
  | .elem a sh i => match s.copyReg c false a with
    | .ok ⟨g, fifo⟩ =>
      let p := copySpan g.fmt sh
      (if fifo.isSome then [a] else (List.range p.2).map (fun k => a + p.1 + k)) ++
        (match geomSize g.geom with | some (n + 1) => [s.scaleBase c r g + i / (n + 1)] | _ => [])
    | .error _ => [a]

/-- Read of one element in its own region, its block counted from that of the source: its value, bits and poison (R64, R65, R249, R250, R394); `popped` is its group from a FIFO. -/
def State.copyElem (s : State) (c : Core) (r : RecF) (got : List (Loc × Byte)) (a sh i : Nat) (popped : Option (List (Byte × Bool))) :
    Except Nat (XVal × Nat × Bool) :=
  match s.copyReg c false a with
  | .error x => .error x
  | .ok ⟨g, fifo⟩ =>
    let p := copySpan g.fmt sh
    if !fmtOk g.fmt g.geom || g.fmt == 7 || (fifo.isNone && g.spad && decide (a < g.db)) || s.isFlat c a then .error 3
    else if !r.dec && !(g.fmt == 0 || g.fmt == 1 || g.fmt == 8) then .error 3
    else match (if fifo.isSome then none else s.copyRefused c false [a + p.1, a + p.1 + p.2 - 1]) with
    | some x => .error x
    | none =>
      let bs := match popped with
        | some x => (x.drop p.1).take p.2
        | none => (List.range p.2).map (fun k => s.copyByte c got (a + p.1 + k))
      let w := if g.fmt == 5 then 6 else 8 * p.2
      let raw := leNat (bs.map Prod.fst) / 2 ^ (sh % 8) % 2 ^ w
      let bad := bs.any Prod.snd
      match Fmt.ofCode (copyFmt g.fmt), geomSize g.geom with
      | some f, some (k + 1) =>
        if r.dec then
          let sb := s.scaleBase c r g
          match s.scaleLoc c { g with sb := sb } i a with
          | .error _ => .error 3
          | .ok _ => let sc := s.copyByte c got (sb + i / (k + 1)); .ok (scaled f raw sc.1.toNat, raw, bad || sc.2)
        else .ok (f.decode raw, raw, bad)
      | some f, _ => .ok (f.decode raw, raw, bad)
      | none, _ => .error 3

/-- SCL (R250). -/
def scaleVal (r : RecF) (v : XVal) : XVal :=
  if r.scl then (match v with | .fin d => .fin (d.scale r.scale) | x => x) else v

/-- Banks that a list of addresses touches, as core and bank of the cluster. -/
def banksAt (as : List Nat) : List (Nat × Nat) :=
  (as.filterMap (fun a => if inWindow a then some (winCore a, winIn a / 0x10000) else none)).eraseDups

/-! ## Beats and deferrals (R240, R245, R252) -/

def State.chanList (s : State) : List (Core × Nat) := s.allCores.flatMap (fun c => [(c, 0), (c, 1)])

/-- R193, R245: is a bank port taken in this beat by another channel, or an atomic window open at the bank? -/
def State.portBusy (s : State) (ch : Nat) (wr : Bool) (banks : List (Nat × Nat)) : Bool :=
  let clus := ch / 256
  banks.any (fun b => s.windowHit clus b.1 b.2 s.beat s.beat) ||
  s.chanList.any (fun x => x.1.pclus == clus && chanNo x.1 x.2 != ch &&
    (x.1.chan x.2).ports.any (fun p => p.1 == wr && p.2.1 == s.beat && p.2.2.any banks.contains))
/-- The bank ports that serve a chunk in this beat (R245). -/
def Chan.serve (x : Chan) (wr : Bool) (beat : Nat) (banks : List (Nat × Nat)) : Chan :=
  { x with ports := (wr, beat, banks) :: x.ports.filter (fun p => p.2.1 == beat) }
/-- Is an atomic window open at a bank of some addresses (R193, R245)? -/
def State.windowOpen (s : State) (c : Core) (as : List Nat) : Bool :=
  (banksAt as).any (fun b => s.windowHit c.pclus b.1 b.2 s.beat s.beat)

/-- Bytes that chunk `j` takes from a FIFO source, and that a ready chunk adds to a FIFO destination (R240). -/
def chunkBytes (fmt : Nat) (value : Bool) (n : Nat) : Nat := if value then spanBytes (copyFmt fmt) n else n

/-- The FIFO bank at one side of a record, with the bytes of a chunk of `n`. -/
def State.fifoAt (s : State) (c : Core) (r : RecF) (a n : Nat) (wr : Bool) : Option (Nat × Nat × Nat) :=
  match s.copyReg c wr a with
  | .ok ⟨g, some (k, b)⟩ => some (k, b, chunkBytes g.fmt r.value n)
  | _ => none

/-- May the next read or write of the chunk proceed at its FIFO (R240)? -/
def State.fifoReady (s : State) (c : Core) (f : Option (Nat × Nat × Nat)) (wr : Bool) : Bool :=
  match f with
  | none => true
  | some (k, b, n) => let q := ((s.banksOf c.pclus k).fifo b).length; if wr then decide (q + n ≤ 65536) else decide (n ≤ q)

def setFifo (b : Banks) (n : Nat) (x : List (Byte × Bool)) : Banks := { b with fifos := b.fifos.setIfInBounds n x }

/-! ## Fetch (R247, R257) -/

def chanOk (ch : Nat) : Bool := decide (ch < 32 * 256)

/-- R249: the destination of an ACC record lies in SPAD quarters of format F32 or I32. -/
def State.accBad (s : State) (c : Core) (r : RecF) : Bool :=
  let last := r.dst + 4 * r.count - 1
  !inWindow r.dst || !inWindow last || (List.range ((last - r.dst) / 0x4000 + 2)).any (fun i =>
    match s.copyReg c true (min (r.dst + 0x4000 * i) last) with
    | .ok ⟨g, none⟩ => !(g.fmt == 1 || g.fmt == 8)
    | _ => true)

/-- A record is read, and for UNF its descriptor: bytes of other modules are asked for first (R275). The result is the bytes, or what
the read comes to before them. -/
def State.fetchBytes (s : State) (ch : Nat) (c : Core) (step a n : Nat) : Except State (List (Byte × Bool)) :=
  let x := c.chan (ch % 2)
  let as := (List.range n).map (fun i => a + i)
  let away := s.awayOf c x.got as
  if away.isEmpty then .ok (as.map (s.copyByte c x.got))
  else if x.gotAsk ≥ step then .error s
  else .error ((s.askBytes c sysId a (some (ch % 2)) away).onChan ch (fun x => { x with gotAsk := step }))

/-- The number of a copy channel's request for its record or its descriptor is `sysId`. RECORD_FETCH (R193, R247, R249, R257): the 64 bytes
are read once, after a window that is open at their bank; a head outside the address space fails with status 3; OWN = 0 parks, an invalid record fails. A poisoned descriptor fails the record with status 2 (DESIGN CHOICE, log 31). -/
def execRecordFetch (ch : Nat) (uncorrectable : Bool) (s : State) : Result :=
  if !chanOk ch then .fault .noSuchInput
  else
  let c0 := s.chanCore ch
  let x := c0.chan (ch % 2)
  match x.st, x.cur, x.fetchAt with
  | 1, none, some (a, f) =>
    if f > s.beat then .next s
    else if a ≥ 2 ^ 56 then .next (s.endRecord ch 3)
    else
      let c := s.pagesFor c0 [a, a + 63]
      if s.windowOpen c [a, a + 63] then .next s
      else match s.copyReg c false a with
      | .error e => .next (s.endRecord ch e)
      | .ok g =>
        if g.fifo.isSome then .next (s.endRecord ch 3)
        else match s.fetchBytes ch c 1 a 64 with
        | .error s => .next s
        | .ok bs =>
          if uncorrectable || bs.any Prod.snd then
            .next ((s.copyError c uncorrectable ((List.range 64).map (fun i => a + i))).endRecord ch 2)
          else
            let ws := (List.range 8).map (fun i => BitVec.ofNat 64 (leNat (((bs.map Prod.fst).drop (8 * i)).take 8)))
            let r := recF ws
            if !r.own then .next (s.onChan ch (fun x => { x with st := 2, parked := a, fetchAt := none, got := [], gotAsk := 0 }))
            else
              let cu := s.pagesFor c [r.udesc, r.udesc + 15, r.dst]
              let run := fun (s : State) (u : Word64 × Word64) => s.onChan ch (fun x => { x with
                fetchAt := none, got := [], gotAsk := 0
                cur := some ⟨a, ws, f, s.beat + 4, r.chunks, 0, [], [], [], 0, false, s.isFlat cu r.dst, 0, u, none, 0⟩ })
              if recBad ws || (r.acc && s.accBad cu r) then .next (s.endRecord ch 7)
              else if !r.unf then .next (run s (0#64, 0#64))
              else match s.copyRefused cu false [r.udesc, r.udesc + 15] with
              | some e => .next (s.endRecord ch e)
              | none =>
                if (match s.copyReg cu false r.udesc with | .ok d => d.fifo.isSome | .error _ => true) then .next (s.endRecord ch 3)
                else
                -- the record was read once: its bytes stay at hand while the descriptor is on its way
                if s.windowOpen cu [r.udesc, r.udesc + 15] then .next s else
                let keep := (List.range 64).map (fun i => (s.locOf c (a + i), (bs.map Prod.fst).getD i 0#8))
                match s.fetchBytes ch cu 2 r.udesc 16 with
                | .error s => .next (s.onChan ch (fun x => { x with got := if x.got.any (fun y => keep.any (fun z => z.1 == y.1)) then x.got else x.got ++ keep }))
                | .ok ds =>
                  let u := fun (k : Nat) => BitVec.ofNat 64 (leNat (((ds.map Prod.fst).drop (8 * k)).take 8))
                  if ds.any Prod.snd then .next (s.endRecord ch 2)
                  else if !unfOk (u 0).toNat (u 1).toNat then .next (s.endRecord ch 7)
                  else .next (run s (u 0, u 1))
  | _, _, _ => .next s

/-! ## Chunk reads (R250 to R252) -/

/-- The items of one chunk in output order, with the bytes that FIFO pops give each. -/
def State.chunkItems (s : State) (c : Core) (r : RecF) (got : List (Loc × Byte)) (pop : Option (List (Byte × Bool))) (j : Nat) :
    List Place → Nat → Except Nat (List (Nat × XVal × Nat) × Bool)
  | [], _ => .ok ([], false)
  | .elem a sh q :: ps, i =>
    let n := match s.copyReg c false a with | .ok h => copyBytes h.g.fmt | .error _ => 1
    let popped := pop.map (fun bs => if n == 3 then (bs.drop (3 * (i / 4))).take 3 else (bs.drop (n * i)).take n)
    match s.copyElem c r got a sh q popped with
    | .error x => .error x
    | .ok v => match s.chunkItems c r got pop j ps (i + 1) with
      | .error x => .error x
      | .ok y => .ok ((32 * j + i, v.1, v.2.1) :: y.1, v.2.2 || y.2)
  | _ :: ps, i =>
    match s.chunkItems c r got pop j ps (i + 1) with
    | .error x => .error x
    | .ok y => .ok ((32 * j + i, .zero, 0) :: y.1, y.2)

/-- Translations for the places of a chunk and for their scales. -/
def State.chunkPages (s : State) (c : Core) (r : RecF) (places : List Place) : Core :=
  let c := s.pagesFor c (r.src :: places.flatMap (fun p => match p with | .elem a _ _ => [a, a + 7] | .byte a => [a] | .zero => []))
  s.pagesFor c (places.flatMap (s.placeBytes c r))

/-- Size of an element of the source region, and whether its scales apply. -/
def State.srcShape (s : State) (c : Core) (r : RecF) : Nat × Bool :=
  match s.copyReg c false r.src with | .ok g => (copyBytes g.g.fmt, g.g.geom != 0 && r.dec) | .error _ => (4, false)

/-! Value records at a target (R276): the record goes along, the elements of a chunk come back or are carried. -/

/-- An element as requests carry it: output index, class, sign, exponent, significand, bits. -/
def packItem (it : Nat × XVal × Nat) : List Byte :=
  let v := match it.2.1 with
    | .fin d => (0, flag64 d.neg 0, (d.e + (2 ^ 32 : Nat)).toNat, d.m)
    | .inf n => (1, flag64 n 0, 0, 0)
    | .nan sg => (2, flag64 sg 0, 0, 0)
  leBytes 4 it.1 ++ leBytes 1 v.1 ++ leBytes 1 v.2.1 ++ leBytes 8 v.2.2.1 ++ leBytes 8 v.2.2.2 ++ leBytes 8 it.2.2
def unpackItem (x : List Byte) : Nat × XVal × Nat :=
  let b := fun (i n : Nat) => leNat ((x.drop i).take n)
  (b 0 4, (match b 4 1 with
    | 0 => .fin ⟨b 5 1 == 1, b 14 8, (b 6 8 : Int) - (2 ^ 32 : Nat)⟩
    | 1 => .inf (b 5 1 == 1)
    | _ => .nan (b 5 1 == 1)), b 22 8)

/-- The record and its descriptor, as a request carries them. -/
def recBytes (cr : CRec) : List Byte :=
  cr.words.flatMap (fun w => leBytes 8 w.toNat) ++ leBytes 8 cr.unf.1.toNat ++ leBytes 8 cr.unf.2.toNat
def recWords (x : List Byte) : List Word64 := (words 8 10 (x.take 80)).map (BitVec.ofNat 64)

/-- A request for the elements of chunk `j`. -/
def valueRead (k off j : Nat) (cr : CRec) : FlatReq :=
  ⟨.read, 0, 0, 0, false, 0, k, off, 5, 0, 1#32, 0xA1, j, recBytes cr⟩
/-- A request that writes a chunk's elements; the owner's FTZ goes along (R69). -/
def valueWrite (k off : Nat) (tag : Option Nat) (ftz : Bool) (cr : CRec) (y : Ready) : FlatReq :=
  ⟨.write, 0, 0, 0, tag.isSome, tag.getD 0, k, off, 5, flag64 ftz 2, 1#32, 0xA1, y.k, recBytes cr ++ [BitVec.ofNat 8 y.srcN,
    BitVec.ofNat 8 (flag64 y.scaled 0), BitVec.ofNat 8 (flag64 y.poison 0)] ++
    (List.range 32).flatMap (fun k => leBytes 4 (laneAt y.lanes k).toNat) ++ y.items.flatMap packItem⟩

/-- The agent that stands for a target: no L2 of the module serves it (R335). -/
def targetCore (f : FlatReq) : Core := { core0 32 0 with job := f.job, rank := f.rank }
/-- May every one of these bytes be reached at the target (R276)? -/
def State.targetOk (s : State) (f : FlatReq) (as : List Nat) : Bool := as.all (fun a => decide (a < 2 ^ 39) && (s.targetLoc f a).isSome)

/-- The record, its descriptor and the places of a chunk that a value read asks for at its target. -/
def State.valuePlaces (s : State) (f : FlatReq) : Except Nat (RecF × Core × List Place) :=
  let ws := recWords f.data
  let r := { recF ws with src := f.off }
  let u := unfOf (ws.getD 8 0#64).toNat (ws.getD 9 0#64).toNat
  match s.chunkPlaces (s.pagesFor (targetCore f) [f.off]) r u f.count with
  | .error e => .error e
  | .ok places => .ok (r, s.chunkPages (targetCore f) r places, places)

/-- A chunk of a value record read at its target (R250, R276); poisoned elements come with status 2 (R251). -/
def State.serveValueRead (s : State) (f : FlatReq) (got : List (Loc × Byte)) : State × Ans × List ByteW :=
  match s.valuePlaces f with
  | .error _ => (s, ⟨1, [], 0⟩, [])
  | .ok (r, c, places) =>
    if !s.targetOk f (places.flatMap (s.placeBytes c r)) then (s, ⟨1, [], 0⟩, [])
    else match s.chunkItems c r got none f.count places 0 with
    | .error _ => (s, ⟨1, [], 0⟩, [])
    | .ok y =>
      let sh := s.srcShape c r
      (s, ⟨if y.2 then 2 else 0, [BitVec.ofNat 8 sh.1, BitVec.ofNat 8 (flag64 sh.2 0)] ++ y.1.flatMap packItem, 0⟩, [])

/-- The elements of a chunk as they come back. -/
def valueReply (x : List Byte) : (Nat × Bool) × List (Nat × XVal × Nat) :=
  ((leNat (x.take 1), leNat ((x.drop 1).take 1) == 1), (slices 30 32 (x.drop 2)).map unpackItem)

/-- CHUNK_READ (R250 to R252): the next chunk of a running record is read, or deferred by a beat (R245). It waits behind a chunk that
waits on a full FIFO bank (R240). -/
def execChunkRead (ch : Nat) (uncorrectable : Bool) (s : State) : Result :=
  if !chanOk ch then .fault .noSuchInput
  else
  let c0 := s.chanCore ch
  let x := c0.chan (ch % 2)
  match x.cur with
  | none => .next s
  | some cr =>
    let r := recF cr.words
    let j := cr.nread
    let stopped := match x.stopAt with | some b => decide (b ≤ s.beat) | none => false
    if x.st != 1 || stopped || decide (j ≥ cr.chunks) || decide (cr.base + j > s.beat) || cr.lastRead == some s.beat ||
      cr.ready.any (fun y => decide (y.writeAt ≤ s.beat)) then .next s
    else
    let put := fun (s : State) (cr : CRec) => s.onChan ch (fun x => { x with cur := some cr })
    let lanes := if r.rnd == 1 then drawLanes c0.tomb (r.rcnt + BitVec.ofNat 64 j) else lanes0
    let take := fun (s : State) (banks : List (Nat × Nat)) (sh : Nat × Bool) (items : List (Nat × XVal × Nat)) (bs : List Byte) (bad : Bool) =>
      let s := s.onChan ch (fun x => x.serve false s.beat banks)
      if r.pck && bad then s.endRecord ch 2
      else put s { cr with
        nread := j + 1
        far := []
        reply := []
        farBad := false
        lastRead := some s.beat
        ready := cr.ready ++ [⟨j, s.beat, s.beat + r.depth, items, bs, lanes, bad, x.tag, sh.1, sh.2⟩] }
    let c1 := s.pagesFor c0 [r.src]
    match r.value, s.locOf c1 r.src with
    | true, .flat k o =>
      (match s.copyReg c1 false r.src with
      | .error e => .next (s.endRecord ch e)
      | .ok _ =>
        if !cr.reply.isEmpty then
          let y := valueReply cr.reply
          .next (take s [] y.1 (y.2.map (fun it => (it.1, scaleVal r it.2.1, it.2.2))) [] (uncorrectable || cr.farBad))
        else if cr.asked > j then .next s
        else .next (put (s.request c0 j r.src (2 + 30 * r.inChunk j) none (some (ch % 2)) (valueRead k o j cr)) { cr with asked := j + 1 }))
    | _, _ =>
    match s.chunkPlaces c1 r (unfOf cr.unf.1.toNat cr.unf.2.toNat) j with
    | .error e => .next (s.endRecord ch e)
    | .ok places =>
      let c := s.chunkPages c0 r places
      let fifo := s.fifoAt c r r.src (r.inChunk j) false
      let as := places.flatMap (s.placeBytes c r)
      let banks := banksAt as
      let away := s.awayOf c cr.far as
      if !s.fifoReady c fifo false then .next s
      else if s.portBusy ch false banks then .next (put s { cr with base := cr.base + 1 })
      else if !away.isEmpty then
        (if cr.asked > j then .next s
        else .next (put (s.askBytes c0 j (r.src + r.size * j) (some (ch % 2)) away) { cr with asked := j + 1 }))
      else
        let pop := fifo.map (fun f => ((s.banksOf c.pclus f.1).fifo f.2.1).take f.2.2)
        let res : Except Nat (List (Nat × XVal × Nat) × List Byte × Bool) :=
          if r.value then
            match s.chunkItems c r cr.far pop j places 0 with
            | .error e => .error e
            | .ok y => .ok (y.1.map (fun it => (it.1, scaleVal r it.2.1, it.2.2)), [], y.2)
          else match s.copyRefused c false as with
            | some e => .error e
            | none =>
              let bs := match pop with | some bs => bs | none => as.map (s.copyByte c cr.far)
              .ok ([], bs.map Prod.fst, bs.any Prod.snd)
        match res with
        | .error e => .next (s.endRecord ch e)
        | .ok (items, bs, bad) =>
          let s := s.copyError c uncorrectable as
          let s := match fifo with
            | some f => let b := s.banksOf c.pclus f.1; s.setBanks (setFifo b f.2.1 ((b.fifo f.2.1).drop f.2.2))
            | none => s
          .next (take s banks (s.srcShape c r) items bs (bad || cr.farBad || uncorrectable))

/-! ## Chunk writes (R250, R251, R253) -/

/-- Bits and value that the engine delivers for one element into a destination format (R65, R68, R69, R250), with FTZ of the owning
core; `none` where the spec states no bits. A scaled element that a record without ENC delivers as F32 takes the class of the destination's
region (R65; DESIGN CHOICE, log 14: the rule says 'of the region' and not which). -/
def outElem (r : RecF) (ftz scaledSrc : Bool) (g : Reg) (lane : Word32) (v : XVal) (raw : Nat) (srcBytes : Nat) : Option (Nat × XVal) :=
  let f := (Fmt.ofCode (copyFmt g.fmt)).getD .f32
  if r.enc then
    let y := f.round ⟨RMode.ofCode r.rnd, g.rc, lane, ftz⟩ v
    some (y.pat, f.decode y.pat)
  else if r.dec || r.scl then
    let rn : Rnd := ⟨.rne, g.rc, 0#32, ftz⟩
    let y := if scaledSrc || r.scl then deliverScaled .f32 rn v else Bin.f32.round rn v
    some (y.pat, Bin.f32.decode y.pat)
  else if copyBytes g.fmt == srcBytes then some (raw, v) else none

/-- ACC (R251): the new bits of a destination element, in the class of its quarter (R67). -/
def accElem (ftz : Bool) (g : Reg) (d : Nat) (y : XVal) : Option Nat :=
  if g.fmt == 8 then
    match (xsum [XVal.ofInt (signedOf 32 d), y]).v with
    | .fin z => if z.e ≥ 0 || z.m % 2 ^ z.e.natAbs == 0 then
        some (wrap 32 (clampInt (z.intAt 0) (-(2 ^ 31 : Nat)) ((2 ^ 31 : Nat) - 1))) else none
    | _ => none
  else some (Bin.f32.round ⟨.rne, g.rc, 0#32, ftz⟩ (xsum [Bin.f32.decode d, y]).v).pat

/-- The bits of one destination element: by its region, from its old bits under ACC (R249 to R251); a free value where the spec states
none. -/
def elemBits (r : RecF) (ftz : Bool) (y : Ready) (g : Reg) (free old : Nat) (it : Nat × XVal × Nat) : Nat :=
  match outElem r ftz y.scaled g (laneAt y.lanes (it.1 % 32)) it.2.1 it.2.2 y.srcN with
  | none => free
  | some (b, v) => if r.acc then (accElem ftz g old v).getD free else b
/-- May an element of the record go to such a region (R63, R249)? -/
def destOk (r : RecF) (g : Reg) (fifo : Bool) (a : Nat) : Bool :=
  fmtOk g.fmt g.geom && g.fmt != 7 && (fifo || !(g.spad && decide (a < g.db))) &&
  (r.enc || !(r.dec || r.scl) || g.fmt == 0 || g.fmt == 1 || (g.fmt == 8 && r.acc)) && (!r.acc || (g.spad && (g.fmt == 1 || g.fmt == 8)))

/-- What one element writes at its address: masked bytes, or the status with which the record fails. -/
def State.destElem (s : State) (c : Core) (r : RecF) (ftz : Bool) (y : Ready) (p : Nat × Nat) (it : Nat × XVal × Nat) :
    Except Nat (List (Nat × Byte × Byte)) :=
  match s.copyReg c true p.1 with
  | .error e => .error e
  | .ok h =>
    let sp := copySpan h.g.fmt p.2
    let a := p.1 + sp.1
    let sh := p.2 % 8
    if !destOk r h.g false p.1 || s.isFlat c p.1 then .error 3
    else match s.copyRefused c true [a, a + sp.2 - 1] with
    | some e => .error e
    | none =>
      let w := if h.g.fmt == 5 then 6 else 8 * sp.2
      let old := leNat ((List.range sp.2).map (fun i => (s.copyByte c [] (a + i)).1))
      let x := elemBits r ftz y h.g (Config.freeWord (s.free + it.1 % 32)).toNat old it
      .ok ((List.range sp.2).map (fun i => (a + i, BitVec.ofNat 8 (((2 ^ w - 1) * 2 ^ sh) / 256 ^ i),
        BitVec.ofNat 8 ((x % 2 ^ w * 2 ^ sh) / 256 ^ i))))

/-- What a ready chunk writes: masked bytes by address, or bytes for a FIFO (R240), where T6 elements share their groups; or the status
with which the record fails. -/
def State.chunkOut (s : State) (c : Core) (r : RecF) (ftz : Bool) (y : Ready) : Except Nat (List (Nat × Byte × Byte) × List Byte) :=
  match s.copyReg c true r.dst with
  | .error e => .error e
  | .ok ⟨g, fifo⟩ =>
    if !r.value then
      if fifo.isSome then .ok ([], y.bytes)
      else
        let as := (List.range y.bytes.length).map (fun i => r.dst + 128 * y.k + i)
        match s.copyRefused c true as with
        | some e => .error e
        | none => .ok (as.zip (y.bytes.map (fun b => (0xFF#8, b))), [])
    else if fifo.isSome then
      if !destOk r g true r.dst then .error 3
      else
        let w := if g.fmt == 5 then 6 else 8 * copyBytes g.fmt
        let x := y.items.foldr (fun it n => elemBits r ftz y g (Config.freeWord (s.free + it.1 % 32)).toNat 0 it % 2 ^ w + 2 ^ w * n) 0
        .ok ([], leBytes (spanBytes (copyFmt g.fmt) y.items.length) x)
    else match copyIndex g r.dst with
    | none => .error 3
    | some j0 =>
      match y.items.findSome? (fun it => match s.destElem c r ftz y (copyAddr g (j0 + it.1)) it with | .error e => some e | .ok _ => none) with
      | some e => .error e
      | none => .ok (y.items.flatMap (fun it => match s.destElem c r ftz y (copyAddr g (j0 + it.1)) it with | .ok ws => ws | .error _ => []), [])

/-- R269, R280, R281: a copy write through to its home. -/
def State.throughWrite (s : State) (die : Nat) (ws : List ByteW) (poison : Bool) : State :=
  let s := s.homeWrites ws
  let secs := sectorsOf (ws.map (fun w => w.loc))
  let s := ws.foldl (fun (s : State) w => match w.loc with
    | .pa a => (match s.sectorAt die a with
      | some x => s.setSector { x with data := setByteOf x.data (a % 128) (mergeByte w.mask (x.byte a) w.val) }
      | none => s)
    | _ => s) s
  secs.foldl (fun (s : State) k =>
    let full := decide (((ws.filterMap (fun w => match w.loc with | .pa a => if a / 128 == k then some a else none | _ => none)).eraseDups).length = 128)
    let old := match s.sectorAt die (k * 128) with | some x => x.poison | none => false
    if poison then
      let s := s.poisonPage (k * 128)
      { s with l2 := s.l2.map (fun x => if x.die == die && x.sector == k then { x with poison := true } else x) }
    else if full then s.clearSectorPoison die k
    else if old then s.poisonPage (k * 128) else s) s

/-- WM after bytes of the range were written (R253). -/
def Chan.mark (x : Chan) (as : List Nat) : Chan :=
  let inr := as.filter (fun a => decide (x.rlo ≤ a ∧ a < x.rhi))
  match inr with
  | [] => x
  | a :: _ =>
    let lo := inr.foldl min a
    let hi := inr.foldl max a + 1
    let wrote := x.wrote ++ [(lo, hi)]
    let up := fun (wm : Nat) => wrote.foldl (fun m p => if p.1 ≤ m ∧ m < p.2 then p.2 else m) wm
    let wm := (List.range wrote.length).foldl (fun m _ => up m) x.wm
    { x with wm := min wm x.rhi, wrote := wrote.filter (fun p => decide (p.2 > wm)) }

/-- A copy write leaves the core's port (R265, R276, R347). -/
def State.sendCopy (s : State) (c : Core) (f : FlatOut) : State :=
  let s := s.request c f.k f.addr 0 f.far (some f.chan) f.body
  { s with pk := { s.pk with remotes := s.pk.remotes.map (fun x => if x.ctx + 1 == s.pk.ctx then { x with issue := f.readAt } else x) } }

/-- Translations for the writes of a chunk. -/
def State.writePages (s : State) (c : Core) (r : RecF) (y : Ready) : Core :=
  let c := s.pagesFor c [r.dst]
  s.pagesFor c (match s.copyReg c true r.dst with
    | .ok g => if r.value then (match copyIndex g.g r.dst with
        | some j0 => y.items.flatMap (fun it => let p := copyAddr g.g (j0 + it.1); [p.1, p.1 + 7]) | none => [])
      else [r.dst + 128 * y.k, r.dst + 128 * y.k + 127]
    | .error _ => [])

/-- A chunk of a value record written at its target (R250, R276, R281). -/
def State.serveValueWrite (s : State) (f : FlatReq) : State × Ans × List ByteW :=
  let r := { recF (recWords f.data) with dst := f.off }
  let x := f.data.drop 80
  let y : Ready := ⟨f.count, 0, 0, (slices 30 32 (x.drop 131)).map unpackItem, [],
    vecOf 32 (fun k => BitVec.ofNat 32 ((words 4 32 (x.drop 3)).getD k 0)), leNat ((x.drop 2).take 1) == 1, 0,
    leNat (x.take 1), leNat ((x.drop 1).take 1) == 1⟩
  let c := s.writePages (targetCore f) r y
  match s.chunkOut c r (f.rnd.testBit 2) y with
  | .error _ => (s, ⟨1, [], 0⟩, [])
  | .ok (ws, _) =>
    if !s.targetOk f (ws.map Prod.fst) then (s, ⟨1, [], 0⟩, [])
    else
      let bw := ws.map (fun w => (⟨s.locOf c w.1, w.2.1, w.2.2⟩ : ByteW))
      if bw.any (fun w => w.loc.pageBad s) then (s, ⟨2, [], 0⟩, [])
      else (({ s with free := s.free + 32 }).throughWrite (dieOf c.pclus) bw y.poison, ⟨0, [], 0⟩, thirdWrites bw)

/-- An atomic of which only its flits are known (R330): the eight bytes at its address become a free value, and the old ones come back
(log 21). -/
def State.serveRawAtomic (s : State) (f : FlatReq) : State × Ans × List ByteW :=
  let xs := (List.range 8).map (fun i => s.targetLoc f (f.off + i))
  let ls := xs.filterMap id
  if xs.any Option.isNone then (s, ⟨1, [], 0⟩, [])
  else if ls.any (Loc.poisonedAt s) then (s, ⟨2, [], 0⟩, [])
  else
    let ws := (ls.zip (leBytes 8 (Config.freeWord s.free).toNat)).map (fun x => (⟨x.1, 0xFF#8, x.2⟩ : ByteW))
    (({ s with free := s.free + 1 }).homeWrites ws, ⟨0, if ls.any Loc.away then [] else ls.map (s.targetByte []), 0⟩, [])

/-- Is a request for plain bytes? -/
def plainReq (f : FlatReq) : Bool := f.opc == 0xA0 || f.opc == 0xA3
/-- What a request does at its target, with the bytes of third modules that came for it (R276, R335); what it writes in third modules comes
last. -/
def State.serveWith (s : State) (f : FlatReq) (got : List (Loc × Byte)) : State × Ans × List ByteW :=
  if f.opc == 0xA1 then (if f.kind == .write then s.serveValueWrite f else s.serveValueRead f got)
  else if plainReq f then (if f.kind == .atomic then s.serveRawAtomic f else s.serveRaw f got)
  else s.serveAccess f got

/-! ## Third modules (R275): a page of the target rank may lie in a module that is neither the issuer's nor its own -/

/-- Bytes of third modules that a request reads. -/
def State.thirdReads (s : State) (f : FlatReq) : List Loc :=
  if f.kind != .read then []
  else if f.opc == 0xA1 then (match s.valuePlaces f with
    | .ok (r, c, places) => thirdBytes ((places.flatMap (s.placeBytes c r)).map (s.locOf c))
    | .error _ => [])
  else if plainReq f then thirdBytes ((flatBytes f).filterMap (fun x => s.targetLoc f x.1))
  else match s.accessElems f with
    | .ok els => thirdBytes (els.flatMap (fun el => el.places.map Prod.snd))
    | .error _ => []
/-- The read-modify-writes that a request leaves to third modules. -/
def State.thirdAtomics (s : State) (f : FlatReq) : List (Nat × FlatReq) :=
  if f.kind != .atomic then []
  else if plainReq f then (match s.targetLoc f f.off with
    | some (.far m a) => [(m, { f with rank := physRank, off := a, tagged := false })]
    | _ => [])
  else match s.accessElems f with
    | .ok els => (farMods (els.flatMap (fun el => el.locs))).map (fun m =>
        let xs := els.filter (fun el => el.locs.any (fun l => (farAt m l).isSome))
        (m, { f with
          rank := physRank, tagged := false, count := xs.length, data := xs.flatMap farElem ++ f.data
          off := match (xs.headD default).locs.head? with | some (.far _ a) => a | _ => 0 }))
    | .error _ => []
/-- One more than the address, in the request's terms, of a byte that a third module names; 0 where it names none. -/
def State.thirdName (s : State) (f : FlatReq) (rm : Remote) (info : Nat) : Nat :=
  let hit := fun (l : Loc) => (match rm.far, l with | some m, .far n a => n == m && info == a + 1 | _, _ => false : Bool)
  if plainReq f then (match (flatBytes f).find? (fun x => match s.targetLoc f x.1 with | some l => hit l | none => false) with | some x => x.1 + 1 | none => 0)
  else match s.accessElems f with
    | .ok els => (match (els.flatMap Elem.places).find? (fun x => hit x.2) with | some x => x.1 + 1 | none => 0)
    | .error _ => 0

/-- Bytes that a request returns (R331). -/
def returnsOf (f : FlatReq) : Nat :=
  if f.kind == .write then 0
  else if f.opc == 0xA1 then 2 + 30 * (recF (recWords f.data)).inChunk f.count
  else if plainReq f then f.count
  else (if isVecMem f.opc then 32 else 1) * ((flatOp f).t.width / 8)

/-- A request waits at its target for third modules: what it needs there is asked for under a number of this module. -/
def State.openProxy (s : State) (port : Nat) (f : FlatReq) (ans : Option (List Byte × Nat)) (send : State → Core → Nat → State) : State :=
  let n := s.pk.ctx
  send { s with pk := { s.pk with ctx := (n + 1) % 2 ^ 20, proxies := s.pk.proxies ++ [⟨n, port, f, [], [], ans⟩] } }
    { core0 proxyClus 0 with job := f.job, rank := f.rank } n

/-- A request goes on to another module, as if its issuer had sent it there (R356): this module's own takes the port with it. -/
def State.forward (s : State) (port : Nat) (f : FlatReq) (m : Nat) : State × Option Ans :=
  let p := s.routeOf m f.req
  let s := if port == 0xFFFF then
      { s with pk := { s.pk with remotes := s.pk.remotes.map (fun x => if x.ctx == f.req && x.port == 0xFFFF then { x with port := p } else x) } }
    else s
  if (s.portOf p).alive then (s.sendBody p m f.req (returnsOf f) f, none)
  else (s, if port == 0xFFFF then none else some ⟨5, [], 0⟩)

/-- A request is served in this module, as far as its bytes lie here; third modules are asked for the rest. A request that is refused, or
meets poison here, changes nothing. -/
def State.serveHere (s : State) (port : Nat) (f : FlatReq) : State × Option Ans :=
  let x := s.serveWith f []
  let reads := s.thirdReads f
  let rmws := s.thirdAtomics f
  if x.2.1.st == 1 then (s, some x.2.1)
  else if !reads.isEmpty then (s.openProxy port f none (fun s c n => s.askBytes c n f.off none reads), none)
  else if x.2.1.st != 0 || (x.2.2.isEmpty && rmws.isEmpty) then (x.1, some x.2.1)
  else (x.1.openProxy port f (some (x.2.1.data, x.2.1.info)) (fun s c n =>
    let s := (writeBodies none (f.ty == poisonTy) x.2.2).foldl (fun (s : State) y => s.request c n f.off 0 y.1 none y.2) s
    rmws.foldl (fun (s : State) y => s.request c n f.off (returnsOf y.2) (some y.1) none y.2) s), none)

/-- A request that reaches its target (R276, R335, R347, R354, R356), by a port or from this module itself (0xFFFF): the state after, and its
answer. There is none yet where it is held while its rank moves, forwarded by a tombstone, or waits for a third module. -/
def State.serveFlat (s : State) (port : Nat) (f : FlatReq) : State × Option Ans :=
  if f.rank ≥ physRank then s.serveHere port f
  else match s.rankOf f.job f.rank, s.pk.tombs.find? (fun t => t.job == f.job && t.rank == f.rank && !t.ended) with
    | none, some t => s.forward port f t.target
    | rk, _ =>
      if (match rk with | some r => r.moving | none => false) then ({ s with pk := { s.pk with heldReqs := s.pk.heldReqs ++ [(port, f)] } }, none)
      else match s.metAtTarget f with
        | some x => (x.1, some x.2)
        | none => s.serveHere port f

/-- CHUNK_WRITE (R250, R251, R253): the oldest chunk that is read is written, or deferred by a beat (R245). A rounding takes FTZ from FCTL of the
core that owns the channel, as it stands at the chunk's write beat before the deliveries of that beat (R8; DESIGN CHOICE, log 14: no rule
names the core or the beat). -/
def execChunkWrite (ch : Nat) (s : State) : Result :=
  if !chanOk ch then .fault .noSuchInput
  else
  let c0 := s.chanCore ch
  match (c0.chan (ch % 2)).cur with
  | none => .next s
  | some cr =>
    match cr.ready with
    | [] => .next s
    | y :: rest =>
      if y.writeAt > s.beat then .next s
      else
      let r := recF cr.words
      let c := s.pagesFor c0 [r.src, r.dst]
      let tag := if r.tag then some y.tag else none
      let hold := s.withholds c0
      -- the chunk leaves the list; what goes out is sent, or withheld (R265)
      let done := fun (s : State) (as : List Nat) (banks : List (Nat × Nat)) (msgs : List FlatOut) =>
        let held := msgs.filter (fun m => hold && m.far.isNone)
        let sent := msgs.filter (fun m => !(hold && m.far.isNone))
        let s := s.mapChanCore ch (fun c => { c with withheld := c.withheld ++ held })
        let s := sent.foldl (fun (s : State) m => s.sendCopy c0 m) s
        let s := { s with free := s.free + 32 }
        s.onChan ch (fun x => { x.mark as with cur := some { cr with
          ready := rest
          acks := cr.acks + sent.length
          lastWrite := s.beat } }.serve true s.beat banks)
      match r.value, s.locOf c r.dst with
      | true, .flat k o =>
        (match s.copyReg c true r.dst with
        | .error e => .next (s.endRecord ch e)
        | .ok _ => .next (done s [] [] [⟨ch % 2, y.k, r.dst, none, valueWrite k o tag (ftzOn c0.a) cr y, y.readAt⟩]))
      | _, _ =>
      let c := s.writePages c r y
      let fifo := s.fifoAt c r r.dst (r.inChunk y.k) true
      if !s.fifoReady c fifo true then .next s
      else match s.chunkOut c r (ftzOn c0.a) y with
      | .error e => .next (s.endRecord ch e)
      | .ok (ws, push) =>
        let banks := match fifo with | some f => [(f.1, f.2.1)] | none => banksAt (ws.map Prod.fst)
        if s.portBusy ch true banks then
          .next (s.onChan ch (fun x => { x with cur := some { cr with
            base := if cr.nread < cr.chunks then cr.base + 1 else cr.base
            ready := cr.ready.map (fun z => { z with writeAt := z.writeAt + 1 }) } }))
        else
          let bw := ws.map (fun w => (⟨s.locOf c w.1, w.2.1, w.2.2⟩ : ByteW))
          let pas := bw.filter (fun w => match w.loc with | .pa _ => true | _ => false)
          if pas.any (fun w => match w.loc with | .pa a => s.pagePoisoned a | _ => false) then .next (s.endRecord ch 3)
          else
            let spads := bw.filter (fun w => match w.loc with | .spad _ _ _ => true | _ => false)
            let s := match fifo with
              | some f => let b := s.banksOf c.pclus f.1; s.setBanks (setFifo b f.2.1 (b.fifo f.2.1 ++ push.map (fun x => (x, y.poison))))
              | none => (s.spadWrite spads).blockPoison spads y.poison
            let s := s.throughWrite (dieOf c.pclus) pas y.poison
            let outs : List FlatOut := (writeBodies tag y.poison bw).map (fun x => ⟨ch % 2, y.k, r.dst + r.size * y.k, x.1, x.2, y.readAt⟩)
            .next (done s (ws.map Prod.fst) banks outs)

/-! ## Completion, stop, timeout, FIFO release -/

/-- RECORD_COMPLETE (R252, R255, R257). -/
def execRecordComplete (ch : Nat) (s : State) : Result :=
  if !chanOk ch then .fault .noSuchInput
  else
  match ((s.chanCore ch).chan (ch % 2)).cur with
  | none => .next s
  | some cr =>
    if decide (cr.nread < cr.chunks) || !cr.ready.isEmpty || cr.acks != 0 || decide (cr.lastWrite + 1 > s.beat) then .next s
    else
      let r := recF cr.words
      .next (s.mapChanCore ch (fun c =>
        let x := c.chan (ch % 2)
        let c := if r.evt && !x.quiet then c.queueEvent 0 (ch % 2) cr.addr else c
        c.setChan (ch % 2) (if r.next == 0 then x.rest 0 s.beat else { x with cur := none, fetchAt := some (r.next, s.beat) })))

/-- R255, R336: no outcome within this many beats. -/
def timeoutBeats : Nat := 4194304

/-- COPY_RECORD_TIMEOUT (R255). -/
def execCopyRecordTimeout (ch : Nat) (s : State) : Result :=
  if !chanOk ch then .fault .noSuchInput
  else
  let x := (s.chanCore ch).chan (ch % 2)
  let f := match x.cur, x.fetchAt with | some r, _ => some r.fetch | none, some (_, f) => some f | none, none => none
  match x.st, f with
  | 1, some f => if f + timeoutBeats ≤ s.beat then .next (s.endRecord ch 6) else .next s
  | _, _ => .next s

/-- CSTOP_EFFECT (R259): once the chunks read are written, the channel goes idle with an entry of status 1. -/
def execCstopEffect (ch : Nat) (s : State) : Result :=
  if !chanOk ch then .fault .noSuchInput
  else
  let x := (s.chanCore ch).chan (ch % 2)
  match x.stopAt with
  | none => .next s
  | some b =>
    let done := match x.cur with | some r => r.ready.isEmpty && r.acks == 0 | none => true
    if decide (b ≤ s.beat) && done && (x.st == 1 || x.st == 2) then .next (s.endRecord ch 1) else .next s

/-- FIFO_CHUNK_RELEASE (R240): a chunk that waited on a FIFO bank proceeds in this beat; the delay falls on it and on every
later chunk of the channel. -/
def execFifoChunkRelease (ch : Nat) (s : State) : Result :=
  if !chanOk ch then .fault .noSuchInput
  else
  let c := s.chanCore ch
  match (c.chan (ch % 2)).cur with
  | none => .next s
  | some cr =>
    let r := recF cr.words
    let c := s.pagesFor c [r.src, r.dst]
    let w := match cr.ready with
      | y :: _ => (match s.fifoAt c r r.dst (r.inChunk y.k) true with
        | some f => if s.fifoReady c (some f) true then s.beat - y.writeAt else 0
        | none => 0)
      | [] => 0
    let rd := if decide (cr.nread < cr.chunks) then (match s.fifoAt c r r.src (r.inChunk cr.nread) false with
        | some f => if s.fifoReady c (some f) false then s.beat - (cr.base + cr.nread) else 0
        | none => 0) else 0
    .next (s.onChan ch (fun x => { x with cur := some { cr with
      base := cr.base + max w rd
      ready := cr.ready.map (fun z => { z with writeAt := z.writeAt + w }) } }))

/-! ## Outcomes of a remote access, copy accesses included (R336, R337) -/

/-- The status of a record whose flat access failed (R336): a write refused for poison has status 2 with PCK. -/
def copyStatus (pck : Bool) (st : FStatus) : Nat := match st with | 1 => 3 | 2 => if pck then 2 else 3 | 3 => 5 | 4 => 3 | _ => 4

/-- Poisoned bytes that an answer did not bring are free values (R251, R281). -/
def State.padPoison (s : State) (rm : Remote) (data : List Byte) : List Byte :=
  if rm.body.opc == 0xA1 then
    (if data.isEmpty then [4#8, 0#8] ++ (List.range ((rm.want - 2) / 30)).flatMap (fun i =>
        packItem (32 * rm.body.count + i, .fin ⟨false, bits (Config.freeWord (s.free + i)).toNat 0 32, 0⟩, (Config.freeWord (s.free + i)).toNat))
      else data)
  else data ++ (List.range (rm.want - data.length)).map (fun i => Config.freeByte (s.free + i))

/-- The outcome of an access of a copy channel (R281, R336, R337): a chunk write that fails counts once, however many requests carry it. -/
def State.settleCopy (s : State) (rm : Remote) (j : Nat) (st : FStatus) (data : List Byte) : State :=
  let ch := rm.clus * 256 + 2 * rm.core + j
  let wr := rm.body.kind == .write
  let s := { s with pk := { s.pk with remotes := s.pk.remotes.filter (fun x => x.ctx != rm.ctx) } }
  let s := if st != 0 && wr && rm.far.isNone && rm.id < withheldId then
      s.mapChanCore ch (fun c =>
        if c.copyFails.any (fun f => f.chan == j && f.k == rm.id && f.readAt == rm.issue) then c
        else { c with copyFails := c.copyFails ++ [⟨j, rm.id, rm.issue, fswOf st, if st == 5 then rm.port else 0xFFFF, rm.addr⟩] })
    else s
  let bad := st == 2 && !wr
  let bytes := if bad then s.padPoison rm data else data
  let s := if bad then { s with free := s.free + rm.want } else s
  let x := (s.chanCore ch).chan j
  if rm.id == sysId then
    match x.fetchAt with
    | some (_, f) =>
      if decide (rm.issue < f) then s
      else if st == 2 then s.endRecord ch 2
      else if st != 0 then s.endRecord ch (copyStatus false st)
      else s.onChan ch (fun x => { x with got := x.got ++ rm.locs.zip data })
    | none => s
  else match x.cur with
  | none => s
  | some cr =>
    if rm.id ≥ withheldId || decide (rm.issue < cr.fetch) then s
    else if st != 0 && !bad then s.endRecord ch (copyStatus (recF cr.words).pck st)
    else s.onChan ch (fun x => { x with cur := some (
      if wr then { cr with acks := cr.acks - 1 }
      else if rm.body.opc == 0xA1 then { cr with reply := bytes, farBad := cr.farBad || bad }
      else { cr with far := cr.far ++ rm.locs.zip bytes, farBad := cr.farBad || bad }) })

/-- What firmware read of another module for a launch or a restore arrives (R275, R297). -/
def State.settlePrep (s : State) (rm : Remote) (st : FStatus) (data : List Byte) (info : Nat) : State :=
  let p := s.pk.prep
  { s with pk := { s.pk with
    remotes := s.pk.remotes.filter (fun x => x.ctx != rm.ctx)
    prep := { p with
      got := p.got ++ rm.locs.zip data
      bad := if st == 0 then p.bad else p.bad ++ [(st, if st == 2 && !(rm.named info).isEmpty then rm.named info else rm.locs)] } } }

/-- What a port asked of another module for a collective has its outcome (R275, R342 to R344). -/
def State.settleColl (s : State) (rm : Remote) (st : FStatus) (data : List Byte) : State :=
  { s with pk := { s.pk with
    remotes := s.pk.remotes.filter (fun x => x.ctx != rm.ctx)
    colls := s.pk.colls.map (fun k =>
      if !(k.job == rm.body.job && k.rank == rm.core && k.cid == rm.id) then k
      else if st != 0 then { k with bad := some rm.addr }
      else if rm.body.kind == .read then { k with got := k.got ++ rm.locs.zip data } else k) } }

/-- An access of a core, of a copy channel, of firmware or of a port has its outcome. -/
def State.settleOwn (s : State) (rm : Remote) (st : FStatus) (data : List Byte) (info : Nat) : State :=
  match rm.chan with
  | some j => s.settleCopy rm j st data
  | none =>
    if rm.clus == prepClus then s.settlePrep rm st data info
    else if rm.clus == collClus then s.settleColl rm st data
    else s.finish rm st data info

/-- Reply flits of a request: one for each 48 bytes returned, at least one (R331), on a route to the issuer. -/
def State.sendReply (s : State) (dmod own ctx : Nat) (ans : Ans) : State :=
  let port := s.routeOf dmod ctx
  if !(s.portOf port).alive then s
  else (flitPieces ans.data).foldl (fun (s : State) x =>
    s.sendFlitOf port 4 dmod own 0 ctx 0 0 0 (leBytes 8 (ans.st + x.2 * 65536 + x.1.length * 2 ^ 32) ++ x.1) none ans.info) s

/-- The answer of a request goes to its issuer: over the fabric, or in this module. -/
def State.answer (s : State) (port : Nat) (f : FlatReq) (ans : Ans) : State :=
  if port == 0xFFFF then
    match s.pk.remotes.find? (fun x => x.ctx == f.req && x.port == 0xFFFF) with
    | some rm => s.settleOwn rm ans.st ans.data ans.info
    | none => s
  else s.sendReply f.smod (s.ownModule f.job) f.req ans

/-- A request that this module serves, with its answer where it has one (R276, R335, R356). -/
def State.serve (s : State) (port : Nat) (f : FlatReq) : State :=
  let x := s.serveFlat port f
  match x.2 with
  | some a => x.1.answer port f a
  | none => x.1

/-- Everything that a request waited for in third modules has come: its answer. A failure there is its failure; of poison the lowest byte is
named. -/
def State.proxyAnswer (s : State) (p : Proxy) : State × Ans :=
  let sick := p.bad.filter (fun x => x.1 == 2)
  match p.bad.find? (fun x => x.1 != 2) with
  | some x => (s, ⟨x.1, [], 0⟩)
  | none =>
    let x := match p.ans with
      | some a => (s, (⟨0, a.1, a.2⟩ : Ans))
      | none => let y := s.serveWith p.req p.got; (y.1, y.2.1)
    if sick.isEmpty then x
    else (x.1, ⟨2, if p.ans.isSome then [] else x.2.data, (lowest ((sick.map Prod.snd ++ (if x.2.st == 2 then [x.2.info] else [])).filter (fun i => i != 0))).getD 0⟩)

/-- An answer of a third module reaches the request that waits for it (R275). -/
def State.settleProxy (s : State) (rm : Remote) (st : FStatus) (data : List Byte) (info : Nat) : State :=
  let s := { s with pk := { s.pk with remotes := s.pk.remotes.filter (fun x => x.ctx != rm.ctx) } }
  match s.pk.proxies.find? (fun p => p.n == rm.id) with
  | none => s
  | some p =>
    let q := { p with
      got := if plainReq rm.body && rm.body.kind == .read then p.got ++ rm.locs.zip data else p.got
      bad := if st == 0 then p.bad else p.bad ++ [(st, if st == 2 then s.thirdName p.req rm info else 0)]
      ans := if rm.body.kind == .atomic && st == 0 then p.ans.map (fun a =>
          ((List.range (max a.1.length data.length)).map (fun i => a.1.getD i 0#8 ||| data.getD i 0#8), a.2 ||| info)) else p.ans }
    if s.pk.remotes.any (fun x => x.clus == proxyClus && x.id == p.n && x.chan.isNone) then
      { s with pk := { s.pk with proxies := s.pk.proxies.map (fun x => if x.n == p.n then q else x) } }
    else
      let s := { s with pk := { s.pk with proxies := s.pk.proxies.filter (fun x => x.n != p.n) } }
      let x := s.proxyAnswer q
      x.1.answer p.port p.req x.2

/-- A remote access has its outcome (R336, R337). -/
def State.settle (s : State) (rm : Remote) (st : FStatus) (data : List Byte) (info : Nat) : State :=
  if rm.clus == proxyClus then s.settleProxy rm st data info else s.settleOwn rm st data info

/-! ## Copy instructions (R256 to R262) -/

def copyOk (e : Eff) : Out := .ok e

/-- CSTART and CSTART.in (R236, R257). -/
def opCstart (o : TOp) (e : Env) : Out :=
  let j := chanOf o
  let a := srcA e.a o
  let x := e.c.chan j
  match stackTest e.a o.sa a.toNat with
  | some w => .fault 0x0D w
  | none =>
  if !(x.st == 0 || x.st == 3) then .fault 0x08 (auxAddr a.toNat 14)
  else if a.toNat % 64 != 0 then .fault 0x0E (auxAddr a.toNat 7)
  else .ok { post := fun c => c.mapChan j (fun x => { x with
    st := 1, fetchAt := some (a.toNat, e.t + e.lat .cp), cur := none, parked := 0, stopAt := none, started := e.t, cpAt := e.t + e.lat .cp
    pendIn := if o.md.getLsbD 0 then some a.toNat else x.pendIn
    pendDone := if o.md.getLsbD 0 then none else x.pendDone }) }

/-- CAPPEND (R258). -/
def opCappend (o : TOp) (e : Env) : Out :=
  let j := chanOf o
  .ok { post := fun c => c.mapChan j (fun x =>
    if x.st == 2 then { x with st := 1, fetchAt := some (x.parked, e.t + e.lat .cp), cpAt := e.t + e.lat .cp } else x) }

/-- CSTOP (R259). -/
def opCstop (o : TOp) (e : Env) : Out :=
  let j := chanOf o
  .ok { post := fun c => c.mapChan j (fun x =>
    if x.st == 1 || x.st == 2 then { x with cpAt := e.t + e.lat .cp, stopAt := some (match x.stopAt with | some b => min b (e.t + e.lat .cp) | none => e.t + e.lat .cp) } else x) }

/-- The state word of a channel (R260 selector 1). -/
def Chan.word (x : Chan) : Word64 :=
  BitVec.ofNat 64 (x.tag * 256 + x.lastStat * 16 + flag64 x.stopAt.isSome 3 + flag64 (x.pendIn.isSome || x.curIn.isSome) 2 + x.st)

/-- CWM (R260). -/
def opCwm (o : TOp) (e : Env) : Out :=
  let x := e.c.chan (chanOf o)
  let b := e.s.banksOf e.c.pclus e.c.pcore
  let v : Word64 := match o.sb.toNat with
    | 0 => BitVec.ofNat 64 x.wm
    | 1 => x.word
    | 2 => BitVec.ofNat 64 x.rlo
    | 3 => BitVec.ofNat 64 x.rhi
    | 4 => BitVec.ofNat 64 (b.mode 0 + 4 * b.mode 1 + 16 * b.mode 2 + 64 * b.mode 3)
    | _ => BitVec.ofNat 64 (x.addr % 2 ^ 56)
  result e 0xA3 o [.s (regN o.dst) v true 0] 0#8

/-- CRANGE (R261). -/
def opCrange (o : TOp) (e : Env) : Out :=
  let lo := (srcA e.a o).toNat
  let hi := (e.a.rs (regN o.sb)).toNat
  if !(decide (spadBase ≤ lo ∧ lo ≤ hi ∧ hi ≤ spadBase + 0x2000000)) then .fault 0x08 (auxAddr lo 3)
  else .ok { flights := [⟨e.t + 1, e.t, o.slot, none, [.crange (chanOf o) lo hi], 0#8, none, none⟩] }

/-- CTAG (R261). -/
def opCtag (o : TOp) (e : Env) : Out :=
  .ok { flights := [⟨e.t + 1, e.t, o.slot, none, [.ctag (chanOf o) ((srcA e.a o).toNat % 256)], 0#8, none, none⟩] }

/-- CPREF asks for lines and has no other effect (R261); the fills it asks for are L2_FILL events. -/
def opCpref (_ : TOp) (_ : Env) : Out := .ok {}

/-- EVPOP (R262). -/
def opEvpop (o : TOp) (e : Env) : Out :=
  let L := e.lat .sa
  let on := activeS e.a o
  match e.c.takeEvents.events with
  | [] => .ok { flights := [⟨e.t + L, e.t, o.slot, some .sa, [wrS e.a o 0#64 0], 0#8, none, none⟩] }
  | w :: r =>
    if on then .ok
      { flights := [⟨e.t + L, e.t, o.slot, some .sa, [wrS e.a o w 0], 0#8, none, some 3⟩]
        post := fun c => { c.takeEvents with events := r } }
    else .ok { flights := [⟨e.t + L, e.t, o.slot, some .sa, [wrS e.a o 0#64 0], 0#8, none, none⟩] }

/-- CQFMT (R243, R261). -/
def opCqfmt (o : TOp) (e : Env) : Out :=
  if o.md.getLsbD 0 then
    result e 0xA8 o [.s (regN o.dst) ((e.s.banksOf e.c.pclus e.c.pcore).qf (o.sa.toNat % 16)) true 0] 0#8
  else .ok { flights := [⟨e.t + 1, e.t, o.slot, none, [.cqfmt (o.dst.toNat % 16) (srcA e.a o)], 0#8, none, none⟩] }

/-! ## Bank switches (R244) -/

/-- Addresses that chunk `j` writes in the cluster: the first byte of each element's group, or the bytes. -/
def State.chunkDests (s : State) (c : Core) (r : RecF) (j : Nat) : List Nat :=
  match s.copyReg c true r.dst with
  | .error _ => []
  | .ok ⟨g, fifo⟩ =>
    if fifo.isSome then [r.dst]
    else if !r.value then (List.range (r.inChunk j)).map (fun i => r.dst + 128 * j + i)
    else match copyIndex g r.dst with
      | none => []
      | some j0 => (List.range (r.inChunk j)).flatMap (fun i =>
          let p := copyAddr g (j0 + 32 * j + i); [p.1 + p.2 / 8, p.1 + p.2 / 8 + (copySpan g.fmt p.2).2 - 1])
/-- Does a record have a chunk read or write to come at a bank of the cluster (R244)? -/
def State.recUses (s : State) (c : Core) (cr : CRec) (bank : Nat × Nat) : Bool :=
  let r := recF cr.words
  let left := (List.range cr.chunks).filter (fun j => decide (j ≥ cr.nread))
  left.any (fun j => match s.chunkPlaces c r (unfOf cr.unf.1.toNat cr.unf.2.toNat) j with
    | .ok ps => (banksAt (ps.flatMap (s.placeBytes c r))).contains bank
    | .error _ => false) ||
  (cr.ready.map (fun y => y.k) ++ left).any (fun j => (banksAt (s.chunkDests c r j)).contains bank)

/-- Lines that the core's loads on their way bring into its L1, each once (R239). -/
def Core.linesDue (c : Core) : List Nat :=
  ((c.reqs.filter (fun r => r.fixed.isNone && l1Ok r)).flatMap (fun r => sectorsOf r.locs)).eraseDups.filter (fun k => (c.l1Find (k * 128)).isNone)
/-- May one of those lines go into a CACHE bank (R239, R244)? The lines of a set fill its ways in turn from the next one on. -/
def State.fillsBank (s : State) (c : Core) (n : Nat) : Bool :=
  let ways := cacheBanks (s.banksOf c.pclus c.pcore)
  let due := c.linesDue
  ways.contains n && due.any (fun k =>
    let set := k % 512
    match nextWay ways ((c.l1last.find? (fun x => x.1 == set)).map Prod.snd) with
    | some w => (((ways.dropWhile (fun x => x != w)) ++ ways.takeWhile (fun x => x != w)).take (due.filter (fun j => j % 512 == set)).length).contains n
    | none => false)

/-- R244: is anything pending at the bank at or after a beat? -/
def State.bankBusy (s : State) (c : Core) (n : Nat) (b : Nat) : Bool :=
  s.bankUsed c.pclus c.pcore n b (b + 2 ^ 40) ||
  s.windows.any (fun w => w.clus == c.pclus && w.core == c.pcore && w.bank == n && decide (b ≤ w.first + 2)) ||
  s.chanList.any (fun x => x.1.pclus == c.pclus && (match (x.1.chan x.2).cur with
    | some cr => s.recUses (s.pagesFor x.1 [(recF cr.words).src, (recF cr.words).dst]) cr (c.pcore, n)
    | none => false)) ||
  s.fillsBank c n ||
  s.allCores.any (fun d => match d.dld with
    | some x => (match x.readAt with | some k => decide (k ≥ b) && x.bytes.isEmpty && (x.locs.filterMap locBank).contains (c.pclus, c.pcore, n) | none => false)
    | none => false)

/-- The lowest TAPE bank (R241). -/
def tapeBankOf (b : Banks) : Option Nat := (List.range 4).find? (fun n => b.mode n == 3)
/-- Does the switch take the tape bank away or change which bank it is (R244)? -/
def movesTape (b : Banks) (n mode : Nat) : Bool :=
  tapeBankOf b != tapeBankOf { b with modes := b.modes.setIfInBounds n (BitVec.ofNat 2 mode) } || (b.mode n == 3 && mode != 3)

/-- CBANK (R244, R261). In timetabled code a wait is a timing fault, as far as it is known at the core's turn: an access that a core with a later
turn issues in the same beat makes it wait (DEDUCED, log 9). -/
def opCbank (o : TOp) (e : Env) : Out :=
  let n := o.dst.toNat % 4
  let mode := o.mdN % 4
  let b := e.s.banksOf e.c.pclus e.c.pcore
  let mv := movesTape b n mode
  let u := e.a.unhomed
  match (if mv then e.s.tapeLocs e.c true u.1 (e.a.tapep.toNat + (if e.a.adjmode == 1#2 then e.tp else 0)) else .ok []) with
  | .error f => failOut f
  | .ok ls =>
    if e.c.timetabled && (e.s.bankBusy e.c n (e.t + 1) || !ls.isEmpty || (mv && (e.s.tapeOut e.c || e.s.recordsOpen e.c))) then
      .fault 0x06 (auxTiming 0xC o.slot 0)
    else .ok { spost := fun s => if mv then s.flushTape e.t else s, waits := [.bank n mode] }

/-- The bank's mode changes and its contents are reset (R244). -/
def State.switchBank (s : State) (n mode : Nat) : State :=
  let c := s.core
  let b := s.banksOf c.pclus c.pcore
  if b.mode n == mode then s
  else
    let mv := movesTape b n mode
    let s := s.setBanks (setFifo { b with modes := b.modes.setIfInBounds n (BitVec.ofNat 2 mode) } n [])
    let k := spadKey c.pclus c.pcore (n * 0x10000)
    let s := if mode == 0 then { s with
        mem := s.mem.blur k 0x10000 s.free
        free := s.free + 0x10000
        blocks := s.blocks.filter (fun x => !decide (k / 128 ≤ x ∧ x < (k + 0x10000) / 128)) } else s
    { s with core := { c with
      l1 := c.l1.filter (fun l => l.bank != n)
      a := if mv then { c.a with tape := [] } else c.a } }

/-- The bank switches for which a core waits, those that a trap interrupted included. -/
def Core.bankWaits (c : Core) : List (Nat × Nat) :=
  (c.waits ++ (if c.hm then c.frame.waits else [])).filterMap (fun w => match w with | .bank n m => some (n, m) | _ => none)
/-- A switch of a core whose bank is quiet from the next beat on (R244). -/
def State.bankDue (s : State) (c : Core) : Option (Nat × Nat) :=
  c.bankWaits.find? (fun x =>
    let mv := movesTape (s.banksOf c.pclus c.pcore) x.1 x.2
    !(s.bankBusy c x.1 (s.beat + 1) || (mv && (s.tapeOut c || s.recordsOpen c || !c.a.unhomed.2.isEmpty))))

/-- BANK_MODE_SWITCH (R244): at the end of a beat, the mode in force from the next beat c on; the next bundle issues from c + 1. -/
def execBankModeSwitch (s : State) : Result :=
  match s.bankDue s.core with
  | none => .next s
  | some (n, m) =>
    let s := s.switchBank n m
    let drop := fun (ws : List Wait) => ws.filter (fun w => w != .bank n m)
    .next { s with core := { s.core with
      waits := drop s.core.waits
      frame := { s.core.frame with waits := drop s.core.frame.waits }
      readyAt := max s.core.readyAt (s.beat + 2) } }

/-- BUFSWAP (R264): the checkpoint of the phase, and the wait for its commit. -/
def opBufswap (_ : TOp) (e : Env) : Out :=
  if e.c.hm then .fault 0x13 (auxPriv 3 false 0)
  else if !e.c.drained then .hold
  else .ok
    { ckpt := true, swap := true, waits := [.phase]
      post := fun c => { c with swapAt := some e.t }
      spost := fun s => match s.launchOf e.c.job e.c.rank with
        | some l => s.setLaunch { l with swaps := l.swaps ++ [⟨e.c.coreid, e.t⟩] }
        | none => s }

def execCstart (o : TOp) (s : State) : Result := .next (issueOne 0xA0 o opCstart true s)
def execCstartIn (o : TOp) (s : State) : Result := .next (issueOne 0xA0 o opCstart true s)
def execCappend (o : TOp) (s : State) : Result := .next (issueOne 0xA1 o opCappend true s)
def execCstop (o : TOp) (s : State) : Result := .next (issueOne 0xA2 o opCstop true s)
def execCwm (o : TOp) (s : State) : Result := .next (issueOne 0xA3 o opCwm true s)
def execCrange (o : TOp) (s : State) : Result := .next (issueOne 0xA4 o opCrange true s)
def execCtag (o : TOp) (s : State) : Result := .next (issueOne 0xA5 o opCtag true s)
def execCpref (o : TOp) (s : State) : Result := .next (issueOne 0xA6 o opCpref true s)
def execCbank (o : TOp) (s : State) : Result := .next (issueOne 0xA7 o opCbank true s)
def execCqfmt (o : TOp) (s : State) : Result := .next (issueOne 0xA8 o opCqfmt true s)
def execCqfmtGet (o : TOp) (s : State) : Result := .next (issueOne 0xA8 o opCqfmt true s)
def execBufswap (o : TOp) (s : State) : Result := .next (issueOne 0xA9 o opBufswap true s)
def execEvpop (o : TOp) (s : State) : Result := .next (issueOne 0xCB o opEvpop true s)

end Sys2Proof.Machine
end

