-- ==== Sys2Proof/Machine/Deliver.lean ====
section
/-! DEFINITION. Events of cores and memory: delivery of results (R20, R141), scratchpad and memory stores (R192, R193, R220,
R269), replies (R194, R217), releases and fences (R210, R211), failures (R212), walks (R278), L2 (R269, R270, R280), home
atomics (R203), the Turnstile (R283), the Tombola reload (R78), waits (R101) and trap entry (R228). -/
namespace Sys2Proof.Machine

/-! ## Names of requests in inputs -/

/-- The number of a core in the package. -/
def coreNo (c : Core) : Nat := c.pclus * 128 + c.pcore
/-- Inputs name a request or an address together with its core: 4096 times the one, plus the number of the other. -/
def inputCore (s : State) (id : Nat) : Core := s.coreAt (id % 4096 / 128) (id % 128)

/-! ## Results (R20, R29, R74, R141, R152) -/

/-- FCTL as deliveries of the beat leave it: a SETS is written before flags are compared (R29). -/
def fctlOf (ws : List Wr) (x : Word64) : Word64 :=
  ws.foldl (fun x w => match w with
    | .spec i y => if i == 4#6 then y &&& specMask 4 else x
    | _ => x) x
def Core.fctlNow (c : Core) (beat : Nat) : Core :=
  let due := (c.flights.filter (fun f => decide (f.due ≤ beat))).flatMap (fun f => f.ws)
  { c with a := { c.a with fctl := fctlOf due c.a.fctl } }

/-- The rows of a stash in the order of their beats get their bytes, or are dropped when an enabled flag suppresses it. -/
def fillRows (mine : Perf → Bool) (keep : Bool) : List (List ByteW) → List Perf → List Perf
  | _, [] => []
  | rows, p :: ps =>
    if mine p then
      (if keep then { p with ws := rows.headD [] } :: fillRows mine keep (rows.drop 1) ps else fillRows mine keep (rows.drop 1) ps)
    else p :: fillRows mine keep rows ps

/-- Stashes of the core that read their tile in this beat (R152). -/
def State.stashes (s : State) : State :=
  (s.stashNow s.core).foldl (fun (s : State) x =>
    let c := s.core
    let st := x.1
    let keep := !(c.fctlNow s.beat).trapping x.2.1
    let mine := fun (p : Perf) => p.clus == c.pclus && p.core == c.pcore && p.issue == st.issue && p.slot == 3 && p.req.isNone
    { s with
      perfs := fillRows mine keep x.2.2 s.perfs
      core := { c with
        held := fillRows mine keep x.2.2 c.held
        steps := c.steps.filter (fun y => y != st)
        flights := c.flights ++ [⟨s.beat, st.issue, 3, none, [], x.2.1, none, none⟩] } }) s

/-- RESULT_DELIVERY (R20, R29, R74): every result of the core that is due is written, and its flags are raised. -/
def execResultDelivery (s : State) : Result :=
  let s := s.stashes
  .next { s with core := s.core.deliver s.beat }

/-! ## Stores (R192, R193, R194, R220, R269, R281) -/

/-- Older loads of the core to bytes about to change keep the bytes that they find, and their poison (R194, R217). -/
def State.captureLoads (s : State) (c : Core) (issue : Nat) (ls : List Loc) : State :=
  s.mapCore c.pclus c.pcore (fun c =>
    { c with reqs := c.reqs.map (fun r =>
        match r.kind, r.fixed with
        | .store, _ => r
        | .atomic, _ => r
        | .accum, _ => r
        | .clear, _ => r
        | _, some _ => r
        | _, none =>
          if r.issue ≤ issue then
            let hit := ((r.elems.flatMap (fun el => el.places.map Prod.snd)).filter (fun l => ls.contains l && !(r.got.any (fun x => x.1 == l)) &&
              (match l with | .pa _ => true | _ => false))).eraseDups
            let seen := hit.map (fun l => (l, s.reqSee c r (s.ownEarlier c r.issue) l))
            { r with
              got := r.got ++ seen.map (fun x => (x.1, x.2.1))
              gotBad := r.gotBad ++ (seen.filter (fun x => x.2.2)).map Prod.fst }
          else r) })

/-- Bytes of a store in memory go to the die's L2 and the core's L1; those of pages that were poisoned for the store do not (R269, R279
to R281). -/
def State.memStore (s : State) (c : Core) (psn : List Nat) (ws : List ByteW) : State :=
  let ws := ws.filter (fun w => match w.loc with | .pa a => w.mask != 0#8 && !psn.contains (a / 4096) | _ => false)
  let s := ws.foldl (fun (s : State) w => match w.loc with
    | .pa a => (s.l2Write (dieOf c.pclus) a w.mask w.val).mapCore c.pclus c.pcore (fun c => c.l1Store a w.mask w.val)
    | _ => s) s
  (sectorsOf (ws.map (fun w => w.loc))).foldl (fun (s : State) k =>
    if ((ws.filterMap (fun w => match w.loc with | .pa a => if a / 128 == k then some a else none | _ => none)).eraseDups).length = 128
    then s.clearSectorPoison (dieOf c.pclus) k else s) s

/-- The program's address of a store. -/
def Core.storeAddr (c : Core) (id : Nat) : Nat := match c.outst.find? (fun x => x.id == id) with | some x => x.addr | none => 0

/-- Bytes of a store that leave the module go out, one request a target (R275, R276, R347). -/
def State.farStore (s : State) (c : Core) (p : Perf) (ws : List ByteW) : State :=
  (writeBodies (some c.step.toNat) false ws).foldl (fun (s : State) x => s.request c p.id (c.storeAddr p.id) 0 x.1 none x.2) s

/-- A store of the core is in the die's L2, and no part of it is on its way to another module (R208, R285, R288). -/
def Core.reach (c : Core) (id : Nat) : Core :=
  { c with outst := c.outst.map (fun x => if x.id == id && !x.away then { x with reached := max x.reached 2 } else x) }

/-- A record of the tape gets the bytes that its store is about to overwrite (R178): in the tape bank, in the copy of it that a checkpoint
made, and at its home where that has its bytes already (R179). -/
def State.fixRecord (s : State) (c : Core) (r : Req) (off : Nat) : State :=
  let x := recordOf r (s.oldBytes c r [])
  let far := r.elems.any (fun el => el.locs.any Loc.away)
  let put := fun (a : Arch) => if far then a else a.putTape off x
  let home := !far && (decide (off < c.a.tapeHome) || decide (off < c.a.tapep.toNat - c.a.tape.length))
  let s := s.mapCore c.pclus c.pcore (fun c => { c with a := put c.a, shadow := put c.shadow })
  if home then
    match s.tapeLocs (s.pagesFor c [(c.a.tapeb.toNat + off) % 2 ^ 56, (c.a.tapeb.toNat + off + x.length - 1) % 2 ^ 56]) true off (off + x.length) with
    | .error _ => s
    | .ok ls => { s with perfs := s.perfs ++ [⟨s.beat, s.beat, c.pclus, c.pcore, 6, tapeId, none, wholeBytes ls x, none, 0, 0, none, false, none⟩] }
  else s

/-- A store that was sent performs in the die's L2 (R269, R285); one that has failed before counts no second time (R212). -/
def State.performSent (s : State) (c : Core) (p : Perf) : State :=
  let psn := match p.req with | some r => r.psn | none => p.psn.getD s.poison
  let s := match p.req with
    | some r => (match r.tape with | some off => s.fixRecord c r off | none => s)
    | none => s
  let s := s.captureLoads c p.issue (p.ws.map (fun w => w.loc))
  let s := s.memStore c psn p.ws
  if p.ws.any (fun w => match w.loc with | .pa a => psn.contains (a / 4096) | _ => false) then
    if c.outst.any (fun x => x.id == p.id) || p.isTape then s.failStore c.pclus c.pcore p.issue p.id fswPsn 0xFFFF (c.storeAddr p.id) else s
  else s.mapCore c.pclus c.pcore (fun c => c.reach p.id)

/-- Bytes of a store at its beat: those in the scratchpad perform, those outside the module go out, and those in this module's memory are
on their way to the L2 for a number of beats that is not fixed (R192, R195, R287; log 32). -/
def State.sendBytes (s : State) (c : Core) (p : Perf) (ws : List ByteW) : State :=
  let spads := ws.filter (fun w => w.loc.isSpad)
  let pas := ws.filter (fun w => match w.loc with | .pa _ => true | _ => false)
  let s := (s.spadWrite spads).blockPoison spads false
  let s := s.farStore c p ws
  if pas.isEmpty then (if ws.all (fun w => w.loc.isSpad) then s else s.mapCore c.pclus c.pcore (fun c => c.reach p.id))
  else { s with perfs := s.perfs ++ [{ p with ws := pas, sent := true, release := none, due := s.beat + Config.storeDelay s.free }], free := s.free + 1 }

/-- What a store has for the flat space goes out (R276): the whole of it, or those of its lanes that lie in TIER 2 pages (R200). -/
def State.flatStore (s : State) (c : Core) (id : Nat) (r : Req) : State :=
  if r.elems.isEmpty && r.fixed.isNone then s.request c id r.addr 0 none none (r.body .write c)
  else r.flatLanes.foldl (fun (s : State) el => s.request c id el.addr 1 none none (r.laneBody .write c el)) s

/-! ## Scratchpad requests -/

/-- A scratchpad load, atomic, accumulation or clear takes place at its beat (R192, R193, R202, R205); `own` are the stores that only its core
sees. An accumulation to a poisoned cell traps as the access to it does (R176), though R183 says that an accumulation takes no trap
(DEDUCED, log 13). An atomic whose flags are enabled as FCTL stands at its window does not write its word (R74; DEDUCED, log 12). -/
def State.performReq (s : State) (c : Core) (r : Req) (own : List ByteW) : State :=
  let del := match r.fixed with | some (_, d) => max d s.beat | none => s.beat
  let drop := fun (s : State) (fs : List Flight) => s.mapCore c.pclus c.pcore (fun c =>
    { c with reqs := c.reqs.filter (fun q => q != r), flights := c.flights ++ fs })
  let rd := fun (l : Loc) => s.reqSee c r own l
  match r.kind with
  | .load => drop s [loadFlight r (s.refresh c r) rd del (latOf r.opc r.o)]
  | .acquire _ => drop s [loadFlight r (s.refresh c r) rd del (latOf r.opc r.o)]
  | .store => drop s []
  | k =>
    let els := if k == .atomic then s.refresh c r else r.elems
    match poisonAt els (fun l => (rd l).2) with
    | some a => drop s [⟨del, r.issue, r.o.slot, latOf r.opc r.o, if k == .accum then [] else [memWr r (fun _ => 0#64)], 0#8, some (0x09, auxAddr a 0), none⟩]
    | none =>
      let x := rmwOf r els (fun l => (rd l).1)
      let cut := k == .atomic && (c.fctlNow s.beat).trapping x.2.2
      let fs : List Flight := if k == .accum then [] else [⟨del, r.issue, r.o.slot, latOf r.opc r.o, [memWr r (pick x.2.1)], x.2.2, none, none⟩]
      let s := drop s fs
      if cut then s else (s.spadWrite x.1).blockPoison x.1 false

/-- One store performs, or is sent (R192, R193, R195, R276): its elements are encoded and its flags raised; an enabled flag suppresses it
(R74). A release to memory is sent too, and goes no further until it may perform (R195, R210). A held accumulation or clear of scratchpad
cells takes place as one step, in the order held (R183, R191, R219). -/
def State.performOne (s : State) (p : Perf) : State :=
  let s := { s with perfs := s.perfs.filter (fun q => q != p) }
  let c := s.coreAt p.clus p.core
  let s := s.mapCore p.clus p.core (fun c => { c with lastDone := max c.lastDone s.beat })
  if p.sent then
    let s := match p.release, p.req with
      | some _, some r => (s.farStore c p p.ws).flatStore c p.id r
      | _, _ => s
    s.performSent c p
  else match p.req with
  | none => s.sendBytes c p p.ws
  | some r =>
    match r.kind with
    | .store =>
      let els := (s.refresh c r).filter (fun el => el.fmt != fmtFlat)
      if r.elems.isEmpty && r.fixed.isNone && p.release.isNone then s.flatStore c p.id r
      else
        let e := encodeStore r els
        let cut := (c.fctlNow s.beat).trapping e.2
        let s := if e.2 == 0#8 then s else s.mapCore p.clus p.core (fun c =>
          { c with flights := c.flights ++ [⟨s.beat, p.issue, p.slot, none, [], e.2, none, none⟩] })
        if cut then s.mapCore p.clus p.core (fun c => { c with outst := c.outst.filter (fun x => x.id != p.id) })
        else if p.release.isSome && r.fixed.isNone then
          { s with perfs := s.perfs ++ [{ p with ws := p.ws ++ e.1, sent := true, due := s.beat + Config.storeDelay s.free }], free := s.free + 1 }
        else (if r.elems.isEmpty then s else s.flatStore c p.id r).sendBytes c p (p.ws ++ e.1)
    | _ =>
      match c.reqs.find? (fun q => q.id == r.id && q.held) with
      | none => s
      | some q =>
        let x := { q with held := false, fixed := q.fixed.map (fun _ => (s.beat, s.beat)) }
        let s := s.mapCore p.clus p.core (fun c => { c with reqs := c.reqs.map (fun y => if y == q then x else y) })
        if x.fixed.isSome then s.performReq (s.coreAt p.clus p.core) x []
        else if leaves x then s.sendAccess c x .atomic else s

/-- The order of stores of one beat: ascending COREID, then slot (R193); released ones keep the order in which they were
held (R219). -/
def Perf.before (p q : Perf) : Bool :=
  decide (p.clus < q.clus) || (p.clus == q.clus && (decide (p.core < q.core) ||
    (p.core == q.core && !(p.own.isSome && q.own.isSome) && decide (p.slot < q.slot))))
def insertPerf (p : Perf) : List Perf → List Perf
  | [] => [p]
  | q :: qs => if q.before p then q :: insertPerf p qs else p :: q :: qs
def sortPerfs : List Perf → List Perf
  | [] => []
  | p :: ps => insertPerf p (sortPerfs ps)

/-- A release comes after the stores of its core that it covers (R210). -/
def putAfter (p : Perf) : List Perf → List Perf
  | [] => [p]
  | q :: qs =>
    if (q :: qs).any (fun x => x.clus == p.clus && x.core == p.core && decide (x.issue < p.issue)) then q :: putAfter p qs else p :: q :: qs
def afterCovered : List Perf → List Perf
  | [] => []
  | p :: ps => if p.release.isSome then putAfter p (afterCovered ps) else p :: afterCovered ps

/-- R194: a store of the core to memory performs after its earlier stores, atomics, accumulations and read-and-clears of the same bytes. -/
def State.storeBlocked (s : State) (p : Perf) : Bool :=
  let meets := fun (ls : List Loc) => p.locs.any (fun l => !l.isSpad && ls.contains l)
  (s.coreAt p.clus p.core).reqs.any (fun r => r.owesHome && decide (r.issue < p.issue) && meets r.locs) ||
  s.perfs.any (fun q => q.clus == p.clus && q.core == p.core && meets q.locs &&
    (decide (q.issue < p.issue) || (q.issue == p.issue && decide (q.slot < p.slot))))

/-! ## Releases (R210) -/

/-- A STREL of the core that may perform: earlier loads are delivered, earlier stores are done at its scope (R210, R337). Slot X holds
no load, though its DGET and ADJLD have the class of one (R168, R185). -/
def State.strelReady (s : State) (p : Perf) : Bool :=
  let c := s.coreAt p.clus p.core
  let sc := p.release.getD 0
  decide (p.due ≤ s.beat) && p.release.isSome &&
  !c.reqs.any (fun r => decide (r.issue < p.issue) && (match r.kind with | .accum => false | .store => false | _ => true)) &&
  !c.flights.any (fun f => decide (f.issue < p.issue) && f.slot != 6 && (match f.cls with | some .sl => true | some .vl => true | some .at => true | _ => false)) &&
  !c.uncovered (s.perfs.filter (fun q => q != p)) sc p.issue false && !(sc == 4 && s.fabCopies c p.issue)
/-- A STREL to memory that was sent and may perform. -/
def State.strelDue (s : State) : Option Perf := s.perfs.find? (fun p => p.sent && s.strelReady p && !s.storeBlocked p)

/-- A store performs; a STREL that covers a failed store fails with it (R210, R337). A STREL to memory is sent at its beat, one to the
scratchpad that must wait, or would write inside an atomic window (R202), takes the place of a store of the next beat (R193, R195; log 32). -/
def State.performStore (s : State) (p : Perf) : State :=
  match p.release with
  | none => s.performOne p
  | some sc =>
    let spad := p.locs.any Loc.isSpad
    if !p.sent && !spad then s.performOne p
    else if spad && (!s.strelReady p || p.banks.any (fun b => s.windowHit b.1 b.2.1 b.2.2 s.beat s.beat)) then { s with perfs := s.perfs.map (fun q => if q == p then { p with due := s.beat + 1 } else q) }
    else
    let x := if sc == 4 then (s.coreAt p.clus p.core).takeFails p.issue else (s.coreAt p.clus p.core, 0)
    let s := s.mapCore p.clus p.core (fun c => { x.1 with failed := c.failed ++ if x.2 = 0 then [] else [(0, x.2)] })
    if p.bad ||| x.2 == 0 then s.performOne p
    else
      let s := { s with perfs := s.perfs.filter (fun q => q != p) }
      s.failStore p.clus p.core p.issue p.id (p.bad ||| x.2) 0xFFFF (match p.req with | some r => r.addr | none => 0)

/-- Stores that perform or are sent at this beat, those of a release among them (R193, R195, R210). -/
def State.duePerfs (s : State) : List Perf :=
  afterCovered (sortPerfs (s.perfs.filter (fun p => decide (p.due ≤ s.beat) && (!p.sent || (p.release.isNone && !s.storeBlocked p)))))

/-- Scratchpad requests that read or perform at this beat. -/
def Req.dueAt (r : Req) (b : Nat) : Bool := !r.held && (match r.fixed with | some (rd, _) => decide (rd ≤ b) | none => false)

/-- Does a DLD read another core's scratchpad in this beat (R169)? -/
def Dld.readsAt (d : Dld) (b : Nat) : Bool :=
  match d.readAt with | some k => decide (k ≤ b) && d.bytes.isEmpty && !d.locs.isEmpty | none => false
/-- The bytes of a DLD from another core's scratchpad at its read beat (R169). -/
def State.dldRead (s : State) (c : Core) : Core :=
  match c.dld with
  | some d => if d.readsAt s.beat then
      let xs := d.locs.map (s.ownByte c d.taint d.psn d.got (s.ownEarlier c d.issue))
      { c with dld := some { d with bytes := xs.map Prod.fst, poisoned := xs.any Prod.snd } }
    else c
  | none => c

/-- Scratchpad accesses that take place in this beat, in ascending issue beat and COREID (R183). -/
def State.dueReqs (s : State) : List (Core × Req) :=
  let xs := s.allCores.flatMap (fun c => (c.reqs.filter (fun r => r.dueAt s.beat)).map (fun r => (c, r)))
  let before := fun (x y : Core × Req) => decide (x.2.issue < y.2.issue) || (x.2.issue == y.2.issue && decide (x.1.coreid ≤ y.1.coreid))
  xs.foldr (fun x l => l.takeWhile (fun y => !before x y) ++ x :: l.dropWhile (fun y => !before x y)) []

/-- Is a store due? -/
def State.writesDue (s : State) : Bool := !s.duePerfs.isEmpty
/-- Does a scratchpad access read in this beat? -/
def State.readsDue (s : State) : Bool :=
  s.allCores.any (fun c => c.reqs.any (fun r => r.dueAt s.beat) || (match c.dld with | some d => d.readsAt s.beat | none => false))

/-- STORE_PERFORM (R192, R193, R286): the stores due in this beat in ascending COREID and slot; when none is left, the scratchpad accesses
that read in it. -/
def execStorePerform (s : State) : Result :=
  if s.writesDue then .next (s.duePerfs.foldl (fun (s : State) p => s.performStore p) s)
  else
    let s := s.dueReqs.foldl (fun (s : State) x =>
      let c := s.coreAt x.1.pclus x.1.pcore
      s.performReq c x.2 (s.heldView c s.beat)) s
    .next (s.mapCores (fun c => s.dldRead c))

/-- STREL_PERFORM (R210): a STREL to memory; one to the scratchpad performs among the stores of a beat. -/
def execStrelPerform (s : State) : Result :=
  match s.strelDue with
  | none => .next s
  | some p => .next (s.performStore p)

/-! ## Fences, failures (R211, R212) -/

def Core.fenceWait (c : Core) : Option (Nat × BitVec 6 × Nat × Nat) :=
  c.waits.findSome? (fun w => match w with | .fence sc d t k => some (sc, d, t, k) | _ => none)
def State.fenceReady (s : State) (c : Core) : Bool :=
  match c.fenceWait with
  | some (sc, _, t, _) => s.fenceFree c sc t
  | none => false

/-- FENCE_COMPLETE (R211, R337). -/
def execFenceComplete (s : State) : Result :=
  match s.core.fenceWait with
  | none => .next s
  | some (sc, d, t, k) =>
    if s.fenceReady s.core then .next { s with core := s.core.fenceDone s.beat sc d t k false } else .next s

/-- The stores for which a FENCE issued at `t` still waits: number, issue beat, address (R208, R211). -/
def State.fenceOwes (s : State) (c : Core) (sc t : Nat) : List (Nat × Nat × Nat) :=
  (c.outst.filter (fun x => decide (x.issue < t) && x.owes sc)).map (fun x => (x.id, x.issue, x.addr)) ++
  (c.reqs.filter (fun r => decide (r.issue < t) && (r.owesHome || (r.fixed.isSome && !r.held &&
    (match r.kind with | .load => false | .acquire _ => false | _ => true))))).map (fun r => (r.id, r.issue, r.addr)) ++
  ((s.ownPerfs c).filter (fun p => decide (p.issue < t) && p.req.isSome && p.locs.any Loc.isSpad)).map (fun p =>
    (p.id, p.issue, match p.req with | some r => r.addr | none => 0))

/-- FENCE_TIMEOUT (R211): the stores still outstanding count as failed, and their later outcomes are discarded. A store that has not
performed by then does not perform; an atomic's result is not delivered (DEDUCED, log 32). -/
def execFenceTimeout (s : State) : Result :=
  match s.core.fenceWait with
  | none => .next s
  | some (sc, d, t, k) =>
    if s.beat < t + timeoutBeats then .next s
    else
      let c := s.core
      let lost := s.fenceOwes c sc t
      let ids := lost.map Prod.fst
      let s := (ids.eraseDups.filterMap (fun i => lost.find? (fun x => x.1 == i))).foldl (fun (s : State) x =>
        s.failStore c.pclus c.pcore x.2.1 x.1 fswTo 0xFFFF x.2.2) { s with core := { c with fswDue := [] } }
      let k0 : Core := { s.core.takeFsw with fswDue := c.fswDue, reqs := s.core.reqs.filter (fun r => !(r.kind == .accum && ids.contains r.id)) }
      .next { s with
        core := k0.fenceDone s.beat sc d t k true
        perfs := s.perfs.filter (fun p => !(p.clus == c.pclus && p.core == c.pcore && ids.contains p.id))
        pk := { s.pk with remotes := s.pk.remotes.filter (fun r => !(r.clus == c.pclus && r.core == c.pcore && r.chan.isNone &&
          ids.contains r.id)) } }

/-- STORE_FAILURE_REPORT (R212): the outcome of a store becomes known. -/
def execStoreFailureReport (id status port : Nat) (s : State) : Result :=
  let c := inputCore s id
  match c.outst.find? (fun x => x.id == id / 4096) with
  | none => .next s
  | some x =>
    if status == 0 then .next (s.mapCore c.pclus c.pcore (fun c => { c with outst := c.outst.filter (fun y => y.id != x.id) }))
    else .next (s.failStore c.pclus c.pcore x.issue x.id (fswOf status) port x.addr)

/-! ## Replies (R194, R217, R239) -/

/-- The value of a reply word in the register (R80, R276). -/
def replyVal (r : Req) (k : Nat) : Word64 :=
  let nb := r.o.t.width / 8
  let x := (words nb 128 r.reply).getD k 0
  if r.o.t.isInt then intRes r.o.t (r.o.t.intOf x) else BitVec.ofNat 64 x

/-- Lines of the core's L1 that a load misses are filled (R239). -/
def State.l1Miss (s : State) (c : Core) (r : Req) : State :=
  if !l1Ok r || (cacheBanks (s.banksOf c.pclus c.pcore)).isEmpty then s
  else
    (sectorsOf (r.elems.flatMap (fun el => el.locs))).foldl (fun (s : State) k =>
      if (match (s.coreAt c.pclus c.pcore).l1Find (k * 128) with | some _ => true | none => false) then s
      else
        let d := (List.range 128).foldl (fun d i => setByteOf d i (s.seeByte (dieOf c.pclus) (k * 128 + i) c.acq false)) 0#1024
        let bad := match s.sectorAt (dieOf c.pclus) (k * 128) with | some x => x.poison | none => false
        s.mapCore c.pclus c.pcore (fun c => c.l1Fill (s.banksOf c.pclus c.pcore) k d bad)) s

/-- Sectors that a load must fill from their homes (R270). -/
def State.fillFor (s : State) (c : Core) (r : Req) (uncorrectable : Bool) : State :=
  (sectorsOf (r.elems.flatMap (fun el => el.places.map Prod.snd))).foldl (fun (s : State) k =>
    let need := (List.range 128).any (fun i => ((r.elems.flatMap (fun el => el.places.map Prod.snd)).contains (.pa (k * 128 + i))) &&
      (s.l2Serves (dieOf c.pclus) (k * 128 + i) c.acq (noCleanReq r)).isNone && !(l1Ok r && (c.l1Find (k * 128)).isSome))
    if need then s.fillSector (dieOf c.pclus) k uncorrectable else s) s

/-- A request delivered: its flight, and the request gone. -/
def State.reply (s : State) (c : Core) (r : Req) (f : Flight) : State :=
  s.mapCore c.pclus c.pcore (fun c => { c with reqs := c.reqs.filter (fun q => q != r), flights := c.flights ++ [f] })

/-- The register writes of a request: an accumulation has none (R181). -/
def Req.writes (r : Req) (f : Nat → Word64) : List Wr := if r.kind == .accum then [] else [memWr r f]
def failFlight (s : State) (r : Req) (cause : Nat) (aux : Word64) : Flight :=
  ⟨s.beat, r.issue, r.o.slot, latOf r.opc r.o, r.writes (fun _ => 0#64), 0#8, some (cause, aux), none⟩
/-- The address that a failure at a target or at a home reports (R216): that of the failed part where it is known. -/
def Req.failAddr (r : Req) : Nat :=
  if r.answer != 1 && r.reply.length == 8 then leNat r.reply else if r.elems.isEmpty then r.addr else lowestAddr r.elems

/-- The last byte that a DLD waits for (R169): such a reply names no request, but the DLD. -/
def State.dldReply (s : State) (c : Core) (x : Nat) (uncorrectable : Bool) : State :=
  match c.dld with
  | some d => if x == dldId && d.whole then s.dldArrives c d uncorrectable else s
  | none => s

/-- Must an earlier atomic, accumulation or read-and-clear of the core to the same bytes take effect before a load reads them (R194)? What
one that is held will write, the load sees (R220). -/
def homeOwed (c : Core) (r : Req) : Bool :=
  c.reqs.any (fun q => q.owesHome && !q.held && decide (q.issue < r.issue) && q.local_.any (fun el => el.locs.any (fun l => (r.elems.flatMap (fun el => el.places)).any (fun x => x.2 == l))))

/-- VARIABLE_LOAD_REPLY (R169, R194, R217). -/
def execVariableLoadReply (id : Nat) (uncorrectable : Bool) (s : State) : Result :=
  let c := inputCore s id
  match c.reqs.find? (fun r => r.id == id / 4096 && r.fixed.isNone && !r.held) with
  | none => .next (s.dldReply c (id / 4096) uncorrectable)
  | some r =>
    let cls := latOf r.opc r.o
    let a0 := r.failAddr
    let flat := r.elems.isEmpty && !r.idle
    let back := fun (acq : Option Nat) => s.reply c r ⟨s.beat, r.issue, r.o.slot, cls, [memWr r (replyVal r)], r.reply.getLastD 0#8, none, acq⟩
    if r.answer == 9 then .next (s.reply c r (failFlight s r 0x09 (auxAddr a0 0)))
    else if r.answer > 16 then .next (s.reply c r (failFlight s r 0x08 (auxAddr a0 (r.answer - 16))))
    else match r.kind with
    | .store => .next s
    | .accum => .next s
    | k =>
      if r.isRmw then
        (if r.owesHome then .next s
        else if flat then .next (back none)
        else
          let got := r.got ++ (r.local_.flatMap (fun el => el.locs)).zip (r.homed.getD [])
          let x := rmwOf r r.elems (fun l => ((got.find? (fun y => y.1 == l)).map Prod.snd).getD 0#8)
          .next (s.reply c r ⟨s.beat, r.issue, r.o.slot, cls, [memWr r (pick x.2.1)], if k == .clear then 0#8 else x.2.2, none, none⟩))
      else if leaves r && r.answer == 0 then .next s
      else if flat then .next (back (match k with | .acquire sc => some sc | _ => none))
      else if homeOwed c r then .next s
      else
        let s := (s.fillFor c r uncorrectable).l1Miss c r
        let c := s.coreAt c.pclus c.pcore
        .next (s.reply c r (loadFlight r (s.refresh c r) (s.reqSee c r (s.ownEarlier c r.issue)) s.beat cls))

/-- May a load or an atomic still fail by its time limit (R217)? One whose word its home has changed may not: its result comes. -/
def Req.mayTimeOut (r : Req) : Bool :=
  r.fixed.isNone && !r.held && r.homed.isNone && (match r.kind with | .accum => false | .store => false | _ => !r.idle)
/-- LOAD_TIMEOUT (R217): detail 13, with the address of the access or of its lowest lane (R216). -/
def execLoadTimeout (id : Nat) (s : State) : Result :=
  let c := inputCore s id
  match c.reqs.find? (fun r => r.id == id / 4096 && r.mayTimeOut) with
  | none => .next s
  | some r =>
    if s.beat < r.issue + timeoutBeats then .next s
    else .next (s.reply c r (failFlight s r 0x08 (auxAddr ((r.elems.head?.map (fun el => el.addr)).getD r.addr) 13)))

/-! ## Homes (R183, R203, R271, R281) -/

/-- Must an earlier access of the core, or of the rank to the cell, take effect first (R183, R194)? -/
def State.homeBlocked (s : State) (c : Core) (r : Req) : Bool :=
  s.perfs.any (fun p => p.clus == c.pclus && p.core == c.pcore && decide (p.issue < r.issue) &&
    (p.ws.any (fun w => r.locs.contains w.loc) || (match p.req with | some q => q.locs.any r.locs.contains | none => false))) ||
  s.allCores.any (fun d => d.job == c.job && d.rank == c.rank && d.reqs.any (fun q =>
    q.owesHome && !q.held && (decide (q.issue < r.issue) || (q.issue == r.issue && decide (d.coreid < c.coreid))) && q.locs.any r.locs.contains))

/-- HOME_ATOMIC (R203, R271): an atomic, an accumulation or a read-and-clear takes place at its home as one step; elements in another module
have theirs there (R275). -/
def execHomeAtomic (id : Nat) (uncorrectable : Bool) (s : State) : Result :=
  let c := inputCore s id
  match c.reqs.find? (fun r => r.id == id / 4096 && r.fixed.isNone && !r.held && r.isRmw && r.homed.isNone && decide (r.answer ≤ 1) && !r.local_.isEmpty) with
  | none => .next s
  | some r =>
    if s.homeBlocked c r then .next s
    else
      let die := dieOf c.pclus
      let els := r.local_
      let locs := els.flatMap (fun el => el.locs)
      let secs := sectorsOf locs
      let sick := fun (l : Loc) => match l with
        | .pa a => r.psn.contains (a / 4096) || uncorrectable || (match s.sectorAt die a with | some x => x.poison | none => false)
        | _ => false
      let bad := poisonAt els sick
      let s := secs.foldl (fun (s : State) k => s.writeBack die k) s
      let s := if uncorrectable then secs.foldl (fun (s : State) k => s.poisonPage (k * 128)) s else s
      let set := fun (s : State) (f : Req → Req) => s.mapCore c.pclus c.pcore (fun c => { c with reqs := c.reqs.map (fun q => if q == r then f q else q) })
      match bad with
      | some a =>
        .next (if r.kind == .accum then s.reply c r (failFlight s r 0x09 (auxAddr a 0))
          else set s (fun q => { q with answer := 9, reply := leBytes 8 a }))
      | none =>
        let s := s.captureLoads c r.issue locs
        let old := locs.map (fun l => match l with | .pa a => s.homeByte a | _ => 0#8)
        let x := rmwOf r els (fun l => match l with | .pa a => s.homeByte a | _ => 0#8)
        let cut := r.kind == .atomic && (c.fctlNow s.beat).trapping x.2.2
        let s := if cut then s else (s.homeWrites x.1).mapCore c.pclus c.pcore (fun c => x.1.foldl (fun (c : Core) w => match w.loc with
          | .pa a => c.l1Store a w.mask w.val | _ => c) c)
        let s := secs.foldl (fun (s : State) k => s.dropSector die k) s
        .next ((if r.kind == .accum && r.allIn then s.mapCore c.pclus c.pcore (fun c => { c with reqs := c.reqs.filter (fun q => q.id != r.id || q.kind != .accum) })
          else set s (fun q => { q with homed := some old })).settleStores)

/-! ## L2, walks, Turnstile -/

def sectorExists (sector : Nat) : Bool := paHbm (sector * 128) || paCold (sector * 128)

/-- L2_FILL (R270, R280). -/
def execL2Fill (die sector : Nat) (uncorrectable : Bool) (s : State) : Result :=
  if die ≥ 4 ∨ sectorExists sector = false then .fault .noSuchInput else .next (s.fillSector die sector uncorrectable)

/-- L2_WRITEBACK (R269, R280): an uncorrectable error in a sector with dirty bytes poisons it first. -/
def execL2Writeback (die sector : Nat) (uncorrectable : Bool) (s : State) : Result :=
  if die ≥ 4 ∨ sectorExists sector = false then .fault .noSuchInput
  else
    let s := if uncorrectable then { s with l2 := s.l2.map (fun x => if x.die == die && x.sector == sector && x.dirty != 0#128 then { x with poison := true } else x) } else s
    .next (s.writeBack die sector).settleStores

/-- What a walk names beside its core: the address, in 64 bits, and above it, where it is not 0, one more than the page of a table that was
read with an uncorrectable error. -/
def walkAddr (x : Nat) : Nat := x / 4096 % 2 ^ 64
def walkTable (x : Nat) : Nat := x / 4096 / 2 ^ 64

/-- TRANSLATION_WALK (R278): the walk of a miss ends with a held translation, or with a fault for the waiting bundle. Where a table was
read with an uncorrectable error, the bit of its page is set, and the entry reads as poisoned (R277, R279). -/
def execTranslationWalk (addr : Nat) (s : State) : Result :=
  let c := inputCore s addr
  let a := walkAddr addr
  let table := walkTable addr
  let s := if table == 0 then s else s.poisonPage ((table - 1) * 4096)
  match s.translate c.job c.rank a with
  | .ok t => .next (s.mapCore c.pclus c.pcore (fun c => { c.hold t with walkFault := if (c.walkFault.map Prod.fst) == some (a / 4096) then none else c.walkFault }))
  | .error f => .next (s.mapCore c.pclus c.pcore (fun c => { c with walkFault := some (a / 4096, f) }))

/-- The transfer slot of a triggered send: its number among those of its collective (R282; DESIGN CHOICE, log 25). -/
def Coll.slotOf (k : Coll) (i : Nat) : Nat := ((k.sends.take i).filter (fun x => x.trig)).length

/-- TURNSTILE_FIRE (R283): four beats after the last die's count is full the tile fires, in every die, and its transfer may start. -/
def execTurnstileFire (k : Nat) (s : State) : Result :=
  match s.pk.tiles[k]? with
  | none => .next s
  | some t =>
    match t.full with
    | some b =>
      if t.dies.any (fun d => d.fired) || decide (s.beat < b + 4) then .next s
      else .next { s with pk := { s.pk with
        tiles := s.pk.tiles.set k { t with dies := t.dies.map (fun d => { d with fired := d.armed }) }
        colls := s.pk.colls.map (fun x => if x.job == t.job && x.rank == t.rank && x.cid == t.cid then
          { x with sends := x.sends.mapIdx (fun i y => if y.trig && x.slotOf i == t.xfer then { y with fire := some s.beat } else y) } else x) } }
    | none => .next s

/-! ## Tombola reload, waits, trap entry -/

/-- The places of a Tombola table, or the trap of its load: translation, alignment or permission (R76 to R78, R277). -/
def State.tableLocs (s : State) (c : Core) (rngt : Nat) : Except (Nat × Word64) (List Loc) :=
  let c := s.pagesFor c [rngt]
  let readable := match s.regionOf c rngt with
    | .ok g => g.r && g.open_
    | .error _ => (match c.held? rngt with | some t => t.r | none => true)
  if rngt % 4096 != 0 then .error (0x0E, auxAddr rngt 7)
  else match s.regionOf c rngt with
  | .error (.trans a f) => .error (0x07, auxTrans a f)
  | .error (.miss a) => .error (0x07, (match s.translate c.job c.rank a with | .error f => auxTrans a f | .ok _ => auxTrans a ⟨false, 7, 2⟩))
  | .error (.fault k d a) => .error (k, auxAddr a d)
  | r =>
    if (flatTarget s c rngt).1 > bits c.rankid.toNat 16 16 then .error (0x07, auxTrans rngt (c.rankFault rngt))
    else if !readable then .error (0x08, auxAddr rngt (match r with | .ok g => if g.open_ then 6 else 2 | .error _ => 6))
    else .ok ((List.range 4096).map (fun i => s.locOf c (rngt + i)))

/-- Bytes of a table that other modules have yet to send (R275, R276); none once a read of it has failed. -/
def State.tableAway (s : State) (c : Core) (rngt : Nat) : List Loc :=
  match s.tableLocs c rngt with
  | .ok ls => if c.tombBad.isEmpty then ls.filter (fun l => l.away && !c.tombGot.any (fun x => x.1 == l)) else []
  | .error _ => []

/-- A Tombola table as it stands in memory for a core: its rows, or the trap of the load (R76, R78): a refusal of its target, or the lowest
poisoned byte. -/
def State.readTable (s : State) (c : Core) (rngt : Nat) : Except (Nat × Word64) (Vector (BitVec 1024) 32) :=
  match s.tableLocs c rngt with
  | .error e => .error e
  | .ok ls =>
    match c.tombBad.find? (fun x => x.1 != 2) with
    | some x => .error (0x08, auxAddr rngt (answerOf x.1 - 16))
    | none =>
      let psn := match (s.pagesFor c [rngt]).held? rngt with | some t => t.bad | none => []
      let named := c.tombBad.flatMap Prod.snd
      let xs := ls.map (fun l => let x := s.ownByte c 0 psn c.tombGot [] l; (x.1, x.2 || named.contains l))
      match xs.findIdx? Prod.snd with
      | some i => .error (0x09, auxAddr (rngt + i) 0)
      | none =>
        if !c.tombBad.isEmpty then .error (0x09, auxAddr rngt 0)
        else .ok (vecOf 32 (fun a => BitVec.ofNat 1024 (leNat (((xs.drop (128 * a)).take 128).map Prod.fst))))

/-- Is a read of the core's table under way at another module? -/
def State.askingTable (s : State) (c : Core) : Bool :=
  s.pk.remotes.any (fun r => r.id == tombId && r.clus == c.pclus && r.core == c.pcore)
/-- The stepping core asks for the bytes of its table that lie elsewhere, once. -/
def State.askTable (s : State) (rngt : Nat) (ls : List Loc) : State :=
  if s.askingTable s.core then s else s.askBytes s.core tombId rngt none ls

/-- TOMBOLA_RELOAD_DONE (R78, R227): the table is loaded, or the load traps against the SETS bundle; poison is a fault of kind delivery. Its
bytes are read together as the load ends, 32 beats after the SETS, or when the last of them has come from another module: the beats of
the single rows are not stated (DEDUCED, log 33). -/
def execTombolaReloadDone (s : State) : Result :=
  match s.core.tombLoad with
  | none => .next s
  | some b =>
    let rngt := s.core.a.rngt.toNat
    match s.tableAway s.core rngt with
    | l :: ls => .next (s.askTable rngt (l :: ls))
    | [] =>
      if s.beat < b then .next s
      else
        let c := { s.core with tombLoad := none, tombGot := [], tombBad := [] }
        match s.readTable s.core rngt with
        | .ok t => .next { s with core := { c with tomb := t } }
        | .error (cause, aux) => .next { s with core := c.raise cause (if cause == 0x09 then 1 else 0) s.core.tombPc aux s.beat }

/-- Is a wait of the core over (R101, R166, R184, R188, R230)? -/
def State.waitOver (s : State) (c : Core) : Wait → Bool
  | .beat b => decide (b ≤ s.beat)
  | .adj => decide (c.readyAt ≤ s.beat) && !s.adjBusy c s.beat
  | .tapefl => !s.tapeOut c && !s.recordsOpen c && !s.flushLeft c
  | .rte b => decide (b ≤ s.beat) && c.flights.all (fun f => decide (f.issue ≥ b) || decide (f.due ≤ s.beat)) &&
      c.steps.all (fun x => decide (x.issue ≥ b)) && c.reqs.all (fun r => decide (r.issue ≥ b) || r.held || r.kind == .accum)
  | .phase => c.timetabled && decide (c.readyAt ≤ s.beat)
  | .fence _ _ _ _ => false
  | .bank _ _ => false

/-- WAIT_END (R101, R173, R184, R188, R230): the first wait that is over ends. A phase commit later than scheduled is a
timing fault in timetabled code (R264). -/
def execWaitEnd (s : State) : Result :=
  let c := s.core
  match c.waits.find? (s.waitOver c) with
  | none => .next s
  | some w =>
    let c : Core := { c with waits := c.waits.filter (fun x => x != w) }
    match w with
    | .rte _ => .next { s with core := { c.leave with readyAt := max c.readyAt s.beat } }
    | .phase => .next { s with core := c.raise 0x06 0 c.pc (auxTiming 7 0 0) s.beat }
    | _ => .next { s with core := { c with readyAt := max c.readyAt s.beat } }

/-- R228 step 2: has everything of the core that trapped come to its end? A FENCE still owes its result. -/
def State.quiesced (s : State) (c : Core) : Bool :=
  c.flights.isEmpty && c.steps.isEmpty && c.reqs.all (fun r => r.held) && c.dld.isNone && c.fenceWait.isNone &&
  !s.perfs.any (fun p => p.clus == c.pclus && p.core == c.pcore)

/-- No store of the core is outstanding, at any scope, but for those that guarded mode holds (R100, R208, R271). -/
def Core.storesDone (c : Core) : Bool :=
  c.outst.all (fun x => c.held.any (fun p => p.id == x.id)) && c.reqs.all (fun r => r.held)

/-- The beat at which a trap found at `t` is entered has come (R228). -/
def State.entryDue (s : State) (c : Core) (r : TrapReq) : Bool :=
  s.quiesced c && decide (r.beat + 4 ≤ s.beat) && decide (c.lastDone < s.beat)

/-- Held stores that a checkpoint at trap entry releases (R228 step 4), three beats later, with their windows (R183). -/
def State.releaseHeld (s : State) (c : Core) : State :=
  { s with
    perfs := s.perfs ++ c.held.map (fun p => { p with due := s.beat + 3, own := some p.due })
    windows := s.windows ++ heldWindows s.beat c.held }

/-- R222, R228: what the entry of a trap does to the rest of the module: a checkpoint of kind after releases held stores. -/
def State.unwindTrap (s : State) (r : TrapReq) : State :=
  if s.core.gm && !s.core.hm && r.kind == 2 then
    (s.releaseHeld s.core).mapCores (fun x => if x.job == s.core.job && x.rank == s.core.rank then { x with phase := x.phase ||| 0x100000000#64 } else x)
  else s

/-- A rollback that changes RNGT reloads the private copy (R78, R222). An error on that reload is a double trap: TRAPC, TRAPPC and TRAPAUX
keep the trap that was being entered. -/
def State.retable (s : State) (c : Core) (old : Word64) : Core :=
  if c.a.rngt == old then c
  else
    let c := { c with tombPc := c.pc }
    match s.tableAway c c.a.rngt.toNat, s.readTable c c.a.rngt.toNat with
    | _ :: _, _ => { c with tombLoad := some (s.beat + 32) }
    | [], .ok _ => { c with tombLoad := some (s.beat + 32) }
    | [], .error (cause, aux) => { c with tombGot := [], tombBad := [] }.raise cause (if cause == 0x09 then 1 else 0) c.pc aux s.beat

/-- Bytes of other modules that the reload of a rollback needs before the trap goes on (R222, R275). -/
def State.rollbackAway (s : State) (c : Core) (r : TrapReq) : List Loc :=
  let d := c.unwind r
  if d.a.rngt == c.a.rngt then [] else s.tableAway { d with tombGot := c.tombGot, tombBad := c.tombBad } d.a.rngt.toNat

/-- TRAP_ENTRY (R228): the core enters its handler once everything in flight has come to its end, and the table that a rollback reloads is at
hand. -/
def execTrapEntry (s : State) : Result :=
  match s.core.trap with
  | none => .next s
  | some r =>
    if s.entryDue s.core r && s.core.handlerRoute r.cause then
      match s.rollbackAway s.core r with
      | l :: ls => .next (s.askTable (s.core.unwind r).a.rngt.toNat (l :: ls))
      | [] =>
        let old := s.core.a.rngt
        let s := s.unwindTrap r
        .next { s with core := s.retable (s.core.enter r s.beat) old }
    else .next s

end Sys2Proof.Machine
end

