-- ==== Sys2Proof/Machine/Transc.lean ====
section
/-! DEFINITION. The pre-rounding values of 2^a, log2 a and tanh a (R89, R126) by integer fixed-point sums with 600
fraction bits (notes/assumptions/5.md). -/
namespace Sys2Proof.Machine

/-- Fraction bits of the sums. -/
def fixP : Nat := 600

/-- Sum of y^n / n! from a term on, all scaled by 2^fixP. -/
def expTerms (y : Nat) : Nat → Nat → Nat → Nat
  | 0, _, _ => 0
  | fuel + 1, n, term => term + expTerms y fuel (n + 1) (term * y / 2 ^ fixP / n)
/-- exp of a fixed-point number below 1. -/
def expFix (y : Nat) : Nat := expTerms y 160 1 (2 ^ fixP)

/-- Sum of z^(2i+1) / (2i+1), scaled. -/
def atanhTerms (z2 : Nat) : Nat → Nat → Nat → Nat
  | 0, _, _ => 0
  | fuel + 1, i, pow => pow / (2 * i + 1) + atanhTerms z2 fuel (i + 1) (pow * z2 / 2 ^ fixP)
/-- 2 atanh(num / den), scaled. -/
def atanh2 (num den : Nat) : Nat :=
  let z := num * 2 ^ fixP / den
  2 * atanhTerms (z * z / 2 ^ fixP) 200 0 z
/-- ln 2, scaled. -/
def ln2Fix : Nat := atanh2 1 3

/-- Square a scaled number `n` times. -/
def squares : Nat → Nat → Nat
  | 0, x => x
  | n + 1, x => squares n (x * x / 2 ^ fixP)

/-- 2^a for a finite a (R126). -/
def exp2Dy (a : Dy) : Dy :=
  if a.m == 0 then ⟨false, 1, 0⟩
  else if a.log2 ≥ 11 then (if a.neg then ⟨false, 1, -1500⟩ else ⟨false, 1, 1500⟩)
  else
    let k := (-a.e).toNat
    let x : Int := a.intAt (min a.e 0)
    let n := x / ((2 ^ k : Nat) : Int)
    let f := (x % ((2 ^ k : Nat) : Int)).toNat
    if f == 0 then ⟨false, 1, n⟩
    else preRound false (expFix (f * ln2Fix / 2 ^ k)) (n - fixP) true

/-- log2 a for a finite positive a (R126). -/
def log2Dy (a : Dy) : Dy :=
  let L := Nat.log2 a.m
  let k : Int := a.e + L
  if a.m == 2 ^ L then ⟨decide (k < 0), k.natAbs, 0⟩
  else
    let lnm := atanh2 (a.m - 2 ^ L) (a.m + 2 ^ L)
    let x : Int := k * ((2 ^ fixP : Nat) : Int) + ((lnm * 2 ^ fixP / ln2Fix : Nat) : Int)
    preRound (decide (x < 0)) x.natAbs (-(fixP : Int)) true

/-- tanh a for a finite nonzero a (R126). -/
def tanhDy (a : Dy) : Dy :=
  if a.m == 0 then ⟨a.neg, 0, 0⟩
  else if a.log2 < -33 then preRound a.neg (a.m * 2 ^ 200 - 1) (a.e - 200) true
  else if a.log2 ≥ 7 then preRound a.neg (2 ^ 200 - 1) (-200) true
  else
    let y : Nat := if a.e ≥ 0 then a.m * 2 ^ a.e.toNat * 2 ^ (fixP - 9) else a.m * 2 ^ (fixP - 9) / 2 ^ (-a.e).toNat
    let E := squares 10 (expFix y)
    preRound a.neg ((E - 2 ^ fixP) * 2 ^ fixP / (E + 2 ^ fixP)) (-(fixP : Int)) true

end Sys2Proof.Machine
end

