-- ==== Sys2Proof/Machine/Vector.lean ====
section
/-! DEFINITION. Vector operations but memory: elementwise arithmetic, logic, compare, moves, conversions, transcendental
operations, reductions, scan, sort, predicates and random lanes (R109 to R133). -/
namespace Sys2Proof.Machine

/-- Taint of a vector result (R206). -/
def vTaint (e : Env) (opc : Nat) (o : TOp) (dst : Bool) : Taint :=
  widest [taintOf e.a o.sa, if o.lk == 0#4 && !sbImm opc o then taintOf e.a o.sb else 0, if dst then taintOf e.a o.dst else 0]

/-- A vector result given lane by lane, with the flags of each lane (R111, R112). -/
def vecOut (e : Env) (opc : Nat) (o : TOp) (f : Nat → Word32 × Flags8) (dst : Bool := false) : Out :=
  let r : List (Word32 × Flags8) := (List.range 32).map f
  let at_ := fun k => r.getD k (0#32, 0#8)
  result e opc o [wrV e.a o (regN o.dst) (fun k => (at_ k).1) (vTaint e opc o dst)]
    (laneFlags (laneMask e.a o) (fun k => (at_ k).2))

/-- A lane result without flags. -/
def vecBits (e : Env) (opc : Nat) (o : TOp) (f : Nat → Word32) (dst : Bool := false) : Out :=
  vecOut e opc o (fun k => (f k, 0#8)) dst

/-- A float lane rounded once into TY (R112). -/
def roundLane (e : Env) (o : TOp) (k : Nat) (x : XRes) : Word32 × Flags8 :=
  let r := o.t.round (e.rnd o k) x.v
  (BitVec.ofNat 32 r.pat, r.fl ||| x.fl)

/-- An integer lane, reduced or clamped (R115). -/
def intLane (o : TOp) (x : Int) : Word32 × Flags8 :=
  if o.md.getLsbD 0 then let r := satRes o.t x; (r.1.setWidth 32, r.2) else (laneRes o.t x, 0#8)

def ia (e : Env) (o : TOp) (k : Nat) : Int := o.t.intOf (vecA e.a o k).toNat
def ib (e : Env) (o : TOp) (k : Nat) : Int := o.t.intOf (vecB e.a o k).toNat
def fa (e : Env) (o : TOp) (k : Nat) : XRes := vfltOf e.a o.t o.grad (vecA e.a o k)
def fb (e : Env) (o : TOp) (k : Nat) : XRes := vfltB e.a o o.grad k
def fd (e : Env) (o : TOp) (k : Nat) : XRes := vfltOf e.a o.t o.grad (vecD e.a o k)

/-- The terms of a product in lane `k`; under .c32 the part of the complex product (R114). -/
def prodTerms (e : Env) (o : TOp) (k : Nat) : List XRes :=
  if o.t == .c32 then
    let r := k / 2 * 2
    if k % 2 == 0 then [mulR (fa e o r) (fb e o r), (mulR (fa e o (r + 1)) (fb e o (r + 1))).neg]
    else [mulR (fa e o r) (fb e o (r + 1)), mulR (fa e o (r + 1)) (fb e o r)]
  else [mulR (fa e o k) (fb e o k)]

def opVadd (o : TOp) (e : Env) : Out :=
  if o.t.isInt then vecOut e 0x40 o (fun k => intLane o (ia e o k + ib e o k))
  else vecOut e 0x40 o (fun k => roundLane e o k (xsumR [fa e o k, fb e o k]))
def opVsub (o : TOp) (e : Env) : Out :=
  if o.t.isInt then vecOut e 0x41 o (fun k => intLane o (ia e o k - ib e o k))
  else vecOut e 0x41 o (fun k => roundLane e o k (xsumR [fa e o k, (fb e o k).neg]))
def opVmul (o : TOp) (e : Env) : Out :=
  if o.t.isInt then vecOut e 0x42 o (fun k => intLane o (ia e o k * ib e o k))
  else vecOut e 0x42 o (fun k => roundLane e o k (xsumR (prodTerms e o k)))
def opVfma (o : TOp) (e : Env) : Out :=
  vecOut e 0x43 o (fun k => roundLane e o k (xsumR (prodTerms e o k ++ [fd e o k]))) true
def opVfms (o : TOp) (e : Env) : Out :=
  vecOut e 0x44 o (fun k => roundLane e o k (xsumR (fd e o k :: (prodTerms e o k).map XRes.neg))) true

/-- The pattern of b in lane `k` for operations that deliver an operand unchanged. -/
def patB (e : Env) (o : TOp) (k : Nat) : Nat :=
  if o.lk == 0#4 then pickBits o.t (vfltOf e.a o.t false (vecB e.a o k)) (vecB e.a o k).toNat else litBits o.t o
def vminmax (e : Env) (opc : Nat) (o : TOp) (mx : Bool) : Out :=
  if o.t.isInt then
    vecBits e opc o (fun k => laneRes o.t (if mx then max (ia e o k) (ib e o k) else min (ia e o k) (ib e o k)))
  else vecOut e opc o (fun k =>
    let a := vfltOf e.a o.t false (vecA e.a o k)
    let r := fminmax o.t mx a (vfltB e.a o false k) (pickBits o.t a (vecA e.a o k).toNat) (patB e o k)
    (BitVec.ofNat 32 r.1, r.2))
def opVmin (o : TOp) (e : Env) : Out := vminmax e 0x45 o false
def opVmax (o : TOp) (e : Env) : Out := vminmax e 0x46 o true

/-- Sign bit cleared or inverted on the bits of a float lane (R114). -/
def signLane (o : TOp) (x : Word32) (flip : Bool) : Word32 :=
  let w := o.t.width
  let y := x.toNat % 2 ^ w
  BitVec.ofNat 32 (y % 2 ^ (w - 1) + flag64 (flip && !y.testBit (w - 1)) (w - 1))
def opVabs (o : TOp) (e : Env) : Out :=
  if o.t.isInt then vecOut e 0x47 o (fun k => intLane o ((ia e o k).natAbs : Int))
  else vecBits e 0x47 o (fun k => signLane o (vecA e.a o k) false)
def opVneg (o : TOp) (e : Env) : Out :=
  if o.t.isInt then vecOut e 0x48 o (fun k => intLane o (-(ia e o k)))
  else vecBits e 0x48 o (fun k => signLane o (vecA e.a o k) true)

/-! ## Logic, shifts, counts (R116) -/

def opVand (o : TOp) (e : Env) : Out := vecBits e 0x49 o (fun k => vecA e.a o k &&& vecB e.a o k)
def opVor (o : TOp) (e : Env) : Out := vecBits e 0x4A o (fun k => vecA e.a o k ||| vecB e.a o k)
def opVxor (o : TOp) (e : Env) : Out := vecBits e 0x4B o (fun k => vecA e.a o k ^^^ vecB e.a o k)
def opVandn (o : TOp) (e : Env) : Out := vecBits e 0x4C o (fun k => vecA e.a o k &&& ~~~(vecB e.a o k))
def opVnot (o : TOp) (e : Env) : Out := vecBits e 0x4D o (fun k => ~~~(vecA e.a o k))

/-- a[w-1:0] read unsigned, and the shift count. -/
def ua (e : Env) (o : TOp) (k : Nat) : Nat := (vecA e.a o k).toNat % 2 ^ o.t.width
def vsh (e : Env) (o : TOp) (k : Nat) : Nat := (vecB e.a o k).toNat % o.t.width
def opVshl (o : TOp) (e : Env) : Out := vecBits e 0x4E o (fun k => laneRes o.t ((ua e o k * 2 ^ vsh e o k : Nat) : Int))
def opVshr (o : TOp) (e : Env) : Out := vecBits e 0x4F o (fun k => laneRes o.t ((ua e o k / 2 ^ vsh e o k : Nat) : Int))
def opVsar (o : TOp) (e : Env) : Out :=
  vecBits e 0x50 o (fun k => laneRes o.t (signedOf o.t.width (ua e o k) / ((2 ^ vsh e o k : Nat) : Int)))
def opVrol (o : TOp) (e : Env) : Out :=
  vecBits e 0x51 o (fun k => laneRes o.t ((rotl o.t.width (ua e o k) (vsh e o k) : Nat) : Int))
def opVclz (o : TOp) (e : Env) : Out := vecBits e 0x5E o (fun k => BitVec.ofNat 32 (clz o.t.width (ua e o k)))
def opVpopc (o : TOp) (e : Env) : Out := vecBits e 0x5F o (fun k => BitVec.ofNat 32 (popc o.t.width (ua e o k)))

/-! ## Compare and select (R117, R118) -/

/-- A 32-bit predicate from a function of the lane. -/
def predOf (f : Nat → Bool) : Word32 :=
  BitVec.ofNat 32 ((List.range 32).foldl (fun x k => if f k then x + 2 ^ k else x) 0)

def opVcmp (o : TOp) (e : Env) : Out :=
  let cc := o.mdN % 8
  let m := activeMask e.a o
  let r := predOf (fun k => if o.t.isInt then vcmpInt cc (ia e o k) (ib e o k)
    else vcmpFlt cc (vfltOf e.a o.t false (vecA e.a o k)).v (vfltB e.a o false k).v)
  let fl := if o.t.isInt then 0#8 else laneFlags m (fun k =>
    let a := vfltOf e.a o.t false (vecA e.a o k)
    let b := vfltB e.a o false k
    a.fl ||| b.fl ||| sigFlag [a.v, b.v])
  result e 0x52 o [.p (predN o.dst) (if predZero o then 0xFFFFFFFF#32 else m) (if predZero o then r &&& m else r)] fl

def opVsel (o : TOp) (e : Env) : Out :=
  let m := activeMask e.a o
  result e 0x53 o [.v (regN o.dst) 0xFFFFFFFF#32 (vecOf 32 (fun k => if m.getLsbD k then vecA e.a o k else vecB e.a o k))
    (vTaint e 0x53 o false)] 0#8

/-! ## Moves, broadcasts, permutes (R119 to R121) -/

def opVmov (o : TOp) (e : Env) : Out := vecBits e 0x54 o (fun k => if o.lk == 0#4 then vecA e.a o k else vecB e.a o k)
def opVbcast (o : TOp) (e : Env) : Out := vecBits e 0x55 o (fun _ => (srcA e.a o).setWidth 32)
def opVbcastLane (o : TOp) (e : Env) : Out :=
  vecBits e 0x55 o (fun _ => vecA e.a o ((srcB e.a o).toNat % 32))
def opVbcastIota (o : TOp) (e : Env) : Out :=
  vecBits e 0x55 o (fun k => (srcA e.a o).setWidth 32 + BitVec.ofNat 32 k)
def opVperm (o : TOp) (e : Env) : Out := vecBits e 0x65 o (fun k => vecA e.a o ((vecB e.a o k).toNat % 32))
def opVrot (o : TOp) (e : Env) : Out :=
  let n := (srcB e.a o).toNat % 32
  vecBits e 0x66 o (fun k => vecA e.a o ((k + 32 - n) % 32))
def opVextr (o : TOp) (e : Env) : Out :=
  let x := vecA e.a o ((srcB e.a o).toNat % 32)
  scalarOut e 0x67 o (intRes o.t (o.t.intOf x.toNat)) 0#8 (vTaint e 0x67 o false)
def opVins (o : TOp) (e : Env) : Out :=
  let n := (srcB e.a o).toNat % 32
  result e 0x68 o [.v (regN o.dst) 0xFFFFFFFF#32
    (vecOf 32 (fun k => if k == n then (srcA e.a o).setWidth 32 else vecD e.a o k)) (vTaint e 0x68 o true)] 0#8

/-! ## Conversions and rounding (R122 to R125) -/

def opVcvt (o : TOp) (e : Env) : Out :=
  vecOut e 0x56 o (fun k =>
    let x := (srcTy o).decodeDaz (dazOn e.a o.grad) (vecA e.a o k).toNat
    let r := o.t.round (e.rnd o k) x.v
    (if o.t.isInt then laneRes o.t (o.t.intOf r.pat) else BitVec.ofNat 32 r.pat, r.fl ||| x.fl))

/-- The F32 pattern of a value that F32 holds exactly, or of a NaN. -/
def asF32 (x : XVal) : Word32 := BitVec.ofNat 32 (Bin.f32.round Rnd.rneGrad x).pat
/-- R123: a value on the grid of TY, as F32. The result is a whole number of the type, so it never underflows: VRND of a nonzero value below
2^-126 raises NX and no UF, which R70 and R123 leave open (DESIGN CHOICE, log 33). -/
def gridLane (t : Ty) (r : Rnd) (x : XVal) : Word32 × Flags8 :=
  match t with
  | .i32 =>
    match x with
    | .fin d =>
      let k := (-d.e).toNat
      let q := d.m * 2 ^ d.e.toNat / 2 ^ k
      let rem := d.m * 2 ^ d.e.toNat % 2 ^ k
      let a := if roundsUp r q rem k then q + 1 else q
      (asF32 (.fin ⟨d.neg, a, 0⟩), flagIf (rem != 0) fNX)
    | .inf n => (asF32 (.inf n), 0#8)
    | .nan s => (asF32 (.nan false), flagIf s fIV)
  | t =>
    let y := t.round r x
    (asF32 (t.decode y.pat), y.fl ||| sigFlag [x])
def opVrnd (o : TOp) (e : Env) : Out :=
  vecOut e 0x70 o (fun k =>
    let x := Ty.decodeDaz .f32 (dazOn e.a o.grad) (vecA e.a o k).toNat
    let r := gridLane o.t (e.rnd o k) x.v
    (r.1, r.2 ||| x.fl))

/-- The exponent of VSCL in lane `k` (R124); beyond 2,000 no larger exponent rounds otherwise. -/
def sclExp (e : Env) (o : TOp) (k : Nat) : Int := clampInt (vecB e.a o k).toInt (-2000) 2000
def opVscl (o : TOp) (e : Env) : Out :=
  vecOut e 0x71 o (fun k =>
    let x := fa e o k
    roundLane e o k (match x.v with | .fin d => ⟨.fin (d.scale (sclExp e o k)), x.fl⟩ | _ => x))
def opVsat (o : TOp) (e : Env) : Out :=
  vecOut e 0x6F o (fun k =>
    let x : Int := if o.md.getLsbD 0 then ((vecA e.a o k).toNat : Int) else (vecA e.a o k).toInt
    let r := satRes o.t x
    (r.1.setWidth 32, r.2))
def opVmulh (o : TOp) (e : Env) : Out :=
  vecBits e 0x57 o (fun k => laneRes o.t ((ia e o k * ib e o k) / ((2 ^ o.t.width : Nat) : Int)))

/-! ## Transcendental operations (R126) -/

/-- A lane function of one operand. -/
def fnOut (e : Env) (opc : Nat) (o : TOp) (f : XVal → XRes) : Out :=
  vecOut e opc o (fun k => let x := fa e o k; let r := f x.v; roundLane e o k ⟨r.v, r.fl ||| x.fl⟩)

def xrcp (a : XVal) : XRes := xdiv (.fin ⟨false, 1, 0⟩) a
def xrsqrt : XVal → XRes
  | .nan s => ⟨.nan false, flagIf s fIV⟩
  | .inf n => if n then ⟨.nan false, fIV⟩ else ⟨.fin ⟨false, 0, 0⟩, 0#8⟩
  | .fin d => if d.m == 0 then ⟨.inf d.neg, fDZ⟩ else if d.neg then ⟨.nan false, fIV⟩ else ⟨.fin (rsqrtDy d), 0#8⟩
def xexp2 : XVal → XRes
  | .nan s => ⟨.nan false, flagIf s fIV⟩
  | .inf n => if n then ⟨.fin ⟨false, 0, 0⟩, 0#8⟩ else ⟨.inf false, 0#8⟩
  | .fin d => ⟨.fin (exp2Dy d), 0#8⟩
def xlog2 : XVal → XRes
  | .nan s => ⟨.nan false, flagIf s fIV⟩
  | .inf n => if n then ⟨.nan false, fIV⟩ else ⟨.inf false, 0#8⟩
  | .fin d => if d.m == 0 then ⟨.inf true, fDZ⟩ else if d.neg then ⟨.nan false, fIV⟩ else ⟨.fin (log2Dy d), 0#8⟩
def xtanh : XVal → XRes
  | .nan s => ⟨.nan false, flagIf s fIV⟩
  | .inf n => ⟨.fin ⟨n, 1, 0⟩, 0#8⟩
  | .fin d => ⟨.fin (tanhDy d), 0#8⟩

def opVrcp (o : TOp) (e : Env) : Out := fnOut e 0x58 o xrcp
def opVrsqrt (o : TOp) (e : Env) : Out := fnOut e 0x59 o xrsqrt
def opVsqrt (o : TOp) (e : Env) : Out := fnOut e 0x5A o xsqrt
def opVexp2 (o : TOp) (e : Env) : Out := fnOut e 0x5B o xexp2
def opVlog2 (o : TOp) (e : Env) : Out := fnOut e 0x5C o xlog2
def opVtanh (o : TOp) (e : Env) : Out := fnOut e 0x5D o xtanh

/-! ## Reductions, scan, sort (R127 to R129) -/

/-- A result written to every lane. -/
def allLanes (e : Env) (opc : Nat) (o : TOp) (f : Nat → Word32) (fl : Flags8) : Out :=
  result e opc o [.v (regN o.dst) 0xFFFFFFFF#32 (vecOf 32 f) (vTaint e opc o false)] fl

/-- One node of a float sum: exact sum, one rounding (R127). -/
def sumNode (e : Env) (o : TOp) (x y : XVal) : XVal × Flags8 :=
  let s := xsum [x, y]
  let r := o.t.round { e.rnd o 0 with lane := 0#32 } s.v
  (o.t.decode r.pat, r.fl ||| s.fl)

/-- One level of the tree, on neighbours. -/
def treeLevel (e : Env) (o : TOp) : List XVal → List XVal × Flags8
  | x :: y :: rest =>
    let n := sumNode e o x y
    let r := treeLevel e o rest
    (n.1 :: r.1, n.2 ||| r.2)
  | xs => (xs, 0#8)
def treeSum (e : Env) (o : TOp) : Nat → List XVal → List XVal × Flags8
  | 0, xs => (xs, 0#8)
  | n + 1, xs =>
    let l := treeLevel e o xs
    let r := treeSum e o n l.1
    (r.1, l.2 ||| r.2)

def takesPart (e : Env) (o : TOp) (k : Nat) : Bool := (activeMask e.a o).getLsbD k
/-- Float contributions of the lanes, and the flags of reading them. -/
def contrib (e : Env) (o : TOp) (grad : Bool) (ident : XVal) : List XVal :=
  (List.range 32).map (fun k => if takesPart e o k then (vfltOf e.a o.t grad (vecA e.a o k)).v else ident)
def contribFl (e : Env) (o : TOp) (grad : Bool) : Flags8 :=
  laneFlags (activeMask e.a o) (fun k => (vfltOf e.a o.t grad (vecA e.a o k)).fl)

def opVrsum (o : TOp) (e : Env) : Out :=
  if o.t.isInt then
    let x := ((List.range 32).map (fun k => if takesPart e o k then ia e o k else 0)).sum
    let r := intLane o x
    allLanes e 0x60 o (fun _ => r.1) r.2
  else
    let r := treeSum e o 5 (contrib e o o.grad (.fin ⟨true, 0, 0⟩))
    let p := o.t.round { e.rnd o 0 with mode := .rz } (r.1.headD .zero)
    allLanes e 0x60 o (fun _ => BitVec.ofNat 32 p.pat) (r.2 ||| contribFl e o o.grad)

/-- R127: maximum or minimum of the lanes that take part. -/
def extreme (e : Env) (opc : Nat) (o : TOp) (mx : Bool) : Out :=
  if o.t.isInt then
    let ident := if mx then o.t.lo else o.t.hi
    let x := (List.range 32).foldl (fun y k => if takesPart e o k then (if mx then max y (ia e o k) else min y (ia e o k)) else y) ident
    allLanes e opc o (fun _ => laneRes o.t x) 0#8
  else
    let ks := (List.range 32).filter (takesPart e o)
    let rd := fun k => vfltOf e.a o.t false (vecA e.a o k)
    let nums := ks.filter (fun k => !(rd k).v.isNan)
    let best := nums.foldl (fun (b : Option Nat) k => match b with
      | none => some k
      | some j => if (if mx then (rd j).v.ltZ (rd k).v else (rd k).v.ltZ (rd j).v) then some k else some j) none
    let pat := match best with
      | some k => pickBits o.t (rd k) (vecA e.a o k).toNat
      | none => if ks.isEmpty then (binOf o.t).withSign mx (binOf o.t).infPat else (binOf o.t).nanPat
    allLanes e opc o (fun _ => BitVec.ofNat 32 pat)
      (contribFl e o false ||| sigFlag (ks.map (fun k => (rd k).v)))
def opVrmax (o : TOp) (e : Env) : Out := extreme e 0x61 o true
def opVrmin (o : TOp) (e : Env) : Out := extreme e 0x62 o false

/-- R128: the lanes of a float scan after and before each step. -/
def fscan (e : Env) (o : TOp) (excl : Bool) : XVal → List XVal → List XVal × Flags8
  | _, [] => ([], 0#8)
  | acc, x :: xs =>
    let n := sumNode e o acc x
    let r := fscan e o excl n.1 xs
    ((if excl then acc else n.1) :: r.1, n.2 ||| r.2)
def iscan (o : TOp) (excl sat : Bool) : Int → List Int → List Int × Flags8
  | _, [] => ([], 0#8)
  | acc, x :: xs =>
    let y := if sat then clampInt (acc + x) o.t.lo o.t.hi else o.t.intOf (wrap o.t.width (acc + x))
    let r := iscan o excl sat y xs
    ((if excl then acc else y) :: r.1, flagIf (sat && y != acc + x) fSAT ||| r.2)
def opVscan (o : TOp) (e : Env) : Out :=
  let excl := o.md.getLsbD 0
  if o.t.isInt then
    let r := iscan o excl (o.md.getLsbD 1) 0 ((List.range 32).map (fun k => if takesPart e o k then ia e o k else 0))
    allLanes e 0x63 o (fun k => laneRes o.t (r.1.getD k 0)) r.2
  else
    let r := fscan e o excl (.fin ⟨true, 0, 0⟩) (contrib e o o.grad (.fin ⟨true, 0, 0⟩))
    allLanes e 0x63 o (fun k => BitVec.ofNat 32 (o.t.round { e.rnd o 0 with mode := .rz } (r.1.getD k .zero)).pat)
      (r.2 ||| contribFl e o o.grad)

/-- Insertion after every element that is not greater: a stable sort step. -/
def insertStable (lt : Nat → Nat → Bool) (x : Nat) : List Nat → List Nat
  | [] => [x]
  | y :: ys => if lt x y then x :: y :: ys else y :: insertStable lt x ys
def sortStable (lt : Nat → Nat → Bool) (xs : List Nat) : List Nat := xs.foldl (fun ys x => insertStable lt x ys) []

/-- The order of output positions of VSORT (R129). -/
def sortOrder (e : Env) (o : TOp) : List Nat :=
  let desc := o.md.getLsbD 0
  let act := (List.range 32).filter (takesPart e o)
  let off := (List.range 32).filter (fun k => !takesPart e o k)
  let key := fun k => o.t.decode (vecA e.a o k).toNat
  let isNan := fun k => !o.t.isInt && (key k).isNan
  let lt := fun x y => if o.t.isInt then (if desc then decide (ia e o y < ia e o x) else decide (ia e o x < ia e o y))
    else if desc then (key y).ltZ (key x) else (key x).ltZ (key y)
  sortStable lt (act.filter (fun k => !isNan k)) ++ act.filter isNan ++ off
def opVsort (o : TOp) (e : Env) : Out :=
  let ord := sortOrder e o
  let tn := vTaint e 0x64 o false
  result e 0x64 o
    [.v (regN o.dst) 0xFFFFFFFF#32 (vecOf 32 (fun i => vecA e.a o (ord.getD i 0))) tn,
     .v (regN o.dst + 1#6) 0xFFFFFFFF#32 (vecOf 32 (fun i => vecB e.a o (ord.getD i 0))) tn] 0#8

/-! ## Predicates (R130, R131) and random lanes (R132) -/

def opPpack (o : TOp) (e : Env) : Out :=
  result e 0x6A o [.v (regN o.dst) 0xFFFFFFFF#32
    (vecOf 32 (fun j => if j < 16 then e.a.rp (BitVec.ofNat 4 j) else 0#32)) 0] 0#8
def opPunpack (o : TOp) (e : Env) : Out :=
  let d := (predN o.dst).toNat
  result e 0x6B o ((List.range (16 - d)).map (fun i => .p (BitVec.ofNat 4 (d + i)) 0xFFFFFFFF#32 (vecA e.a o (d + i)))) 0#8
def opPlog (o : TOp) (e : Env) : Out :=
  let a := e.a.rp (predN o.sa)
  let b := e.a.rp (predN o.sb)
  let r := match o.mdN % 8 with | 0 => a &&& b | 1 => a ||| b | 2 => a ^^^ b | 3 => a &&& ~~~b | _ => ~~~a
  result e 0x6C o [.p (predN o.dst) 0xFFFFFFFF#32 r] 0#8
def opPcnt (o : TOp) (e : Env) : Out :=
  result e 0x6D o [.s (regN o.dst) (BitVec.ofNat 64 (popc 32 (e.a.rp (predN o.sa)).toNat)) true 0] 0#8
def opPfirst (o : TOp) (e : Env) : Out :=
  let x := (e.a.rp (predN o.sa)).toNat
  let i := if x == 0 then 32 else if o.md.getLsbD 0 then Nat.log2 x else trailing 32 x
  result e 0x6E o [.s (regN o.dst) (BitVec.ofNat 64 i) true 0] 0#8

/-- R77: the F32 pattern of lane[31:8] x 2^-24. -/
def unifLane (x : Word32) : Word32 := asF32 (.fin ⟨false, x.toNat / 256, -24⟩)
def opVrand (o : TOp) (e : Env) : Out :=
  result e 0x69 o [wrV e.a o (regN o.dst)
    (fun k => if o.md.getLsbD 0 then unifLane (laneAt e.lanes k) else laneAt e.lanes k) 0] 0#8

def execVadd (o : TOp) (s : State) : Result := .next (issueOne 0x40 o opVadd true s)
def execVsub (o : TOp) (s : State) : Result := .next (issueOne 0x41 o opVsub true s)
def execVmul (o : TOp) (s : State) : Result := .next (issueOne 0x42 o opVmul true s)
def execVfma (o : TOp) (s : State) : Result := .next (issueOne 0x43 o opVfma true s)
def execVfms (o : TOp) (s : State) : Result := .next (issueOne 0x44 o opVfms true s)
def execVmin (o : TOp) (s : State) : Result := .next (issueOne 0x45 o opVmin true s)
def execVmax (o : TOp) (s : State) : Result := .next (issueOne 0x46 o opVmax true s)
def execVabs (o : TOp) (s : State) : Result := .next (issueOne 0x47 o opVabs true s)
def execVneg (o : TOp) (s : State) : Result := .next (issueOne 0x48 o opVneg true s)
def execVand (o : TOp) (s : State) : Result := .next (issueOne 0x49 o opVand true s)
def execVor (o : TOp) (s : State) : Result := .next (issueOne 0x4A o opVor true s)
def execVxor (o : TOp) (s : State) : Result := .next (issueOne 0x4B o opVxor true s)
def execVandn (o : TOp) (s : State) : Result := .next (issueOne 0x4C o opVandn true s)
def execVnot (o : TOp) (s : State) : Result := .next (issueOne 0x4D o opVnot true s)
def execVshl (o : TOp) (s : State) : Result := .next (issueOne 0x4E o opVshl true s)
def execVshr (o : TOp) (s : State) : Result := .next (issueOne 0x4F o opVshr true s)
def execVsar (o : TOp) (s : State) : Result := .next (issueOne 0x50 o opVsar true s)
def execVrol (o : TOp) (s : State) : Result := .next (issueOne 0x51 o opVrol true s)
def execVcmp (o : TOp) (s : State) : Result := .next (issueOne 0x52 o opVcmp true s)
def execVsel (o : TOp) (s : State) : Result := .next (issueOne 0x53 o opVsel true s)
def execVmov (o : TOp) (s : State) : Result := .next (issueOne 0x54 o opVmov true s)
def execVbcast (o : TOp) (s : State) : Result := .next (issueOne 0x55 o opVbcast true s)
def execVbcastLane (o : TOp) (s : State) : Result := .next (issueOne 0x55 o opVbcastLane true s)
def execVbcastIota (o : TOp) (s : State) : Result := .next (issueOne 0x55 o opVbcastIota true s)
def execVcvt (o : TOp) (s : State) : Result := .next (issueOne 0x56 o opVcvt true s)
def execVmulh (o : TOp) (s : State) : Result := .next (issueOne 0x57 o opVmulh true s)
def execVrcp (o : TOp) (s : State) : Result := .next (issueOne 0x58 o opVrcp true s)
def execVrsqrt (o : TOp) (s : State) : Result := .next (issueOne 0x59 o opVrsqrt true s)
def execVsqrt (o : TOp) (s : State) : Result := .next (issueOne 0x5A o opVsqrt true s)
def execVexp2 (o : TOp) (s : State) : Result := .next (issueOne 0x5B o opVexp2 true s)
def execVlog2 (o : TOp) (s : State) : Result := .next (issueOne 0x5C o opVlog2 true s)
def execVtanh (o : TOp) (s : State) : Result := .next (issueOne 0x5D o opVtanh true s)
def execVclz (o : TOp) (s : State) : Result := .next (issueOne 0x5E o opVclz true s)
def execVpopc (o : TOp) (s : State) : Result := .next (issueOne 0x5F o opVpopc true s)
def execVrsum (o : TOp) (s : State) : Result := .next (issueOne 0x60 o opVrsum true s)
def execVrmax (o : TOp) (s : State) : Result := .next (issueOne 0x61 o opVrmax true s)
def execVrmin (o : TOp) (s : State) : Result := .next (issueOne 0x62 o opVrmin true s)
def execVscan (o : TOp) (s : State) : Result := .next (issueOne 0x63 o opVscan true s)
def execVsort (o : TOp) (s : State) : Result := .next (issueOne 0x64 o opVsort true s)
def execVperm (o : TOp) (s : State) : Result := .next (issueOne 0x65 o opVperm true s)
def execVrot (o : TOp) (s : State) : Result := .next (issueOne 0x66 o opVrot true s)
def execVextr (o : TOp) (s : State) : Result := .next (issueOne 0x67 o opVextr true s)
def execVins (o : TOp) (s : State) : Result := .next (issueOne 0x68 o opVins true s)
def execVrand (o : TOp) (s : State) : Result := .next (issueOne 0x69 o opVrand true s)
def execPpack (o : TOp) (s : State) : Result := .next (issueOne 0x6A o opPpack true s)
def execPunpack (o : TOp) (s : State) : Result := .next (issueOne 0x6B o opPunpack true s)
def execPlog (o : TOp) (s : State) : Result := .next (issueOne 0x6C o opPlog true s)
def execPcnt (o : TOp) (s : State) : Result := .next (issueOne 0x6D o opPcnt true s)
def execPfirst (o : TOp) (s : State) : Result := .next (issueOne 0x6E o opPfirst true s)
def execVsat (o : TOp) (s : State) : Result := .next (issueOne 0x6F o opVsat true s)
def execVrnd (o : TOp) (s : State) : Result := .next (issueOne 0x70 o opVrnd true s)
def execVscl (o : TOp) (s : State) : Result := .next (issueOne 0x71 o opVscl true s)
end Sys2Proof.Machine
end

