-- ==== Sys2Proof/Machine/Bundle.lean ====
section
/-! DEFINITION. BUNDLE_ISSUE: the operations of one bundle with their meanings, issued together (R16, R46 to R48), and the
beat overrun (R99). -/
namespace Sys2Proof.Machine

/-- The operation of an instruction that stands in a slot, with its meaning; `none` for the other steps. -/
def sopOf : Instr → Option SOp
  | .add o => some ⟨0x00, o, opAdd o⟩
  | .addDirectReg d a => let o := (dirS d d a 0#4 0#22 0#5 4#6); some ⟨0x00, o, opAdd o⟩
  | .addDirectImm d imm => let o := (dirS d d 0#6 1#4 (imm.signExtend 22) 0#5 4#6); some ⟨0x00, o, opAdd o⟩
  | .sub o => some ⟨0x01, o, opSub o⟩
  | .subDirect d a => let o := (dirS d d a 0#4 0#22 0#5 4#6); some ⟨0x01, o, opSub o⟩
  | .addsh o => some ⟨0x02, o, opAddsh o⟩
  | .mul o => some ⟨0x03, o, opMul o⟩
  | .mulh o => some ⟨0x04, o, opMulh o⟩
  | .div o => some ⟨0x05, o, opDiv o⟩
  | .rem o => some ⟨0x06, o, opRem o⟩
  | .abs o => some ⟨0x07, o, opAbs o⟩
  | .and o => some ⟨0x08, o, opAnd o⟩
  | .andDirect d a => let o := (dirS d d a 0#4 0#22 0#5 4#6); some ⟨0x08, o, opAnd o⟩
  | .or o => some ⟨0x09, o, opOr o⟩
  | .orDirect d a => let o := (dirS d d a 0#4 0#22 0#5 4#6); some ⟨0x09, o, opOr o⟩
  | .xor o => some ⟨0x0A, o, opXor o⟩
  | .xorDirect d a => let o := (dirS d d a 0#4 0#22 0#5 4#6); some ⟨0x0A, o, opXor o⟩
  | .andn o => some ⟨0x0B, o, opAndn o⟩
  | .shl o => some ⟨0x0C, o, opShl o⟩
  | .shlDirect d imm => let o := (dirS d d 0#6 2#4 (imm.setWidth 22) 0#5 4#6); some ⟨0x0C, o, opShl o⟩
  | .shr o => some ⟨0x0D, o, opShr o⟩
  | .shrDirect d imm => let o := (dirS d d 0#6 2#4 (imm.setWidth 22) 0#5 4#6); some ⟨0x0D, o, opShr o⟩
  | .sar o => some ⟨0x0E, o, opSar o⟩
  | .rol o => some ⟨0x0F, o, opRol o⟩
  | .min o => some ⟨0x10, o, opMin o⟩
  | .max o => some ⟨0x11, o, opMax o⟩
  | .minu o => some ⟨0x12, o, opMinu o⟩
  | .maxu o => some ⟨0x13, o, opMaxu o⟩
  | .cmp o => some ⟨0x14, o, opCmp o⟩
  | .sel o => some ⟨0x15, o, opSel o⟩
  | .mov o => some ⟨0x16, o, opMov o⟩
  | .movDirectImm d imm => let o := (dirS d 0#6 0#6 1#4 (imm.signExtend 22) 0#5 4#6); some ⟨0x16, o, opMov o⟩
  | .movDirectLit d lit => let o := (dirS d 0#6 0#6 2#4 lit 0#5 4#6); some ⟨0x16, o, opMov o⟩
  | .movhi o => some ⟨0x17, o, opMovhi o⟩
  | .movhiDirect d q lit => let o := (dirS d 0#6 0#6 2#4 lit (q.setWidth 5) 0#6); some ⟨0x17, o, opMovhi o⟩
  | .clz o => some ⟨0x18, o, opClz o⟩
  | .ctz o => some ⟨0x19, o, opCtz o⟩
  | .popc o => some ⟨0x1A, o, opPopc o⟩
  | .brev o => some ⟨0x1B, o, opBrev o⟩
  | .bswap o => some ⟨0x1C, o, opBswap o⟩
  | .bext o => some ⟨0x1D, o, opBext o⟩
  | .bins o => some ⟨0x1E, o, opBins o⟩
  | .ext o => some ⟨0x1F, o, opExt o⟩
  | .fadd o => some ⟨0x20, o, opFadd o⟩
  | .fsub o => some ⟨0x21, o, opFsub o⟩
  | .fmul o => some ⟨0x22, o, opFmul o⟩
  | .fma o => some ⟨0x23, o, opFma o⟩
  | .fdiv o => some ⟨0x24, o, opFdiv o⟩
  | .fsqrt o => some ⟨0x25, o, opFsqrt o⟩
  | .fmin o => some ⟨0x26, o, opFmin o⟩
  | .fmax o => some ⟨0x27, o, opFmax o⟩
  | .fcmp o => some ⟨0x28, o, opFcmp o⟩
  | .fclass o => some ⟨0x29, o, opFclass o⟩
  | .fsgn o => some ⟨0x2A, o, opFsgn o⟩
  | .fcvt o => some ⟨0x2B, o, opFcvt o⟩
  | .fcvti o => some ⟨0x2C, o, opFcvti o⟩
  | .icvtf o => some ⟨0x2D, o, opIcvtf o⟩
  | .vadd o => some ⟨0x40, o, opVadd o⟩
  | .vsub o => some ⟨0x41, o, opVsub o⟩
  | .vmul o => some ⟨0x42, o, opVmul o⟩
  | .vfma o => some ⟨0x43, o, opVfma o⟩
  | .vfms o => some ⟨0x44, o, opVfms o⟩
  | .vmin o => some ⟨0x45, o, opVmin o⟩
  | .vmax o => some ⟨0x46, o, opVmax o⟩
  | .vabs o => some ⟨0x47, o, opVabs o⟩
  | .vneg o => some ⟨0x48, o, opVneg o⟩
  | .vand o => some ⟨0x49, o, opVand o⟩
  | .vor o => some ⟨0x4A, o, opVor o⟩
  | .vxor o => some ⟨0x4B, o, opVxor o⟩
  | .vandn o => some ⟨0x4C, o, opVandn o⟩
  | .vnot o => some ⟨0x4D, o, opVnot o⟩
  | .vshl o => some ⟨0x4E, o, opVshl o⟩
  | .vshr o => some ⟨0x4F, o, opVshr o⟩
  | .vsar o => some ⟨0x50, o, opVsar o⟩
  | .vrol o => some ⟨0x51, o, opVrol o⟩
  | .vcmp o => some ⟨0x52, o, opVcmp o⟩
  | .vsel o => some ⟨0x53, o, opVsel o⟩
  | .vmov o => some ⟨0x54, o, opVmov o⟩
  | .vbcast o => some ⟨0x55, o, opVbcast o⟩
  | .vbcastLane o => some ⟨0x55, o, opVbcastLane o⟩
  | .vbcastIota o => some ⟨0x55, o, opVbcastIota o⟩
  | .vcvt o => some ⟨0x56, o, opVcvt o⟩
  | .vmulh o => some ⟨0x57, o, opVmulh o⟩
  | .vrcp o => some ⟨0x58, o, opVrcp o⟩
  | .vrsqrt o => some ⟨0x59, o, opVrsqrt o⟩
  | .vsqrt o => some ⟨0x5A, o, opVsqrt o⟩
  | .vexp2 o => some ⟨0x5B, o, opVexp2 o⟩
  | .vlog2 o => some ⟨0x5C, o, opVlog2 o⟩
  | .vtanh o => some ⟨0x5D, o, opVtanh o⟩
  | .vclz o => some ⟨0x5E, o, opVclz o⟩
  | .vpopc o => some ⟨0x5F, o, opVpopc o⟩
  | .vrsum o => some ⟨0x60, o, opVrsum o⟩
  | .vrmax o => some ⟨0x61, o, opVrmax o⟩
  | .vrmin o => some ⟨0x62, o, opVrmin o⟩
  | .vscan o => some ⟨0x63, o, opVscan o⟩
  | .vsort o => some ⟨0x64, o, opVsort o⟩
  | .vperm o => some ⟨0x65, o, opVperm o⟩
  | .vrot o => some ⟨0x66, o, opVrot o⟩
  | .vextr o => some ⟨0x67, o, opVextr o⟩
  | .vins o => some ⟨0x68, o, opVins o⟩
  | .vrand o => some ⟨0x69, o, opVrand o⟩
  | .ppack o => some ⟨0x6A, o, opPpack o⟩
  | .punpack o => some ⟨0x6B, o, opPunpack o⟩
  | .plog o => some ⟨0x6C, o, opPlog o⟩
  | .pcnt o => some ⟨0x6D, o, opPcnt o⟩
  | .pfirst o => some ⟨0x6E, o, opPfirst o⟩
  | .vsat o => some ⟨0x6F, o, opVsat o⟩
  | .vrnd o => some ⟨0x70, o, opVrnd o⟩
  | .vscl o => some ⟨0x71, o, opVscl o⟩
  | .mop o => some ⟨0x80, o, opMop o⟩
  | .mops o => some ⟨0x81, o, opMops o⟩
  | .mopc o => some ⟨0x82, o, opMopc o⟩
  | .mopv o => some ⟨0x83, o, opMopv o⟩
  | .mrank1 o => some ⟨0x84, o, opMrank1 o⟩
  | .mzero o => some ⟨0x85, o, opMzero o⟩
  | .mfill o => some ⟨0x86, o, opMfill o⟩
  | .mstash o => some ⟨0x87, o, opMstash o⟩
  | .mucfg o => some ⟨0x88, o, opMucfg o⟩
  | .mscale o => some ⟨0x89, o, opMscale o⟩
  | .ard o => some ⟨0x90, o, opArd o⟩
  | .ardc o => some ⟨0x91, o, opArdc o⟩
  | .aspill o => some ⟨0x92, o, opAspill o⟩
  | .afill o => some ⟨0x93, o, opAfill o⟩
  | .asgd o => some ⟨0x94, o, opAsgd o⟩
  | .amom o => some ⟨0x95, o, opAmom o⟩
  | .aadam o => some ⟨0x96, o, opAadam o⟩
  | .astat o => some ⟨0x97, o, opAstat o⟩
  | .cstart o => some ⟨0xA0, o, opCstart o⟩
  | .cstartIn o => some ⟨0xA0, o, opCstart o⟩
  | .cappend o => some ⟨0xA1, o, opCappend o⟩
  | .cstop o => some ⟨0xA2, o, opCstop o⟩
  | .cwm o => some ⟨0xA3, o, opCwm o⟩
  | .crange o => some ⟨0xA4, o, opCrange o⟩
  | .ctag o => some ⟨0xA5, o, opCtag o⟩
  | .cpref o => some ⟨0xA6, o, opCpref o⟩
  | .cbank o => some ⟨0xA7, o, opCbank o⟩
  | .cqfmt o => some ⟨0xA8, o, opCqfmt o⟩
  | .cqfmtGet o => some ⟨0xA8, o, opCqfmt o⟩
  | .bufswap o => some ⟨0xA9, o, opBufswap o⟩
  | .evpop o => some ⟨0xCB, o, opEvpop o⟩
  | .ld o => some ⟨0xB0, o, opLd o⟩
  | .ldDirect d a off => let o := (dirMem d a off); some ⟨0xB0, o, opLd o⟩
  | .st o => some ⟨0xB1, o, opSt o⟩
  | .stDirect d a off => let o := (dirMem d a off); some ⟨0xB1, o, opSt o⟩
  | .vld o => some ⟨0xB2, o, opVld o⟩
  | .vst o => some ⟨0xB3, o, opVst o⟩
  | .vgath o => some ⟨0xB4, o, opVgath o⟩
  | .vscat o => some ⟨0xB5, o, opVscat o⟩
  | .ldc o => some ⟨0xB6, o, opLdc o⟩
  | .vldc o => some ⟨0xB7, o, opVldc o⟩
  | .amadd o => some ⟨0xB8, o, opAmadd o⟩
  | .amfadd o => some ⟨0xB9, o, opAmfadd o⟩
  | .ammin o => some ⟨0xBA, o, opAmmin o⟩
  | .ammax o => some ⟨0xBB, o, opAmmax o⟩
  | .amand o => some ⟨0xBC, o, opAmand o⟩
  | .amor o => some ⟨0xBD, o, opAmor o⟩
  | .amxor o => some ⟨0xBE, o, opAmxor o⟩
  | .amswap o => some ⟨0xBF, o, opAmswap o⟩
  | .amcas o => some ⟨0xC0, o, opAmcas o⟩
  | .amcasgt o => some ⟨0xC1, o, opAmcasgt o⟩
  | .amcasv o => some ⟨0xC2, o, opAmcasv o⟩
  | .amcasp o => some ⟨0xC3, o, opAmcasp o⟩
  | .vamadd o => some ⟨0xC4, o, opVamadd o⟩
  | .fence o => some ⟨0xC5, o, opFence o⟩
  | .ldacq o => some ⟨0xC6, o, opLdacq o⟩
  | .strel o => some ⟨0xC7, o, opStrel o⟩
  | .chk o => some ⟨0xC8, o, opChk o⟩
  | .stg o => some ⟨0xC9, o, opStg o⟩
  | .vstg o => some ⟨0xCA, o, opVstg o⟩
  | .jmp o => some ⟨0xD0, o, opJmp o⟩
  | .jmpDirect disp => let o := (dirX 0#8 0#8 0#8 3#4 (disp.signExtend 22) 0#5); some ⟨0xD0, o, opJmp o⟩
  | .bcmp o => some ⟨0xD1, o, opBcmp o⟩
  | .beqz o => some ⟨0xD2, o, opBeqz o⟩
  | .beqzDirect a disp => let o := (dirX 0#8 (sreg a) 0#8 3#4 (disp.signExtend 22) 0#5); some ⟨0xD2, o, opBeqz o⟩
  | .bnez o => some ⟨0xD2, o, opBnez o⟩
  | .bnezDirect a disp => let o := (dirX 0#8 (sreg a) 0#8 3#4 (disp.signExtend 22) 1#5); some ⟨0xD2, o, opBnez o⟩
  | .bpred o => some ⟨0xD3, o, opBpred o⟩
  | .brg o => some ⟨0xD4, o, opBrg o⟩
  | .call o => some ⟨0xD5, o, opCall o⟩
  | .callDirect disp => let o := (dirX 0#8 0#8 0#8 3#4 (disp.signExtend 22) 0#5); some ⟨0xD5, o, opCall o⟩
  | .callr o => some ⟨0xD6, o, opCallr o⟩
  | .ret o => some ⟨0xD7, o, opRet o⟩
  | .retDirect => let o := (dirX 0#8 0#8 0#8 0#4 0#22 0#5); some ⟨0xD7, o, opRet o⟩
  | .jmpr o => some ⟨0xD8, o, opJmpr o⟩
  | .jmprDirect a => let o := (dirX 0#8 (sreg a) 0#8 0#4 0#22 0#5); some ⟨0xD8, o, opJmpr o⟩
  | .loop o => some ⟨0xD9, o, opLoop o⟩
  | .loopx o => some ⟨0xDA, o, opLoopx o⟩
  | .yield o => some ⟨0xDB, o, opYield o⟩
  | .yieldDirect imm => let o := (dirX 0#8 0#8 0#8 2#4 (imm.setWidth 22) 0#5); some ⟨0xDB, o, opYield o⟩
  | .waitb o => some ⟨0xDC, o, opWaitb o⟩
  | .waitbDirect a => let o := (dirX 0#8 (sreg a) 0#8 0#4 0#22 0#5); some ⟨0xDC, o, opWaitb o⟩
  | .gets o => some ⟨0xDD, o, opGets o⟩
  | .getsDirect d idx => let o := (dirX (sreg d) (sreg idx) 0#8 0#4 0#22 0#5); some ⟨0xDD, o, opGets o⟩
  | .sets o => some ⟨0xDE, o, opSets o⟩
  | .setsDirect a idx => let o := (dirX (sreg idx) (sreg a) 0#8 0#4 0#22 0#5); some ⟨0xDE, o, opSets o⟩
  | .setsRngt o => some ⟨0xDE, o, opSetsRngt o⟩
  | .setsCkpts o => some ⟨0xDE, o, opSetsCkpts o⟩
  | .setsLc o => some ⟨0xDE, o, opSetsLc o⟩
  | .setsTrappc o => some ⟨0xDE, o, opSetsTrappc o⟩
  | .setsAdjoff o => some ⟨0xDE, o, opSetsAdjoff o⟩
  | .setsTapeb o => some ⟨0xDE, o, opSetsTapeb o⟩
  | .setsTapel o => some ⟨0xDE, o, opSetsTapel o⟩
  | .trap o => some ⟨0xDF, o, opTrap o⟩
  | .trapDirect imm => let o := (dirX 0#8 imm 0#8 0#4 0#22 0#5); some ⟨0xDF, o, opTrap o⟩
  | .halt o => some ⟨0xEB, o, opHalt o⟩
  | .haltDirect => let o := (dirX 0#8 0#8 0#8 0#4 0#22 0#5); some ⟨0xEB, o, opHalt o⟩
  | .dld o => some ⟨0xE0, o, opDld o⟩
  | .dldDirect a => let o := (dirX 0#8 (sreg a) 0#8 0#4 0#22 0#5); some ⟨0xE0, o, opDld o⟩
  | .dset o => some ⟨0xE1, o, opDset o⟩
  | .dsetDirect a bank n => let o := (dirX n (sreg a) 0#8 0#4 0#22 (bankMd bank)); some ⟨0xE1, o, opDset o⟩
  | .dget o => some ⟨0xE2, o, opDget o⟩
  | .dgetDirect d bank n => let o := (dirX (sreg d) n 0#8 0#4 0#22 (bankMd bank)); some ⟨0xE2, o, opDget o⟩
  | .dsel o => some ⟨0xE3, o, opDsel o⟩
  | .dselDirect bank => let o := (dirX 0#8 0#8 0#8 0#4 0#22 (bankMd bank)); some ⟨0xE3, o, opDsel o⟩
  | .ffence o => some ⟨0xE4, o, opFfence o⟩
  | .ffenceDirect => let o := (dirX 0#8 0#8 0#8 0#4 0#22 0#5); some ⟨0xE4, o, opFfence o⟩
  | .adjm o => some ⟨0xE5, o, opAdjm o⟩
  | .adjld o => some ⟨0xE6, o, opAdjld o⟩
  | .adjclr o => some ⟨0xE7, o, opAdjclr o⟩
  | .tapefl o => some ⟨0xE8, o, opTapefl o⟩
  | .ckpt o => some ⟨0xE9, o, opCkpt o⟩
  | .ckptDirect => let o := (dirX 0#8 0#8 0#8 0#4 0#22 0#5); some ⟨0xE9, o, opCkpt o⟩
  | .rte o => some ⟨0xEA, o, opRte o⟩
  | .bkpt o => some ⟨0xEC, o, opBkpt o⟩
  | _ => none

/-- Does the bundle expand a dictionary entry (R34, R46)? -/
def isTemplate (i : Instr) : Bool := i.tmpl.isSome

/-- TRAPAUX of an expansion fault (R48). -/
def auxExpand (c : Core) (w : Bundle) (f : XFault) : Word64 :=
  let sb := bits w.toNat (24 * f.slot) 24
  let form := bits sb 22 2
  let idx := if f.cause == 0x04 && f.detail == 0 then 0 else if form == 0 then bits sb 16 6 else if form == 1 then bits sb 14 8 else 0
  BitVec.ofNat 64 (sb * 2 ^ 40 + bits c.dictv.toNat 0 16 * 2 ^ 24 + idx * 2 ^ 16 + flag64 c.act 15 + f.slot * 2 ^ 12 + f.detail * 2 ^ 8 +
    (if f.cause == 0x02 then f.ecls else 0))

/-- The active dictionary as expansion sees it (R46, R165). -/
def Core.activeDict (c : Core) (n : Nat) : Option Template := c.dictX.toList.getD (dictIx c.act n) none

/-- The operations of a bundle that does not expand as a whole, as far as each slot expands by itself: such a bundle first waits for them
(R392 step 1). One that finds no literal waits for its registers alone. -/
def loosePieces (dict : Nat → Option Template) (w : Bundle) : List Piece :=
  (List.range 8).map (fun k => match expandSlot dict k (slotOf w k) with | .ok p => p | .error _ => .none)
def looseOps (dict : Nat → Option Template) (w : Bundle) : List Instr :=
  match pairLits [] 0 (loosePieces dict w) with
  | .ok qs => qs.reverse.filterMap pieceOp
  | .error _ => (loosePieces dict w).filterMap (fun p => pieceOp (0, p))
/-- Does a slot read the dictionary (R34, R166)? -/
def readsDict (w : Bundle) : Bool := (List.range 8).any (fun k => (slotOf w k).extractLsb' 22 2 == 1#2 && (slotOf w k).extractLsb' 14 8 != 0#8)
/-- Does a bundle that does not expand wait before its fault (R166, R392 step 1)? -/
def State.faultWaits (s : State) (w : Bundle) : Bool :=
  let ops := looseOps s.core.activeDict w
  s.bundleWaits (ops.filter (fun i => !i.wantsLit)|>.filterMap sopOf) (readsDict w) ||
  (!s.core.timetabled && (ops.filterMap sopOf).any (fun x => (regWait s x).isSome))

/-- BUNDLE_ISSUE (R16, R46 to R48): the slots expand against the active bank, and their operations issue together. A bundle that does not
expand faults when what it would wait for is over (R392). -/
def execBundleIssue (w : Bundle) (s : State) : Result :=
  match expandBundle s.core.activeDict w with
  | .error f => .next (if s.faultWaits w then s else trapIssue s f.cause (auxExpand s.core w f))
  | .ok is => .next (issueOps (is.filterMap sopOf) (is.any isTemplate) s)

/-- BEAT_OVERRUN (R99): with YLEFT at 0, the bundle that would issue traps; TRAPAUX holds the declared run. -/
def execBeatOverrun (s : State) : Result :=
  if s.core.yleft == 0 && s.core.trap.isNone then .next (trapIssue s 0x12 (BitVec.ofNat 64 s.core.yrun)) else .next s

end Sys2Proof.Machine
end

