-- ==== Sys2Proof/Machine/Crypto.lean ====
section
/-! DEFINITION. The symmetric primitives that the manual names by their standards: AES-256 (FIPS 197), its GCM mode (SP 800-38D), AES key wrap
(RFC 3394), SHA-384 (FIPS 180-4), and HKDF over it (RFC 5869) (R322, R324, R326, R327, R355). -/
namespace Sys2Proof.Machine

/-- A number in `n` bytes, the highest first. -/
def beBytes (n x : Nat) : List Byte := (leBytes n x).reverse
def beNat (bs : List Byte) : Nat := leNat bs.reverse
def xorBytes (a b : List Byte) : List Byte := List.zipWith (fun x y => x ^^^ y) a b

/-! ## AES-256 -/

/-- Twice a byte in the field of AES. -/
def gfDouble (a : Byte) : Byte := if a.msb then (a <<< 1) ^^^ 0x1B#8 else a <<< 1
/-- A product in the field of AES. -/
def gfMul (a b : Byte) : Byte :=
  ((List.range 8).foldl (fun (x : Byte × Byte) i => (if b.getLsbD i then x.1 ^^^ x.2 else x.1, gfDouble x.2)) (0#8, a)).1
/-- The inverse of a byte, its 254th power; that of zero is zero. -/
def gfInv (a : Byte) : Byte := (List.range 253).foldl (fun x _ => gfMul x a) a
def aesSub (a : Byte) : Byte :=
  let x := gfInv a
  x ^^^ x.rotateLeft 1 ^^^ x.rotateLeft 2 ^^^ x.rotateLeft 3 ^^^ x.rotateLeft 4 ^^^ 0x63#8
def aesUnsub (a : Byte) : Byte := gfInv (a.rotateLeft 1 ^^^ a.rotateLeft 3 ^^^ a.rotateLeft 6 ^^^ 0x05#8)

/-- A block by row and column: byte r + 4 c. -/
def aesGen (f : Nat → Nat → Byte) : List Byte := (List.range 16).map (fun i => f (i % 4) (i / 4))
def aesAt (b : List Byte) (r c : Nat) : Byte := b.getD (r % 4 + 4 * (c % 4)) 0#8
def aesShift (b : List Byte) : List Byte := aesGen (fun r c => aesAt b r (c + r))
def aesUnshift (b : List Byte) : List Byte := aesGen (fun r c => aesAt b r (c + 4 - r))
/-- Each column times the polynomial with the coefficients `k`. -/
def aesMix (k : List Byte) (b : List Byte) : List Byte :=
  aesGen (fun r c => (List.range 4).foldl (fun x i => x ^^^ gfMul (k.getD i 0#8) (aesAt b (r + i) c)) 0#8)

/-- The key schedule goes on by one word, beside the round constant: word n + 8. -/
def aesGrow (x : List (List Byte) × Byte) (n : Nat) : List (List Byte) × Byte :=
  let t := x.1.getD (n + 7) []
  let u := if n % 8 == 0 then xorBytes ((t.rotateLeft 1).map aesSub) [x.2, 0#8, 0#8, 0#8] else if n % 8 == 4 then t.map aesSub else t
  (x.1 ++ [xorBytes (x.1.getD n []) u], if n % 8 == 0 then gfDouble x.2 else x.2)
/-- The key schedule of a 32-byte key: 60 words of four bytes. -/
def aesWords (key : List Byte) : List (List Byte) :=
  ((List.range 52).foldl aesGrow ((List.range 8).map (fun i => (key.drop (4 * i)).take 4), 0x01#8)).1
/-- The 15 round keys. -/
def aesKeys (key : List Byte) : List (List Byte) :=
  let w := aesWords key
  (List.range 15).map (fun i => ((w.drop (4 * i)).take 4).flatten)

/-- AES-256 of a block under its round keys. -/
def aesEnc (ks : List (List Byte)) (b : List Byte) : List Byte :=
  let key := fun n => ks.getD n []
  let x := (List.range 13).foldl (fun x n => xorBytes (aesMix [2#8, 3#8, 1#8, 1#8] (aesShift (x.map aesSub))) (key (n + 1))) (xorBytes b (key 0))
  xorBytes (aesShift (x.map aesSub)) (key 14)
/-- Its inverse. -/
def aesDec (ks : List (List Byte)) (b : List Byte) : List Byte :=
  let key := fun n => ks.getD n []
  let x := (List.range 13).foldl (fun x n => aesMix [14#8, 11#8, 13#8, 9#8] (xorBytes ((aesUnshift x).map aesUnsub) (key (13 - n)))) (xorBytes b (key 14))
  xorBytes ((aesUnshift x).map aesUnsub) (key 0)

/-! ## GCM -/

/-- A list in blocks of 16 bytes, the last one filled with zeros. -/
def blocks16 (bs : List Byte) : List (List Byte) :=
  (List.range ((bs.length + 15) / 16)).map (fun i => let x := (bs.drop (16 * i)).take 16; x ++ List.replicate (16 - x.length) 0#8)
/-- A product in the field of GHASH. -/
def ghMul (x y : BitVec 128) : BitVec 128 :=
  ((List.range 128).foldl (fun (s : BitVec 128 × BitVec 128) i =>
    (if x.getMsbD i then s.1 ^^^ s.2 else s.1,
     if s.2.getLsbD 0 then (s.2 >>> 1) ^^^ BitVec.ofNat 128 (0xE1 * 2 ^ 120) else s.2 >>> 1)) (0#128, y)).1
def ghash (h : BitVec 128) (bs : List (List Byte)) : BitVec 128 :=
  bs.foldl (fun y b => ghMul (y ^^^ BitVec.ofNat 128 (beNat b)) h) 0#128
/-- The text under the counters that follow the nonce. -/
def gcmText (ks : List (List Byte)) (iv text : List Byte) : List Byte :=
  xorBytes text ((List.range ((text.length + 15) / 16)).flatMap (fun i => aesEnc ks (iv ++ beBytes 4 (i + 2))))
def gcmTag (ks : List (List Byte)) (iv aad cipher : List Byte) : List Byte :=
  let h := BitVec.ofNat 128 (beNat (aesEnc ks (List.replicate 16 0#8)))
  let g := ghash h (blocks16 aad ++ blocks16 cipher ++ [beBytes 8 (8 * aad.length) ++ beBytes 8 (8 * cipher.length)])
  xorBytes (beBytes 16 g.toNat) (aesEnc ks (iv ++ beBytes 4 1))

/-- The nonce of a sealed unit, in its head (R355). -/
def headIv (head : List Byte) : List Byte := (head.drop 16).take 12
/-- AES-256-GCM with a head as additional data: cipher text and tag (R355). -/
def aesSeal (key head plain : List Byte) : List Byte :=
  let ks := aesKeys key
  let x := gcmText ks (headIv head) plain
  x ++ gcmTag ks (headIv head) head x
/-- What such a unit holds; nothing where its tag does not verify. -/
def aesOpen (key head sealed : List Byte) : Option (List Byte) :=
  let ks := aesKeys key
  let n := sealed.length - 16
  let x := sealed.take n
  if sealed.length ≥ 16 && gcmTag ks (headIv head) head x == sealed.drop n then some (gcmText ks (headIv head) x) else none

/-! ## AES key wrap -/

/-- The key in 40 wrapped bytes; nothing where the integrity check fails (RFC 3394; R322, R324). -/
def keyUnwrap (key wrapped : List Byte) : Option (List Byte) :=
  let ks := aesKeys key
  let x := (List.range 24).foldl (fun (x : List Byte × List (List Byte)) n =>
    let i := 3 - n % 4
    let b := aesDec ks (xorBytes x.1 (beBytes 8 (24 - n)) ++ x.2.getD i [])
    (b.take 8, x.2.set i (b.drop 8))) (wrapped.take 8, (List.range 4).map (fun i => (wrapped.drop (8 + 8 * i)).take 8))
  if wrapped.length == 40 && x.1 == List.replicate 8 0xA6#8 then some x.2.flatten else none

/-! ## SHA-384, HMAC and HKDF -/

def isPrime (p : Nat) : Bool := decide (2 ≤ p) && (List.range p).all (fun d => d < 2 || p % d != 0)
def smallPrimes : List Nat := (List.range 410).filter isPrime
/-- The `k`-th root of a number, rounded down, below 2^68. -/
def rootOf (k n : Nat) : Nat := (List.range 68).foldl (fun r i => let t := r + 2 ^ (67 - i); if t ^ k ≤ n then t else r) 0
/-- The round constants: 64 bits of the fractions of cube roots of the first 80 primes. -/
def shaK : List Word64 := smallPrimes.map (fun p => BitVec.ofNat 64 (rootOf 3 (p * 2 ^ 192)))
/-- The first hash value: those of the square roots of the ninth to sixteenth prime. -/
def sha384H : List Word64 := ((smallPrimes.drop 8).take 8).map (fun p => BitVec.ofNat 64 (rootOf 2 (p * 2 ^ 128)))

/-- The message schedule of a block, 80 words. -/
def shaWords (b : List Byte) : List Word64 :=
  (List.range 64).foldl (fun w n =>
    let at_ := fun k => w.getD (n + 16 - k) 0#64
    let s0 := (at_ 15).rotateRight 1 ^^^ (at_ 15).rotateRight 8 ^^^ (at_ 15) >>> 7
    let s1 := (at_ 2).rotateRight 19 ^^^ (at_ 2).rotateRight 61 ^^^ (at_ 2) >>> 6
    w ++ [at_ 16 + s0 + at_ 7 + s1]) ((List.range 16).map (fun i => BitVec.ofNat 64 (beNat ((b.drop (8 * i)).take 8))))
/-- One block of 128 bytes enters the hash value. -/
def shaBlock (h : List Word64) (b : List Byte) : List Word64 :=
  let v := ((shaWords b).zip shaK).foldl (fun (v : List Word64) x =>
    let r := fun i => v.getD i 0#64
    let s1 := (r 4).rotateRight 14 ^^^ (r 4).rotateRight 18 ^^^ (r 4).rotateRight 41
    let t1 := r 7 + s1 + ((r 4 &&& r 5) ^^^ (~~~r 4 &&& r 6)) + x.2 + x.1
    let s0 := (r 0).rotateRight 28 ^^^ (r 0).rotateRight 34 ^^^ (r 0).rotateRight 39
    let t2 := s0 + ((r 0 &&& r 1) ^^^ (r 0 &&& r 2) ^^^ (r 1 &&& r 2))
    [t1 + t2, r 0, r 1, r 2, r 3 + t1, r 4, r 5, r 6]) h
  List.zipWith (fun x y => x + y) h v
def sha384 (m : List Byte) : List Byte :=
  let pad := m ++ [0x80#8] ++ List.replicate ((239 - m.length % 128) % 128) 0#8 ++ beBytes 16 (8 * m.length)
  (((List.range (pad.length / 128)).foldl (fun h i => shaBlock h ((pad.drop (128 * i)).take 128)) sha384H).flatMap (fun w => beBytes 8 w.toNat)).take 48

def hmac384 (key m : List Byte) : List Byte :=
  let k := if key.length > 128 then sha384 key else key
  let k := k ++ List.replicate (128 - k.length) 0#8
  sha384 (k.map (fun b => b ^^^ 0x5C#8) ++ sha384 (k.map (fun b => b ^^^ 0x36#8) ++ m))
/-- HKDF with SHA-384, 32 bytes long: salt, key material, info (R327). -/
def hkdf384 (salt secret info : List Byte) : List Byte := (hmac384 (hmac384 salt secret) (info ++ [0x01#8])).take 32

/-- The key of an attestation session: from the shared secret and the nonce (R327). -/
def sessionKey (secret nonce : List Byte) : List Byte :=
  hkdf384 nonce secret [0x78#8, 0x65#8, 0x37#8, 0x20#8, 0x73#8, 0x65#8, 0x73#8, 0x73#8, 0x69#8, 0x6F#8, 0x6E#8]

end Sys2Proof.Machine
end

