-- ==== Sys2Proof/Machine/Sealed.lean ====
section
/-! DEFINITION. The bytes of a saved context (R237), of a footprint image (R295) and of a sealed unit (R355). -/
namespace Sys2Proof.Machine

def padTo (n : Nat) (bs : List Byte) : List Byte := (bs ++ List.replicate (n - bs.length) 0#8).take n
def word8 (n : Nat) : List Byte := leBytes 8 n
/-- Bits of a list, eight to a byte. -/
def bitBytes (n : Nat) (f : Nat → Bool) : List Byte :=
  (List.range n).map (fun i => BitVec.ofNat 8 ((List.range 8).foldl (fun x k => x + flag64 (f (8 * i + k)) k) 0))

/-- The redirect list as 16 words (R237). -/
def redirectBytes (rs : List Redirect) : List Byte :=
  padTo 128 (rs.flatMap (fun r => word8 (2 ^ 63 + r.left % 16 * 2 ^ 32 + r.target % 2 ^ 32)))

/-- A tile in the RAW or the F32 layout (R156). -/
def tileBytes (f32 : Bool) (t : Tile) : List Byte :=
  (List.range 32).flatMap (fun i => (List.range 32).flatMap (fun j =>
    let x := (tileAt t i j).toNat
    if f32 then leBytes 4 (Bin.f32.round Rnd.rneGrad (Bin.af48.decode x)).pat else leBytes 6 x))

/-- A saved context (R237); nothing for a core that had halted or was never started. -/
def contextBytes (c : Core) : List Byte :=
  match c.run with
  | .saved cause pc aux =>
    let f32 := cause == 0x17
    let a := c.a
    word8 (c.saveErr.getD cause + flag64 f32 8 + c.budget.toNat * 512) ++ word8 c.pc ++ word8 (if f32 then 0 else aux.toNat) ++ word8 pc ++
    (if f32 then word8 a.rngs.toNat ++ word8 a.rngc.toNat else List.replicate 16 0#8) ++ List.replicate 16 0#8 ++
    (List.range 64).flatMap (fun i => word8 (a.rs (BitVec.ofNat 6 i)).toNat) ++
    (List.range 16).flatMap (fun i => leBytes 4 (a.rp (BitVec.ofNat 4 i)).toNat) ++
    (a.ts.toList ++ a.tv.toList).map (fun x => BitVec.ofNat 8 x) ++
    (List.range 32).flatMap (fun i => word8 (c.special c.savedAt i).toNat) ++
    redirectBytes a.pend ++
    a.loops.toList.flatMap (fun l => leBytes 4 l.start ++ leBytes 4 l.stop ++ word8 (flag64 l.active 0)) ++
    padTo 64 (word8 c.trapc.toNat ++ word8 c.trappc ++ word8 c.trapaux.toNat ++ word8 (flag64 c.hm 0 + flag64 c.pcWritten 1)) ++
    padTo 256 (word8 c.frame.npc ++ redirectBytes c.frame.pend) ++
    padTo 64 (word8 a.mscl.toNat ++ word8 a.unf0.toNat ++ word8 a.unf1.toNat) ++
    c.dict.toList.flatMap (fun t => match t with | some x => word8 x.toNat | none => word8 0) ++
    bitBytes 64 (fun n => (c.dict.toList.getD n none).isSome) ++
    (List.range c.vregs).flatMap (fun i => (a.rv (BitVec.ofNat 6 i)).toList.flatMap (fun x => leBytes 4 x.toNat)) ++
    a.tiles.toList.flatMap (tileBytes f32)
  | _ => []

/-- The words of a channel in a block (R295). -/
def Chan.blockBytes (x : Chan) : List Byte :=
  word8 x.word.toNat ++ word8 x.addr ++ word8 x.tag ++ word8 x.rlo ++ word8 x.rhi ++ word8 x.wm

/-- A byte of the banks in an image: bytes of a CACHE-mode bank are indeterminate, a FIFO's queue stands from its bank's
start (R295). -/
def Image.bankByte (im : Image) (b : Banks) (j o : Nat) : Byte :=
  match b.mode (o / 0x10000) with
  | 1 => Config.freeByte (j * 2 ^ 18 + o)
  | 2 => ((b.fifo (o / 0x10000)).map Prod.fst).getD (o % 0x10000) (Config.freeByte (j * 2 ^ 18 + o))
  | _ => (⟨im.cells, im.indet⟩ : Memory).get (j * 2 ^ 18 + o)

/-- The block of core `j` (R295). -/
def Image.blockBytes (im : Image) (j : Nat) : List Byte :=
  let c := (im.cores.find? (fun c => c.coreid == j)).getD (core0 0 0)
  let b := (im.banks.find? (fun b => b.clus == j / 128 && b.core == j % 128)).getD (banks0 (j / 128) (j % 128))
  padTo 0x10000 (contextBytes c) ++
  padTo 0x1000 (
    word8 (b.mode 0 + 4 * b.mode 1 + 16 * b.mode 2 + 64 * b.mode 3) ++ b.qfmt.toList.flatMap (fun q => word8 q.toNat) ++
    c.chan0.blockBytes ++ c.chan1.blockBytes ++ word8 (c.events.length % 64) ++ List.replicate 16 0#8 ++
    padTo 256 (c.events.flatMap (fun e => word8 e.toNat)) ++
    padTo 256 ((List.range 4).flatMap (fun n => word8 ((b.fifo n).length % 2 ^ 17 * 2 ^ 16))) ++
    (List.range 4).flatMap (fun n => bitBytes 64 (fun k =>
      if b.mode n == 2 then (((b.fifo n).drop (128 * k)).take 128).any Prod.snd else im.blocks.contains (j * 2048 + 512 * n + k)))) ++
  (List.range 0x40000).map (fun o => im.bankByte b j o)

/-- A footprint image (R295). -/
def imageBytes (r : Rank) : List Byte :=
  padTo 0x1000 (word8 (r.rank % 2 ^ 16 + r.fpc % 8 * 2 ^ 16 + r.job % 2 ^ 32 * 2 ^ 32) ++ word8 r.step.toNat ++ word8 r.image.base ++
    (match r.image.launch with
    | some (st, tt, d) => word8 (st % 256 + flag64 tt 8) ++ word8 d
    | none => word8 0xFF ++ word8 0)) ++
  (List.range (128 * 2 ^ r.fpc)).flatMap (fun j => r.image.blockBytes j)

/-- Bytes of the image of a footprint: its header page and a block for each core (R295). -/
def blockSize : Nat := 0x51000
def imageSize (fpc : Nat) : Nat := 0x1000 + 128 * 2 ^ fpc * blockSize

/-- The endpoint states of a rank's collectives: those that it has armed, else those that its record keeps (R357). -/
def State.endpoints (s : State) (r : Rank) : List Endpoint :=
  let ks := s.pk.colls.filter (fun k => k.job == r.job && k.rank == r.rank)
  if ks.isEmpty then r.ends
  else ks.map (fun k => ⟨k.cid, if k.failed.isSome then 3 else if k.flagged.isSome then 2 else if k.armed ≤ s.beat then 1 else 0, k.chunks.map (fun c => c.count)⟩)
def Endpoint.bytes (e : Endpoint) : List Byte := word8 (e.cid + e.st * 65536 + e.counts.length * 2 ^ 32) ++ e.counts.flatMap word8

/-- The rank record and its image, as sealing takes them (R292, R355, R357); the record's own layout is not stated (DESIGN CHOICE, log 7). -/
def rankBytes (r : Rank) : List Byte :=
  word8 (r.rank + r.fpc * 65536 + r.job * 2 ^ 32) ++ word8 r.status ++ word8 r.root1 ++ word8 r.atag ++ word8 r.latec ++ padTo 32 r.seed ++
  word8 r.rngt0.toNat ++ word8 r.rng.length ++ word8 r.ends.length ++
  r.rng.flatMap (fun x => word8 x.j ++ word8 x.t.toNat ++ word8 x.s.toNat ++ word8 x.c.toNat) ++ padTo (imageSize r.fpc) (imageBytes r) ++
  r.ends.flatMap Endpoint.bytes

/-! ## A sealed record that is opened (R355, R357, R358) -/

def word64At (x : List Byte) (i : Nat) : Word64 := BitVec.ofNat 64 (leNat ((x.drop (8 * i)).take 8))
def wordAt (x : List Byte) (i : Nat) : Nat := (word64At x i).toNat
def openEnds : Nat → List Byte → List Endpoint
  | 0, _ => []
  | n + 1, x =>
    let w := wordAt x 0
    let k := w / 2 ^ 32
    ⟨w % 65536, w / 65536 % 65536, words 8 k (x.drop 8)⟩ :: openEnds n (x.drop (8 + 8 * k))

/-- The banks of core `j` in its block (R295). -/
def openBanks (j : Nat) (x : List Byte) : Banks :=
  let y := x.drop 0x10000
  let modes := wordAt y 0
  let fifo := fun (n : Nat) =>
    let len := wordAt (y.drop 512) n / 2 ^ 16
    let bs := (x.drop (0x11000 + n * 0x10000)).take len
    let marks := leNat ((y.drop (768 + 64 * n)).take 64)
    if bits modes (2 * n) 2 == 2 then bs.mapIdx (fun i b => (b, marks.testBit (i / 128))) else []
  { banks0 (j / 128) (j % 128) with
    modes := vecOf 4 (fun n => BitVec.ofNat 2 (bits modes (2 * n) 2))
    qfmt := vecOf 16 (fun q => word64At y (1 + q) &&& qfmtMask)
    fifos := vecOf 4 fifo }
/-- Poisoned blocks of core `j` in its block (R295). -/
def openBlocks (j : Nat) (x : List Byte) : List Nat :=
  let y := x.drop 0x10000
  (List.range 4).flatMap (fun n => if bits (wordAt y 0) (2 * n) 2 == 2 then []
    else (List.range 512).filterMap (fun k => if (leNat ((y.drop (768 + 64 * n)).take 64)).testBit k then some (j * 2048 + 512 * n + k) else none))
/-- The footprint image in its bytes (R295). A rank that moves or is recalled is parked: no context of it can start, and none is kept (log 7). -/
def openImage (fpc : Nat) (x : List Byte) : Image :=
  let n := 128 * 2 ^ fpc
  let block := fun (j : Nat) => x.drop (0x1000 + j * blockSize)
  { Image.empty with
    banks := (List.range n).map (fun j => openBanks j (block j))
    cells := ((List.range n).foldl (fun (m : Memory) j => (((block j).drop 0x11000).take 0x40000).zip (List.range 0x40000) |>.foldl (fun m b => m.put (j * 2 ^ 18 + b.2) b.1) m)
      ⟨[], []⟩).cells
    blocks := (List.range n).flatMap (fun j => openBlocks j (block j))
    base := wordAt x 2 }
/-- The rank that an opened record describes: parked, and bound to no seat. -/
def openRank (x : List Byte) : Rank :=
  let w := wordAt x
  let nrng := w 10
  let fpc := w 0 / 65536 % 65536
  { job := w 0 / 2 ^ 32, rank := w 0 % 65536, fpc := fpc, st := .parked, base := none, root1 := w 2, seed := (x.drop 40).take 32
    rngt0 := word64At x 9
    rng := (List.range nrng).map (fun i => ⟨w (12 + 4 * i), word64At x (13 + 4 * i), word64At x (14 + 4 * i), word64At x (15 + 4 * i)⟩)
    step := word64At (x.drop (96 + 32 * nrng)) 1, status := w 1, atag := w 3, latec := w 4
    image := openImage fpc (x.drop (96 + 32 * nrng)), cold := none, moving := false, byPark := false
    ends := openEnds (w 11) (x.drop (96 + 32 * nrng + imageSize fpc)) }

/-- Additional data and nonce of a sealed unit (R355): use 1 migration, 2 cold, 3 debug. -/
def sealHead (use job rank step modnum ctr : Nat) : List Byte :=
  word8 (1 + use * 65536 + job * 2 ^ 32) ++ word8 (rank + step % 2 ^ 48 * 65536) ++ leBytes 12 (ctr % 2 ^ 84 + modnum * 2 ^ 84) ++ List.replicate 36 0#8
/-- The head of a sealed page unit: the page's job address stands in place of rank and step. -/
def pageHead (job page modnum ctr : Nat) : List Byte :=
  word8 (1 + 65536 + job * 2 ^ 32) ++ word8 page ++ leBytes 12 (ctr % 2 ^ 84 + modnum * 2 ^ 84) ++ List.replicate 36 0#8

/-- The cold key of the module for a job (peer 0xFFFF), from the identity seed, and the keys with a peer, from the seed and the key exchange
(R326; log 7): 256 bits each. -/
def derivedKey (use job peer : Nat) : List Byte :=
  padTo 32 (Config.deriveKey Config.identitySeed (word8 use ++ word8 job ++ word8 peer ++ (if peer == 0xFFFF then [] else Config.keyExchange job peer)))
/-- The key of a use with a peer: one that the host supplied (R324 KEYX), else the agreed one. -/
def State.keyFor (s : State) (use job peer : Nat) : List Byte :=
  match s.pk.peerKeys.find? (fun k => k.job == job && k.peer == peer && k.use == use) with
  | some k => k.key
  | none => derivedKey use job peer

def sealUnit (key head plain : List Byte) : List Byte := head ++ aesSeal key head plain

end Sys2Proof.Machine
end

