-- ==== Sys2Proof/Machine/Fabric.lean ====
section
/-! DEFINITION. The fabric: flits and links (R330 to R334), requests and replies (R331, R336), collectives (R338 to R352),
the rank-to-module map (R353) and migration (R354 to R356). -/
namespace Sys2Proof.Machine

/-! ## Flits -/

def fKind (f : Flit) : Nat := bits f.hdr.toNat 60 4
def fSmod (f : Flit) : Nat := bits f.hdr.toNat 36 12
def fTag (f : Flit) : Nat := bits f.hdr.toNat 28 8
def fCtx (f : Flit) : Nat := bits f.hdr.toNat 0 20
/-- Payload word `i`. -/
def fWord (f : Flit) (i : Nat) : Nat := leNat ((f.payload.drop (8 * i)).take 8)

/-- A flit that a port can receive (R330). -/
def flitOk (f : Flit) : Bool :=
  decide (f.port < 144) && f.payload.length == 56 && ((fKind f != 1 && fKind f != 5) || decide (f.count ≤ 48))

/-- A flit arrives: a dead link delivers nothing, nor does a module serve it that has not booted (R325); an idle flit shows that the link lives,
and a reserved kind is discarded as a link error (R330, R332). -/
def State.arrive (s : State) (f : Flit) (kind : Nat) (go : State → State) : Result :=
  if !flitOk f || (decide (0 < fKind f ∧ fKind f < 10) && fKind f != kind) then .fault .noSuchInput
  else
    let p := s.portOf f.port
    if !p.alive || !s.pk.booted then .next s
    else
      let s := s.setPort { p with last := s.beat, retries := 0 }
      if fKind f == 0 then .next s
      else if fKind f ≥ 10 then .next { s with pk := { s.pk with linkErrs := s.pk.linkErrs + 1 } }
      else .next (go s)

/-! ## Requests and replies (R275, R330, R331, R336) -/

/-- What a request flit asks for that brings nothing but its layout: plain bytes at a flat address, or at a physical one (R275); of an atomic
the layout names no operation (log 21). -/
def reqOf (f : Flit) (kind : FlatKind) : FlatReq :=
  let a := fWord f 0
  ⟨kind, f.job, fSmod f, fCtx f, kind != .read && fTag f != 0, fTag f, if a.testBit 55 then bits a 39 16 else physRank,
    if a.testBit 55 then bits a 0 39 else bits a 0 42, 5, 0, 1#32, 0xA0, if kind == .atomic then 8 else f.count,
    if kind == .write then (f.payload.drop 8).take f.count else []⟩

/-- The data of a request in several flits (R330), which come in no fixed order (R333): all of it, once its last piece is here. -/
def State.assemble (s : State) (f : Flit) (b : FlatReq) : State × Option (List Byte) :=
  let mine := fun (x : Nat × Nat × List (Nat × Byte)) => (x.1 == fSmod f && x.2.1 == fCtx f : Bool)
  let old := match s.pk.parts.find? mine with | some x => x.2.2 | none => []
  let got := old ++ ((f.payload.drop 8).take f.count).mapIdx (fun i x => (fWord f 0 - flatAddr b + i, x))
  let rest := s.pk.parts.filter (fun x => !mine x)
  let n := (wireOf b).length
  if got.length ≥ n then
    ({ s with pk := { s.pk with parts := rest } }, some ((List.range n).map (fun i => ((got.find? (fun x => x.1 == i)).map Prod.snd).getD 0#8)))
  else ({ s with pk := { s.pk with parts := (fSmod f, fCtx f, got) :: rest } }, none)

/-- A request flit at its target: served once, with one answer, when all of its data is here (R276, R331, R335). -/
def State.serveFlit (s : State) (f : Flit) (kind : FlatKind) : State :=
  match f.req.filter (fun b => b.kind == kind) with
  | none => s.serve f.port (reqOf f kind)
  | some b =>
    let b := { b with job := f.job, smod := fSmod f, req := fCtx f, tag := fTag f }
    match s.assemble f b with
    | (s, some bs) => s.serve f.port (withWire b bs)
    | (s, none) => s

/-- WRITE_REQUEST_FLIT (R330, R335). -/
def execWriteRequestFlit (f : Flit) (s : State) : Result := s.arrive f 1 (fun s => s.serveFlit f .write)
/-- READ_REQUEST_FLIT (R330, R335). -/
def execReadRequestFlit (f : Flit) (s : State) : Result := s.arrive f 2 (fun s => s.serveFlit f .read)
/-- ATOMIC_REQUEST_FLIT (R330, R335): where it brings its layout alone, which names no operation, the word becomes a free value, and the old
one is returned (log 3, log 21). -/
def execAtomicRequestFlit (f : Flit) (s : State) : Result := s.arrive f 3 (fun s => s.serveFlit f .atomic)

/-- REPLY_FLIT (R331, R336): a request has its outcome when every byte that it returns is here; poison may come with the bytes (R281), and
any other failure comes alone. -/
def execReplyFlit (f : Flit) (s : State) : Result :=
  s.arrive f 4 (fun s =>
    match s.pk.remotes.find? (fun x => x.ctx == fCtx f && x.port != 0xFFFF && !x.held) with
    | none => s
    | some rm =>
      let w := fWord f 0
      let st := bits w 0 8
      let off := bits w 16 16
      let n := min 48 (bits w 32 16)
      let data := rm.data ++ ((f.payload.drop 8).take n).mapIdx (fun i b => (off + i, b))
      if rm.body.kind == .write || (st != 0 && (st != 2 || n == 0)) then s.settle rm st [] f.info
      else if data.length ≥ rm.want then
        s.settle rm st ((List.range data.length).map (fun i => ((data.find? (fun x => x.1 == i)).map Prod.snd).getD 0#8)) f.info
      else { s with pk := { s.pk with remotes := s.pk.remotes.map (fun x => if x.ctx == rm.ctx then { x with data := data } else x) } })

/-- Bytes that a flat access of a core may touch from its offset on. -/
def flatLen (b : FlatReq) : Nat := if isGather b.opc then 2 ^ 39 else (if isVecMem b.opc then 32 else 1) * max 4 ((flatOp b).t.width / 8)
/-- The offsets [lo, hi) that an access may touch. -/
def flatSpan (b : FlatReq) : Nat × Nat :=
  if plainReq b then
    let as := (flatBytes b).map Prod.fst
    ((lowest as).getD 0, as.foldl (fun m a => max m (a + 1)) 0)
  else (b.off, b.off + flatLen b)
/-- R194: an earlier access of the core to the same bytes takes effect first. -/
def State.behind (s : State) (rm : Remote) : Bool :=
  let y := flatSpan rm.body
  rm.chan.isNone && (s.pk.remotes.takeWhile (fun x => x.ctx != rm.ctx)).any (fun x =>
    let z := flatSpan x.body
    x.chan.isNone && x.clus == rm.clus && x.core == rm.core && x.body.rank == rm.body.rank && x.far == rm.far && decide (z.1 < y.2 ∧ y.1 < z.2))
/-- Is a request of this module to itself at its target already: held while its rank moves, or waiting for a third module? -/
def State.atTarget (s : State) (rm : Remote) : Bool :=
  s.pk.heldReqs.any (fun x => x.1 == 0xFFFF && x.2.req == rm.ctx) || s.pk.proxies.any (fun p => p.port == 0xFFFF && p.req.req == rm.ctx)

/-- FLAT_ACCESS_AT_TARGET (R276, R335): an access of another module, or one of this module that crosses the package. -/
def execFlatAccessAtTarget (r : FlatReq) (s : State) : Result :=
  match s.pk.remotes.find? (fun x => x.port == 0xFFFF && x.body == r && !x.held) with
  | none => .next (s.serve (s.routeOf r.smod r.req) r)
  | some rm => if s.behind rm || s.atTarget rm then .next s else .next (s.serve 0xFFFF rm.body)

/-! ## Links (R332 to R334) -/

/-- Did flits of a collective cross a port, without an outcome (R332, R350)? A member without chunks has no outcome of its own. -/
def collCrossed (k : Coll) (port : Nat) : Bool := k.failed.isNone && (k.flagged.isNone || k.chunks.isEmpty) && k.crossed.contains port

def flagWord (k : Coll) (fail : Bool) (why : Nat) : Word64 :=
  BitVec.ofNat 64 (flag64 fail 63 + why * 2 ^ 56 + k.tag % 256 * 2 ^ 48 + k.cid * 2 ^ 32 + min k.late (2 ^ 32 - 1))

/-- Where a byte of a collective buffer lies: at its place in the machine, or at an offset of the footprint image of a member that does not hold
its seat's banks (R294, R295). -/
inductive Spot where
  | loc (l : Loc)
  | img (o : Nat)
  deriving DecidableEq, Repr
def Spot.at_ : Spot → Option Loc | .loc l => some l | .img _ => none
def Spot.off : Spot → Option Nat | .img o => some o | .loc _ => none

/-- Does a rank hold the banks of its seat (R294)? -/
def Rank.seated (r : Rank) : Option Nat := if r.st == .running || r.st == .idleActive then r.base else none
/-- The banks of a core in the image of a rank. -/
def Image.banksOf (im : Image) (clus core : Nat) : Banks := (im.banks.find? (fun b => b.clus == clus && b.core == core)).getD (banks0 clus core)
def Image.memory (im : Image) : Memory := ⟨im.cells, im.indet⟩

/-- A byte of a collective buffer at a member (R338): in the scratchpad of its footprint, or in a page of the rank, which may lie in another
module (R275, log 23). -/
def State.collAt (s : State) (k : Coll) (a : Nat) (wr : Bool) : Option Spot :=
  let va := a % 2 ^ 56
  let fc := a / 2 ^ 56
  match s.rankOf k.job k.rank with
  | none => none
  | some rk =>
    if inWindow va then
      let spad := fun (b : Banks) => b.mode (winIn va / 0x10000) == 0
      match rk.seated with
      | some b => if spad (s.banksOf (b + fc) (winCore va)) then some (.loc (.spad (b + fc) (winCore va) (winIn va))) else none
      | none => if spad (rk.image.banksOf fc (winCore va)) then some (.img ((fc * 128 + winCore va) * 2 ^ 18 + winIn va)) else none
    else match s.translate k.job k.rank va with
      | .ok t =>
        let l := s.locOf ({ core0 0 0 with job := k.job, rank := k.rank }.hold t) va
        if (if wr then !t.w else !t.r) || (match l, s.jobOf k.job with | .flat n _, some j => decide (n > j.nrank) | _, _ => false) then none else some (.loc l)
      | .error _ => none
/-- The byte at such a place, at its home, or as another module sent it. -/
def State.collGet (s : State) (k : Coll) : Spot → Byte
  | .loc l => if l.away then ((k.got.find? (fun x => x.1 == l)).map Prod.snd).getD 0#8 else s.mem.get l.key
  | .img o => match s.rankOf k.job k.rank with | some rk => rk.image.memory.get o | none => 0#8
/-- Is it poisoned for a read (R245, R281)? -/
def State.collPoisoned (s : State) (k : Coll) : Spot → Bool
  | .loc (.spad c x o) => s.blockPoisoned c x o
  | .loc l => l.poisonedAt s
  | .img o => match s.rankOf k.job k.rank with | some rk => rk.image.blocks.contains (o / 128) | none => false
/-- May no byte be written there, for the page is poisoned (R343)? -/
def Spot.pageBad (s : State) : Spot → Bool | .loc l => l.pageBad s | .img _ => false

/-- Bytes written to the image of a rank; a block that is written whole is poisoned no more (R245). -/
def Image.write (im : Image) (xs : List (Nat × Byte)) : Image :=
  let m := xs.foldl (fun (m : Memory) x => m.put x.1 x.2) im.memory
  { im with
    cells := m.cells
    blocks := im.blocks.filter (fun b => decide (((xs.map Prod.fst).eraseDups.filter (fun o => o / 128 == b)).length < 128)) }
/-- Bytes among some that other modules still have to send for a collective. -/
def Coll.missing (k : Coll) (xs : List (Option Spot)) : List Loc :=
  ((xs.filterMap (fun x => x.bind Spot.at_)).filter (fun l => l.away && !k.got.any (fun y => y.1 == l))).eraseDups
/-- The port's requests for a collective (R275): a failure has the reason `why`. -/
def Coll.core (k : Coll) : Core := { core0 collClus k.rank with job := k.job, rank := k.rank }
def State.collAsk (s : State) (k : Coll) (why : Nat) (ls : List Loc) : State := s.askBytes k.core k.cid why none ls
/-- Does a collective wait for other modules? -/
def State.collWaits (s : State) (k : Coll) : Bool :=
  s.pk.remotes.any (fun x => x.clus == collClus && x.core == k.rank && x.id == k.cid && x.body.job == k.job)

/-- Bytes written by a port at their places, without poison (R343, R345); those in other modules go there (R275). -/
def State.collPut (s : State) (k : Coll) (xs : List (Spot × Byte)) : State :=
  let ws := xs.filterMap (fun x => x.1.at_.map (fun l => (⟨l, 0xFF#8, x.2⟩ : ByteW)))
  let im := xs.filterMap (fun x => x.1.off.map (fun o => (o, x.2)))
  let s := ((s.spadWrite ws).blockPoison ws false).homeWrites ws
  let s := (writeBodies none false (ws.filter (fun w => w.loc.away))).foldl (fun (s : State) x => s.request k.core k.cid 8 0 x.1 none x.2) s
  match (if im.isEmpty then none else s.rankOf k.job k.rank) with
  | some rk => s.setRank { rk with image := rk.image.write im }
  | none => s
/-- Bytes at a place and after it become indeterminate. -/
def State.collBlur (s : State) (k : Coll) (n : Nat) : Spot → State
  | .loc l => if l.away then s else { s with mem := s.mem.blur l.key n s.free, free := s.free + n }
  | .img o => match s.rankOf k.job k.rank with
    | some rk =>
      let m := rk.image.memory.blur o n s.free
      { s.setRank { rk with image := { rk.image with cells := m.cells, indet := m.indet } } with free := s.free + n }
    | none => s

def State.setColl (s : State) (i : Nat) (k : Coll) : State := { s with pk := { s.pk with colls := s.pk.colls.set i k } }

/-- The flag word is written (R345); its acquire reaches every core of the footprint (R272). -/
def State.writeFlag (s : State) (i : Nat) (k : Coll) (w : Word64) : State :=
  let s := s.collPut k (((leBytes 8 w.toNat).mapIdx (fun j b => (s.collAt k (k.flag + j) true).map (fun l => (l, b)))).filterMap id)
  let s := s.setColl i { k with flagged := some w }
  if w.getLsbD 63 then s
  else s.mapCores (fun c => if c.job == k.job && c.rank == k.rank then { c with acq := max c.acq s.beat, l1 := [] } else c)

/-- A span in pieces that no boundary of 128 bytes divides: what lies in one block, or in one page. -/
def cuts (x : Nat × Nat) : List (Nat × Nat) :=
  (List.range ((x.1 % 128 + x.2 + 127) / 128)).map (fun i =>
    let lo := max x.1 ((x.1 / 128 + i) * 128)
    (lo, min (x.1 + x.2) ((x.1 / 128 + i + 1) * 128) - lo))
/-- Bytes of a failed collective become indeterminate (R350). -/
def State.blurColl (s : State) (k : Coll) : State :=
  let spans := k.chunks.flatMap (fun c => (c.addr, c.len) :: (if c.opf == 0 then [] else [(c.stg, c.nop * c.len)]))
  (spans.flatMap cuts).foldl (fun (s : State) x =>
    match s.collAt k x.1 true with
    | some l => s.collBlur k x.2 l
    | none => s) s

/-- ABORT flits to every member module, or to the members here (R350). -/
def State.sendAborts (s : State) (k : Coll) (why : Nat) : State :=
  let own := s.ownModule k.job
  ((k.memb.map (fun r => s.mapEntry k.job r)).eraseDups.filter (fun m => m != own)).foldl (fun (s : State) m =>
    s.sendFlit (s.routeOf m 0) 6 m own k.tag 0 (leBytes 8 (k.cid + why * 65536 + k.tag % 256 * 2 ^ 24 + k.job * 2 ^ 32) ++ leBytes 8 k.me)) s

/-- A member fails a collective (R350): no further send, discarded flits, the failure flag; its flag stands if it was
written. -/
def State.failAt (s : State) (i why : Nat) : State :=
  match s.pk.colls[i]? with
  | none => s
  | some k =>
    if k.failed.isSome then s
    else
      let k' := { k with failed := some why }
      if k.flagged.isSome then s.setColl i k'
      else ((s.setColl i k').writeFlag i k' (flagWord k' true why)).blurColl k

/-- The members of a collective on this module. -/
def State.collsWith (s : State) (job cid : Nat) : List Nat :=
  (List.range s.pk.colls.length).filter (fun i => match s.pk.colls[i]? with | some k => k.job == job && k.cid == cid | none => false)

/-- Transfers and flits of a rank are checked against its accepted tag (R347). -/
def State.tagOf (s : State) (job rank tag : Nat) : Nat := match s.rankOf job rank with | some r => r.atag | none => tag
def State.lateRank (s : State) (job rank : Nat) : State :=
  match s.rankOf job rank with | some r => s.setRank { r with latec := min (r.latec + 1) (2 ^ 32 - 1) } | none => s
/-- A flit of a collective with another tag is dropped, and counted at its member (R347). -/
def State.tagged (s : State) (i tag : Nat) (go : State → State) : State :=
  match s.pk.colls[i]? with
  | none => s
  | some k => if tag % 256 == s.tagOf k.job k.rank k.tag then go s
    else (s.lateRank k.job k.rank).setColl i { k with late := min (k.late + 1) (2 ^ 32 - 1) }
/-- An abort reaches the members of a collective here (R350), and one whose time is over too has met its timeout (R351). -/
def State.abortHere (s : State) (is : List Nat) (tag why : Nat) : State :=
  is.foldl (fun (s : State) i => s.tagged i tag (fun s =>
    s.failAt i (match s.pk.colls[i]? with | some k => if why == 2 && decide (k.tmo ≤ s.beat) then 2 else 1 | none => 1))) s

/-- A failure found here (R350): the member fails with the reason, the others with an abort. -/
def State.failColl (s : State) (i why : Nat) : State :=
  match s.pk.colls[i]? with
  | none => s
  | some k =>
    if k.failed.isSome then s
    else
      let s := (s.failAt i why).sendAborts k why
      s.abortHere ((s.collsWith k.job k.cid).filter (fun j => j != i)) k.tag why

/-- Every collective of a rank fails (R302, R350). -/
def State.failRank (s : State) (job rank why : Nat) : State :=
  (List.range s.pk.colls.length).foldl (fun (s : State) i => match s.pk.colls[i]? with
    | some k => if k.job == job && k.rank == rank then s.failColl i why else s
    | none => s) s

/-- A link dies: what crossed it and has no outcome fails with dead link (R332, R350). -/
def State.killPort (s : State) (n : Nat) : State :=
  let s := s.setPort { s.portOf n with alive := false }
  let s := (s.pk.remotes.filter (fun x => x.port == n && !x.held)).foldl (fun (s : State) x => s.settle x 5 [] 0) s
  (List.range s.pk.colls.length).foldl (fun (s : State) i => match s.pk.colls[i]? with
    | some k => if collCrossed k n then s.failColl i 3 else s
    | none => s) s

/-- LINK_RETRY (R332): a flit is resent; the sixteenth failure in a row kills the link. -/
def execLinkRetry (port : Nat) (s : State) : Result :=
  if port ≥ 144 then .fault .noSuchInput
  else
    let p := s.portOf port
    if !p.alive then .next s
    else if p.retries + 1 ≥ 16 then .next (s.killPort port)
    else .next (s.setPort { p with retries := p.retries + 1 })

/-- LINK_SILENCE_TIMEOUT (R332, R333): a silent link dies; requests over a dead one fail. -/
def execLinkSilenceTimeout (port : Nat) (s : State) : Result :=
  if port ≥ 144 then .fault .noSuchInput
  else
    let p := s.portOf port
    if !p.alive || decide (p.last + 4096 ≤ s.beat) then .next (s.killPort port) else .next s

/-- LINK_BRING_UP (R331, R332). -/
def execLinkBringUp (port flight : Nat) (s : State) : Result :=
  if port ≥ 144 then .fault .noSuchInput
  else .next (s.setPort { s.portOf port with alive := true, retries := 0, last := s.beat, flight := flight, seen := none })

/-- BEAT_FLIT (R331, R334): a link whose alignment check fails is dead. -/
def execBeatFlit (f : Flit) (s : State) : Result :=
  s.arrive f 8 (fun s =>
    let p := s.portOf f.port
    let b := fWord f 0
    let s := s.setPort { p with seen := some (b, s.beat) }
    let far := b + p.flight
    if s.pk.beatRef && (decide (far > s.beat + 16) || decide (s.beat > far + 16)) then s.killPort f.port else s)

/-! ## Collective receive (R343, R344, R347) -/

/-- Bytes that a chunk expects (R340). -/
def Chunk.expect (c : Chunk) : Nat := c.len * (c.nop - (if c.local0 then 1 else 0))

/-- Bytes of one transfer arrive at a member (R343, R347). -/
def State.collPlace (s : State) (i chunk slot off tag : Nat) (data : List Byte) : State :=
  match s.pk.colls[i]? with
  | none => s
  | some k =>
    if k.failed.isSome then s
    else s.tagged i tag (fun s => match k.chunks[chunk]? with
    | none => s.failColl i 6
    | some c =>
      if off + data.length > c.len || c.count + data.length > c.expect then s.failColl i 6
      else
        let a := if c.opf == 0 then c.addr + off else c.stg + slot * c.len + off
        let ls := (List.range data.length).map (fun j => s.collAt k (a + j) true)
        if ls.any Option.isNone || (ls.filterMap id).any (fun l => l.pageBad s) then s.failColl i 8
        else
          let n := c.count + data.length
          let full := decide (n = c.expect)
          let c' := { c with count := n, full := if full then some s.beat else none, done := if full && c.opf == 0 then some s.beat else none }
          (s.collPut k ((ls.filterMap id).zip data)).setColl i { k with chunks := k.chunks.set chunk c' })

/-- The member here that a collective flit is for (log 21). -/
def State.collFor (s : State) (job rank cid : Nat) : Option Nat :=
  (List.range s.pk.colls.length).find? (fun i => match s.pk.colls[i]? with
    | some k => k.cid == cid && k.job == job && k.rank == rank && k.flagged.isNone | none => false)

/-- A transfer for a rank that has moved from this module: it fails the collective here, and its sender's module hears of it (R350). -/
def State.movedTarget (s : State) (job rank : Nat) : Bool := (s.rankOf job rank).isNone && s.pk.tombs.any (fun t => t.job == job && t.rank == rank)
/-- Collective data for a rank that has not armed the collective: dropped, and counted where its tag differs (R347). -/
def State.strayFlit (s : State) (job rank cid tag smod : Nat) : State :=
  if s.movedTarget job rank then
    let s := (s.collsWith job cid).foldl (fun (s : State) i => s.failColl i 4) s
    let own := s.ownModule job
    if smod == own then s
    else s.sendFlit (s.routeOf smod 0) 6 smod own tag 0 (leBytes 8 (cid + 4 * 65536 + tag % 256 * 2 ^ 24 + job * 2 ^ 32))
  else if tag % 256 != s.tagOf job rank (tag % 256) then s.lateRank job rank
  else s

/-- Transfers inside the module whose time has come are placed, as the beat begins (R343, R348). -/
def State.landTransfers (s : State) : State :=
  (s.pk.transfers.filter (fun x => decide (x.due ≤ s.beat))).foldl (fun (s : State) x =>
    match s.collFor x.job x.rank x.cid with
    | some i => s.collPlace i x.chunk x.slot x.off x.tag x.data
    | none => s.strayFlit x.job x.rank x.cid x.tag (s.ownModule x.job))
    { s with pk := { s.pk with transfers := s.pk.transfers.filter (fun x => !decide (x.due ≤ s.beat)) } }

/-- COLLECTIVE_DATA_FLIT (R330, R343, R347). -/
def execCollectiveDataFlit (f : Flit) (s : State) : Result :=
  s.arrive f 5 (fun s =>
    let w := fWord f 0
    match s.collFor f.job f.rank (bits w 0 16) with
    | none => s.strayFlit f.job f.rank (bits w 0 16) (fTag f) (fSmod f)
    | some i =>
        let chunk := bits w 16 16
        let off := bits w 36 28
        s.collPlace i chunk (bits w 32 4) off (fTag f) ((f.payload.drop 8).take f.count))

/-- ABORT_FLIT (R331, R350). -/
def execAbortFlit (f : Flit) (s : State) : Result :=
  s.arrive f 6 (fun s =>
    let w := fWord f 0
    s.abortHere (s.collsWith (bits w 32 32) (bits w 0 16)) (bits w 24 8) (bits w 16 7))

/-- A SHIFT reaches the members here (R352): each one once; a member that has failed or has its flag needs none. -/
def State.takeShift (s : State) (job cid tag sender num pl : Nat) : State :=
  (s.collsWith job cid).foldl (fun (s : State) i => match s.pk.colls[i]? with
    | some k => if k.me == sender || k.seen.contains (sender, num) then s
      else s.tagged i tag (fun s => s.setColl i { k with seen := (sender, num) :: k.seen, pshift := k.pshift ++ [(s.beat, pl)] })
    | none => s) s

/-- SHIFT_FLIT (R331, R352). -/
def execShiftFlit (f : Flit) (s : State) : Result :=
  s.arrive f 7 (fun s =>
    let w := fWord f 0
    let v := fWord f 1
    s.takeShift (bits w 32 32) (bits w 0 16) (bits w 24 8) (bits v 32 16) (bits v 48 16) (bits v 0 32))

/-- R352: a cancelled phase of a member sends SHIFT flits for its armed collectives, and shifts its own stamps. -/
def State.sendShifts (s : State) (job rank pl : Nat) : State :=
  (List.range s.pk.colls.length).foldl (fun (s : State) i => match s.pk.colls[i]? with
    | none => s
    | some k =>
      if k.job != job || k.rank != rank || k.flagged.isSome then s
      else
        let own := s.ownModule job
        let n := k.nshift
        let s := ((k.memb.map (fun r => s.mapEntry job r)).eraseDups.filter (fun m => m != own)).foldl (fun (s : State) m =>
          s.sendFlit (s.routeOf m 0) 7 m own k.tag 0 (leBytes 8 (k.cid + k.tag % 256 * 2 ^ 24 + job * 2 ^ 32) ++
            leBytes 8 (pl + k.me * 2 ^ 32 + n * 2 ^ 48))) s
        let s := s.takeShift job k.cid k.tag k.me n pl
        s.setColl i { k with
          nshift := n + 1, tmo := k.tmo + pl
          sends := k.sends.map (fun x => if x.sent then x else { x with ofs := x.ofs + pl }) }) s

/-- R352: at a commit, shifts that arrived at least 64 beats before are applied; their sum of beats. -/
def State.applyShifts (s : State) (job rank : Nat) : State × Nat :=
  (List.range s.pk.colls.length).foldl (fun (x : State × Nat) i => match x.1.pk.colls[i]? with
    | none => x
    | some k =>
      if k.job != job || k.rank != rank then x
      else
        let go := (k.pshift.filter (fun p => decide (p.1 + 64 ≤ s.beat))).foldl (fun n p => n + p.2) 0
        (x.1.setColl i { k with
          pshift := k.pshift.filter (fun p => !decide (p.1 + 64 ≤ s.beat))
          tmo := k.tmo + go
          sends := k.sends.map (fun y => if y.sent then y else { y with ofs := y.ofs + go }) }, x.2 + go)) (s, 0)

/-! ## Collective send (R342, R348, R349) -/

/-- Where the bytes of a buffer of a collective lie at its member. -/
def State.collSpots (s : State) (k : Coll) (a n : Nat) (wr : Bool) : List (Option Spot) := (List.range n).map (fun j => s.collAt k (a + j) wr)
/-- Source bytes of a send as they stand at their homes, or failed (R342): a byte whose read finds an uncorrectable error poisons its page as
it is found (R279), and is a poisoned one here. -/
def State.collRead (s : State) (k : Coll) (a n : Nat) : Option (List Byte) :=
  let ls := s.collSpots k a n false
  if ls.any Option.isNone || (ls.filterMap id).any (s.collPoisoned k) then none else some ((ls.filterMap id).map (s.collGet k))

/-- A transfer leaves for a member: over the package when it is here, in a time that no rule fixes, else in flits of 48 bytes (R330, R348); over a
dead link it is lost (R350). `me` is the sending collective. -/
def State.collSend (s : State) (me : Nat) (k : Coll) (dmem chunk slot off : Nat) (data : List Byte) : State :=
  let r := k.memb.getD dmem 0
  let own := s.ownModule k.job
  if s.mapEntry k.job r == own || s.pk.colls.any (fun x => x.job == k.job && x.cid == k.cid && x.rank == r) then
    { s with
      free := s.free + 1
      pk := { s.pk with transfers := s.pk.transfers ++ [⟨k.job, r, k.cid, chunk, slot, off, k.tag, data, s.beat + 1 + Config.transferDelay s.free⟩] } }
  else
    let m := s.mapEntry k.job r
    let port := s.routeOf m 0
    if !(s.portOf port).alive then s.failColl me 3
    else
      let s := match s.pk.colls[me]? with | some x => s.setColl me { x with crossed := port :: x.crossed.filter (fun p => p != port) } | none => s
      (flitPieces data).foldl (fun (s : State) x =>
        s.sendFlitOf port 5 m own k.tag 0 x.1.length k.job r
          (leBytes 8 (k.cid + chunk * 65536 + slot * 2 ^ 32 + (off + x.2) * 2 ^ 36) ++ x.1) none 0) s

/-- The destination index of an element of the exchange (R349). -/
def permIndex (perm : List Nat) (g : Nat) : Nat :=
  (perm.mapIdx (fun i p => if g.testBit p then 2 ^ i else 0)).foldl (· + ·) 0

/-- May the send start (R342)? -/
def State.sendReady (s : State) (k : Coll) (x : Send) : Bool :=
  !x.sent && k.failed.isNone && decide (k.armed ≤ s.beat) &&
  (if x.trig then (match x.fire with | some b => decide (b ≤ s.beat) | none => false)
   else decide (x.ofs ≤ s.beat) && (x.after == 0 || (match k.chunks[x.after - 1]? with
     | some c => (match c.done with | some d => decide (d + 1 ≤ s.beat) | none => false) | none => false)))

/-- COLLECTIVE_SEND (R342, R349, R352): the source is read at the start beat and sent. -/
def execCollectiveSend (coll send : Nat) (s : State) : Result :=
  match s.pk.colls[coll]? with
  | none => .next s
  | some k =>
    match k.sends[send]? with
    | none => .next s
    | some x =>
      if !s.sendReady k x then .next s
      else if !k.pshift.isEmpty && !x.trig then .next (s.failColl coll 5)
      else match k.missing (s.collSpots k x.src x.len false) with
      | l :: ls => .next (if s.collWaits k then s else s.collAsk k 7 (l :: ls))
      | [] =>
        let s := s.setColl coll { k with sends := k.sends.set send { x with sent := true }, got := [] }
        if k.kind == 1 then
          let n := 2 ^ k.lbits
          .next ((List.range n).foldl (fun (s : State) l =>
            match s.pk.colls[coll]? with
            | none => s
            | some k' =>
              if k'.failed.isSome then s
              else match s.collRead k (x.src + 2 ^ k.le * l) (2 ^ k.le) with
              | none => s.failColl coll 7
              | some bs =>
                let g := permIndex k.perm (k.me * n + l)
                s.collSend coll k (g / n) 0 0 (2 ^ k.le * (g % n)) bs) s)
        else match s.collRead k x.src x.len with
          | none => .next (s.failColl coll 7)
          | some bs => .next (s.collSend coll k x.dmem x.dch x.slot x.doff bs)

/-- One element of a fold (R344). -/
def foldElem (f32 : Bool) (ops : List Nat) : Nat :=
  match ops with
  | [] => 0
  | a :: r => r.foldl (fun acc b =>
      if f32 then (Bin.f32.round Rnd.rneGrad (xsum [Bin.f32.decode acc, Bin.f32.decode b]).v).pat
      else wrap 32 (clampInt (signedOf 32 acc + signedOf 32 b) (-(2 ^ 31 : Nat)) ((2 ^ 31 : Nat) - 1))) a

/-- COLLECTIVE_FOLD (R344): a full sum chunk is folded in slot order. -/
def execCollectiveFold (coll chunk : Nat) (s : State) : Result :=
  match s.pk.colls[coll]? with
  | none => .next s
  | some k =>
    match k.chunks[chunk]? with
    | none => .next s
    | some c =>
      if k.failed.isSome || c.full.isNone || c.done.isSome || c.opf == 0 || s.collWaits k then .next s
      else match k.missing (s.collSpots k c.addr c.len true ++ s.collSpots k c.stg (c.nop * c.len) true) with
      | l :: ls => .next (s.collAsk k 8 (l :: ls))
      | [] =>
        -- the port, which may write the bytes, reads them for the fold
        let rd := fun (a : Nat) => leNat ((List.range 4).map (fun j => match s.collAt k (a + j) true with | some l => s.collGet k l | none => 0#8))
        let out := (List.range (c.len / 4)).map (fun e =>
          foldElem (c.opf == 1) ((List.range c.nop).map (fun n => if n == 0 && c.local0 then rd (c.addr + 4 * e) else rd (c.stg + n * c.len + 4 * e))))
        let ls := (List.range c.len).map (fun j => s.collAt k (c.addr + j) true)
        if ls.any Option.isNone || (ls.filterMap id).any (fun l => l.pageBad s) then .next (s.failColl coll 8)
        else
          .next ((s.collPut k ((ls.filterMap id).zip (out.flatMap (leBytes 4)))).setColl coll { k with got := [], chunks := k.chunks.set chunk { c with done := some s.beat } })

/-- COLLECTIVE_COMPLETE (R345): every chunk is complete; the flag word is written. -/
def execCollectiveComplete (coll : Nat) (s : State) : Result :=
  match s.pk.colls[coll]? with
  | none => .next s
  | some k =>
    if k.failed.isSome || k.flagged.isSome || decide (s.beat < k.armed) || k.chunks.any (fun c => c.done.isNone) || s.collWaits k then .next s
    else .next (s.writeFlag coll k (flagWord k false 0))

/-- COLLECTIVE_TIMEOUT (R351); and the failure of a buffer in another module (R343, R342). -/
def execCollectiveTimeout (coll : Nat) (s : State) : Result :=
  match s.pk.colls[coll]? with
  | none => .next s
  | some k =>
    if k.failed.isSome then .next s
    else match k.bad with
    | some why => .next (s.failColl coll why)
    | none => if k.flagged.isSome || decide (s.beat < k.tmo) then .next s else .next (s.failColl coll 2)

/-! ## The map (R353) -/

def State.setJob (s : State) (j : Job) : State :=
  { s with pk := { s.pk with jobs := s.pk.jobs.map (fun x => if x.job == j.job then j else x) } }

/-- Are accesses to a rank outstanding (R353)? -/
def State.accessesTo (s : State) (job rank : Nat) : Bool :=
  s.pk.remotes.any (fun x => x.far.isNone && x.body.job == job && x.body.rank == rank && !x.held)

/-- Accesses that waited for a map entry go out (R353). -/
def State.sendHeld (s : State) (job rank : Nat) : State :=
  (s.pk.remotes.filter (fun x => x.held && x.body.job == job && x.body.rank == rank)).foldl (fun (s : State) x =>
    let dmod := s.mapEntry job rank
    let own := s.ownModule job
    let port := if dmod == own then 0xFFFF else s.routeOf dmod x.ctx
    let s := { s with pk := { s.pk with remotes := s.pk.remotes.map (fun y => if y.ctx == x.ctx then { y with held := false, port := port } else y) } }
    if dmod == own || !(s.portOf port).alive then s else s.sendBody port dmod x.ctx x.want x.body) s

/-- A rank's entry names this module: its move is over here (R354). -/
def State.arrivedHere (s : State) (job rank : Nat) (entry : Half) : State :=
  if entry.toNat % 4096 == s.ownModule job then { s with pk := { s.pk with inbound := s.pk.inbound.filter (fun x => x != (job, rank)) } } else s
/-- MAP_ADOPT (R353): a new entry waits until no access to the rank is outstanding, and is then adopted. -/
def execMapAdopt (job rank : Nat) (entry : Half) (s : State) : Result :=
  match s.jobOf job with
  | none => .next s
  | some j =>
    if s.accessesTo job rank then
      .next (s.setJob { j with newMap := (rank, entry) :: j.newMap.filter (fun x => x.1 != rank) })
    else
      .next ((s.setJob { j with
        map := (rank, entry) :: j.map.filter (fun x => x.1 != rank)
        newMap := j.newMap.filter (fun x => x.1 != rank) }).arrivedHere job rank entry |>.sendHeld job rank)

/-! ## Migration (R354 to R356) -/

/-- R328: a failed authentication: eight in a row raise the alarm to 1, sixteen to 2. -/
def alarmSrc (a src level : Nat) : Nat := (bits a 4 4 ||| src) * 16 + max (bits a 0 2) level
def State.authFail (s : State) : State :=
  let n := s.pk.authFails + 1
  { s with pk := { s.pk with
    authFails := n
    alarm := if n ≥ 16 then alarmSrc s.pk.alarm 4 2 else if n ≥ 8 then alarmSrc s.pk.alarm 4 1 else s.pk.alarm
    keysErased := s.pk.keysErased || decide (n ≥ 16)
    alarmDue := s.pk.alarmDue || n == 16 } }
def State.authOk (s : State) : State := { s with pk := { s.pk with authFails := 0 } }

/-- A table entry is written at its home (R273). -/
def State.putEntry (s : State) (pa e : Nat) : State :=
  (List.range 8).foldl (fun (s : State) i => s.homeWrite (pa + i) 0xFF#8 (BitVec.ofNat 8 (e / 256 ^ i))) s

/-- R354: the target of a move writes its stage-2 leaf for a page that arrives, from a level of its table downward. A leaf that names this
module stays; one that names another takes a page of this module; where none is, a leaf of 4 KiB and the tables to it are made. Which
physical pages, and the rights of a new leaf, are not stated (log 22). -/
def State.mapMoved (own page : Nat) : Nat → Nat → State → State
  | level, table, s =>
    let pa := table + 8 * levelIndex level page
    let pick := Config.movedPage s.free
    let fresh := fun (size : Nat) => pick.1 % 0xC000000 * 4096 / size * size
    let u := { s with free := s.free + 1 }
    match s.entryAt pa with
    | none => s
    | some e =>
      if e.testBit 0 && e.testBit 1 then
        let size := psSize (bits e 5 3)
        if bits e 52 12 == own then s
        else if grouped (bits e 5 3) then
          (List.range 16).foldl (fun (u : State) i =>
            u.putEntry (table + 8 * (levelIndex level page / 16 * 16 + i)) (e % 4096 + fresh size + own * 2 ^ 52)) u
        else u.putEntry pa (e % 4096 + fresh size + own * 2 ^ 52)
      else match level with
        | 0 => u.putEntry pa (3 + 4 * pick.2.toNat + fresh 4096 + own * 2 ^ 52)
        | k + 1 =>
          if e.testBit 0 then State.mapMoved own page k (bits e 12 30 * 4096) s
          else
            let t := fresh 4096
            let u := (List.range 4096).foldl (fun (u : State) i => u.homeWrite (t + i) 0xFF#8 0#8) u
            State.mapMoved own page k t (u.putEntry pa (t + 1))

/-- The bytes of a sealed unit of which a migration flit brings a piece, how many they are: a page, or as many as it names for a rank record
(R355, log 22); and its piece, by place. -/
def pageUnit : Nat := 64 + 4096 + 16
def unitSize (f : Flit) : Nat := if bits (fWord f 1) 40 8 == 0 then fWord f 2 else pageUnit
def unitPiece (f : Flit) : List (Nat × Byte) :=
  let off := bits (fWord f 1) 0 40
  ((f.payload.drop 24).take (unitSize f - off)).mapIdx (fun i b => (off + i, b))

/-- MIGRATION_FLIT (R331, R333, R354, R355): pieces of a sealed unit, in any order; it opens when all of it is here. -/
def execMigrationFlit (f : Flit) (s : State) : Result :=
  s.arrive f 9 (fun s =>
    let job := bits (fWord f 0) 0 32
    let rank := bits (fWord f 0) 32 16
    let unit := bits (fWord f 1) 40 8
    let page := if unit == 0 then 0 else fWord f 2
    let key := fun (m : MigIn) => m.job == job && m.rank == rank && m.unit == unit && m.page == page
    let old := (s.pk.migs.find? key).getD ⟨job, rank, unit, page, []⟩
    let bs := old.bytes ++ unitPiece f
    let rest := s.pk.migs.filter (fun m => !key m)
    if bs.length < unitSize f then { s with pk := { s.pk with migs := ⟨job, rank, unit, page, bs⟩ :: rest } }
    else
      let all := (List.range (unitSize f)).map (fun i => ((bs.find? (fun x => x.1 == i)).map Prod.snd).getD 0#8)
      let s := { s with pk := { s.pk with migs := rest } }
      match (if s.pk.keysErased then none else aesOpen (s.keyFor 2 job (fSmod f)) (all.take 64) (all.drop 64)) with
      | none =>
        -- the move is over, and the rank stays where it was (R354)
        { s.authFail with pk := { s.authFail.pk with inbound := s.pk.inbound.filter (fun x => x != (job, rank)) } }
      | some plain =>
        let s := s.authOk
        if unit == 0 then
          if (s.jobOf job).isNone || (s.rankOf job rank).isSome then s
          else { s with pk := { s.pk with
            ranks := s.pk.ranks ++ [{ openRank plain with job := job, rank := rank }]
            inbound := (job, rank) :: s.pk.inbound.filter (fun x => x != (job, rank))
            tombs := s.pk.tombs.filter (fun t => !(t.job == job && t.rank == rank)) } }
        else match s.jobOf job with
          | none => s
          | some j =>
            let s := State.mapMoved j.modnum page 4 j.root2 s
            match s.walk2 j.root2 page with
            | .ok l => ((List.range 4096).zip plain).foldl (fun (s : State) x => s.homeWrite (leafPa l (page + x.1)) 0xFF#8 x.2) s
            | .error _ => s)

/-- What one leaf entry of a table maps: the input addresses from `va` on, the address of the entry, the entry; each of the 16 entries of a
grouped leaf maps its own part of the page (R273). -/
structure LeafAt where
  va : Nat
  at_ : Nat
  e : Nat
  span : Nat
  deriving DecidableEq, Repr
/-- Its output address, with the output base of its page. -/
def LeafAt.out (x : LeafAt) (base : Nat) : Nat := base + x.va % psSize (bits x.e 5 3)
def LeafAt.pa (x : LeafAt) : Nat := x.out (bits x.e 12 30 * 4096)
/-- Entries of a table at a level: the root has 256 (R273). -/
def tableSize (level : Nat) : Nat := if level == 4 then 256 else 512
/-- Every leaf entry of a table. -/
def leavesOf (rd : Nat → Option Nat) : Nat → Nat → Nat → List LeafAt
  | level, table, va =>
    (List.range (tableSize level)).flatMap (fun i =>
      match rd (table + 8 * i) with
      | none => []
      | some e =>
        if !e.testBit 0 then []
        else if e.testBit 1 then [⟨va + i * 2 ^ levelShift level, table + 8 * i, e, 2 ^ levelShift level⟩]
        else match level with
          | 0 => []
          | n + 1 => leavesOf rd n (bits e 12 44 * 4096) (va + i * 2 ^ levelShift (n + 1)))

/-- Every table below a root, the root among them. -/
def tablesOf (rd : Nat → Option Nat) : Nat → Nat → List Nat
  | 0, table => [table]
  | n + 1, table => table :: (List.range (tableSize (n + 1))).flatMap (fun i =>
      match rd (table + 8 * i) with
      | none => []
      | some e => if e.testBit 0 && !e.testBit 1 then tablesOf rd n (bits e 12 44 * 4096) else [])

/-- The stage-2 leaf entries of a rank's HBM4E pages in this module (R354). A rank's pages are those that its stage 1 reaches and those of its
stage-1 tables (DEDUCED, log 22). -/
def State.rankLeaves (s : State) (rk : Rank) (j : Job) : List LeafAt :=
  let rd2 := fun (p : Nat) => match s.walk2 j.root2 p with | .ok l => s.entryAt (leafPa l p) | .error _ => none
  let oas := ((leavesOf rd2 4 rk.root1 0).filter (fun x => decide (x.va < spadBase))).map (fun x => (x.out (bits x.e 12 44 * 4096), x.span)) ++ (tablesOf rd2 4 rk.root1).map (fun t => (t, 4096))
  (leavesOf s.entryAt 4 j.root2 0).filter (fun x => bits x.e 52 12 == j.modnum && paHbm x.pa &&
    oas.any (fun a => decide (x.va < a.1 + a.2 ∧ a.1 < x.va + x.span)))

/-- The stage-2 leaf entries that map a physical page. -/
def State.mappers (s : State) (pg : Nat) : List LeafAt :=
  s.pk.jobs.flatMap (fun j => (leavesOf s.entryAt 4 j.root2 0).filter (fun x =>
    bits x.e 52 12 == j.modnum && decide (x.pa ≤ pg * 4096 ∧ pg * 4096 < x.pa + x.span)))

/-- Requests that were held while a rank moved are served: by the rank that stayed, or by its tombstone (R354, R356). -/
def State.serveMoved (s : State) (job rank : Nat) : State :=
  let mine := fun (x : Nat × FlatReq) => (x.2.job == job && x.2.rank == rank : Bool)
  let s' : State := { s with pk := { s.pk with heldReqs := s.pk.heldReqs.filter (fun x => !mine x) } }
  (s.pk.heldReqs.filter mine).foldl (fun (s : State) x => s.serve x.1 x.2) s'

/-- Pieces of a sealed unit as migration flits (R331). -/
def State.sendUnit (s : State) (target own job rank unit page : Nat) (bs : List Byte) : State :=
  let n := (bs.length + 31) / 32
  (List.range n).foldl (fun (s : State) i =>
    s.sendFlit (s.routeOf target i) 9 target own 0 0
      (leBytes 8 (job + rank * 2 ^ 32) ++ leBytes 8 (32 * i + unit * 2 ^ 40) ++ leBytes 8 (if unit == 0 then bs.length else page) ++
        ((bs.drop (32 * i)).take 32))) s

/-- FUNCSPLIT (R323): is the function asked of the host? -/
def State.asksHost (s : State) (f : Nat) : Bool := s.pk.funcsplit.testBit f
/-- Has a function an operation in progress: a request to the host, or a move (R323, R354)? -/
def State.inProgress (s : State) (f : Nat) : Bool :=
  (s.pk.svcs ++ s.pk.svcWait).any (fun r => r.f == f) || (f == 1 && s.pk.ranks.any (fun r => r.moving))
/-- A bit of FSREQ goes into FUNCSPLIT when its function has no operation in progress (R323). -/
def State.applySplit (s : State) : State :=
  { s with pk := { s.pk with funcsplit := (List.range 6).foldl (fun n f =>
      n + flag64 (if s.inProgress f then s.pk.funcsplit.testBit f else s.pk.fsreq.getLsbD f) f) 0 } }

/-- A move starts (R354): the rank is quiesced, sealed and sent. -/
def State.startMove (s : State) (j : Job) (r : Rank) (target : Nat) : State :=
  if target == j.modnum || s.pk.keysErased || r.moving || r.st != .parked || (s.launchOf r.job r.rank).isSome then s
  else
    let r := { r with ends := s.endpoints r }
    let s := s.setRank { r with moving := true }
    let ctr := s.pk.sealCtr
    let key := s.keyFor 2 r.job target
    let ls := s.rankLeaves r j
    let s := s.sendUnit target j.modnum r.job r.rank 0 0 (sealUnit key (sealHead 1 r.job r.rank r.step.toNat j.modnum ctr) (rankBytes r))
    let pages := ls.flatMap (fun x => (List.range (x.span / 4096)).map (fun i => (x.va + 4096 * i, x.pa + 4096 * i)))
    let s := ((pages.zip (List.range pages.length)).foldl (fun (s : State) p =>
      s.sendUnit target j.modnum r.job r.rank 1 p.1.1
        (sealUnit key (pageHead r.job p.1.1 j.modnum (ctr + 1 + p.2)) ((List.range 4096).map (fun i => s.homeByte (p.1.2 + i))))) s)
    { s with pk := { s.pk with sealCtr := ctr + 1 + pages.length } }

/-- A move whose transfer has been accepted ends (R354): the old leaves are made invalid, the map entry changes, and a tombstone stays. -/
def State.endMove (s : State) (j : Job) (r : Rank) (target : Nat) : State :=
  let mine := fun (job rank : Nat) => (job == r.job && rank == r.rank : Bool)
  let s := (s.rankLeaves r j).foldl (fun (s : State) x => s.homeWrite x.at_ 0x01#8 0#8) s
  let ep := match j.map.find? (fun x => x.1 == r.rank) with | some x => x.2.toNat / 4096 | none => 0
  let e : Half := BitVec.ofNat 16 ((ep + 1) % 16 * 4096 + target)
  ({ s with pk := { s.pk with
    ranks := s.pk.ranks.filter (fun x => !mine x.job x.rank)
    tombs := ⟨r.job, r.rank, target, false⟩ :: s.pk.tombs.filter (fun t => !mine t.job t.rank)
    jobs := s.pk.jobs.map (fun x => if x.job == r.job then { x with newMap := (r.rank, e) :: x.newMap.filter (fun y => y.1 != r.rank) } else x) } } : State).serveMoved
    r.job r.rank

/-- MIGRATION (R354, R356), in its order. Of a rank that is here: the first time it is named its move starts, chosen by the Carousel or, in
host mode, by a decision of the host alone (R323); the second time its transfer has been accepted. A target equal to this module tells
that the target refused the image: the rank stays parked here. Of a rank that is not: with this module as the target a move is
bringing it here, and its launches wait; else its first step at its new module has ended (log 22). -/
def execMigration (job rank target : Nat) (s : State) : Result :=
  match s.jobOf job, s.rankOf job rank with
  | some j, some r =>
    if target ≥ 4096 then .fault .noSuchInput
    else if r.st != .parked then .next s
    else if !r.moving then .next (if s.asksHost 1 then s else s.startMove j r target)
    else if target == j.modnum then .next ((s.setRank { r with moving := false }).authFail.serveMoved job rank).applySplit
    else .next (s.endMove j r target).applySplit
  | some j, none =>
    if target == j.modnum then .next { s with pk := { s.pk with inbound := (job, rank) :: s.pk.inbound.filter (fun x => x != (job, rank)) } }
    else .next { s with pk := { s.pk with tombs := s.pk.tombs.map (fun t => if t.job == job && t.rank == rank then { t with ended := true } else t) } }
  | none, _ => .next s

/-- TOMBSTONE_FORWARD (R356): an access to a rank that has moved goes on to its new module. -/
def execTombstoneForward (r : FlatReq) (s : State) : Result :=
  match s.pk.tombs.find? (fun t => t.job == r.job && t.rank == r.rank && !t.ended) with
  | none => .next s
  | some t =>
    let port := if s.pk.remotes.any (fun x => x.port == 0xFFFF && x.body == r) then 0xFFFF else s.routeOf r.smod r.req
    let x := s.forward port r t.target
    .next (match x.2 with | some a => x.1.answer port r a | none => x.1)

end Sys2Proof.Machine
end

