-- ==== Sys2Proof/Machine/Phase.lean ====
section
/-! DEFINITION. Buffer phases: the commit of a phase (R264, R265, R352) and its cancellation (R266, R300). -/
namespace Sys2Proof.Machine

/-! ## PHASE (R264) -/

def phaseNum (w : Word64) : Nat := bits w.toNat 0 32
def phaseNoc (w : Word64) : Bool := w.getLsbD 32
def phaseMake (num : Nat) (noc : Bool) (canc lcause : Nat) : Word64 :=
  BitVec.ofNat 64 (num % 2 ^ 32 + flag64 noc 32 + min 255 canc * 2 ^ 40 + lcause % 256 * 2 ^ 48)
/-- After a commit: NUM + 1, NOC 0. -/
def phaseNext (w : Word64) : Word64 := phaseMake (phaseNum w + 1) false (bits w.toNat 40 8) (bits w.toNat 48 8)
/-- After a cancellation: CANC + 1, LCAUSE, NOC 1. -/
def phaseCancelled (w : Word64) (cause : Nat) : Word64 := phaseMake (phaseNum w) true (bits w.toNat 40 8 + 1) cause

/-- R265: NOC := 1 in a phase with NUM = 0, or in which a core of the footprint has GM = 0. -/
def State.noteGm (s : State) : State :=
  s.pk.launches.foldl (fun (s : State) l =>
    let cs := s.footCores l.job l.rank
    if l.committed == 0 || cs.any (fun c => !c.gm) then
      s.mapFoot l.job l.rank (fun c => { c with phase := c.phase ||| 0x100000000#64 })
    else s) s

/-! ## Commit (R264) -/

/-- Is the phase of the launch complete: every core at its BUFSWAP or halted, every pending input chain complete? -/
def State.commitReady (s : State) (l : Launch) : Bool :=
  let cs := s.footCores l.job l.rank
  !l.swaps.isEmpty && l.cancel.isNone &&
  cs.all (fun c => !c.issuing || l.swaps.any (fun w => w.j == c.coreid)) &&
  cs.all (fun c => [c.chan0, c.chan1].all (fun x => x.pendIn.isNone || x.pendDone.isSome))

def State.commitDue (s : State) : Option Launch := s.pk.launches.find? s.commitReady

/-- The pending input chain becomes the current one. -/
def Chan.turn (x : Chan) : Chan := { x with curIn := x.pendIn, pendIn := none, pendDone := none }

/-- The wait for the commit ends, in a trap frame too (R101, R264). -/
def Core.endPhaseWait (c : Core) : Core :=
  let drop := fun (ws : List Wait) => ws.filter (fun w => w != .phase)
  { c with waits := drop c.waits, frame := { c.frame with waits := drop c.frame.waits } }

/-- One core at the commit beat `u`, with the beats that a shift adds (R264, R352). -/
def Core.commitPhase (c : Core) (u add : Nat) (swap : Option Nat) : Core :=
  let c := { c with
    chan0 := c.chan0.turn, chan1 := c.chan1.turn, evSaved := c.takeEvents.events, withheld := [], phase := phaseNext c.phase
    swapAt := c.swapAt.map (fun b => b + add) }
  match swap with
  | none => c
  | some t =>
    let c := c.endPhaseWait
    if c.timetabled then
      if t == u then { c with readyAt := t + 2 + add }
      else c.raise 0x06 0 c.pc (auxTiming 7 0 0) u
    else { c with readyAt := max (t + 1) (u + 2) }

/-- BUFFER_PHASE_COMMIT (R264): the phase of a launch commits; withheld copy writes are sent (R265). -/
def execBufferPhaseCommit (s : State) : Result :=
  match s.commitDue with
  | none => .next s
  | some l =>
    let cs := s.footCores l.job l.rank
    let x := s.applyShifts l.job l.rank
    let s := x.1
    let s := cs.foldl (fun (s : State) c => c.withheld.foldl (fun (s : State) f => s.sendCopy c { f with k := f.k + withheldId }) s) s
    let s := s.mapFoot l.job l.rank (fun c => c.commitPhase s.beat x.2 ((l.swaps.find? (fun w => w.j == c.coreid)).map (fun w => w.beat)))
    .next (s.setLaunch { l with committed := l.committed + 1, commitAt := s.beat, swaps := [], cancel := none, delta := l.delta + x.2 })

/-! ## Cancellation (R266) -/

/-- R266: a trap that cancels the phase, raised by a core that is not in its handler. -/
def Core.cancels (c : Core) : Option TrapReq :=
  match c.trap with
  | some r => if (r.cause == 0x09 || r.cause == 0x0F) && !c.hm && !phaseNoc c.phase then some r else none
  | none => none

/-- Where a cancellation stands. -/
inductive CancelStage where
  | start (l : Launch) (r : TrapReq)
  | rollback (l : Launch) (k : Cancel)
  | go (l : Launch) (k : Cancel)
  deriving DecidableEq, Repr

/-- Has the last beat come at which an input chain that runs again may be complete, two beats before the cores go on, in timetabled
code (R300)? -/
def State.rerunLate (s : State) (l : Launch) : Bool :=
  l.timetabled && (s.footCores l.job l.rank).any (fun c => c.waits.contains .phase && decide (c.readyAt ≤ s.beat + 2))

def State.cancelStage (s : State) (l : Launch) : Option CancelStage :=
  let cs := s.footCores l.job l.rank
  match l.cancel with
  | none =>
    if l.committed == 0 then none
    else match cs.findSome? Core.cancels with
      | some r => some (.start l r)
      | none => none
  | some k =>
    if !k.rerun then
      if decide (k.beat + 8 ≤ s.beat) && cs.all (fun c => !c.issuing || s.quiesced c) then some (.rollback l k) else none
    else if !cs.any (fun c => c.chan0.quiet || c.chan1.quiet) || s.rerunLate l then some (.go l k) else none

def State.cancelDue (s : State) : Option CancelStage := s.pk.launches.findSome? s.cancelStage

/-- R266 steps 3 and 4 on a channel: a chain started since the commit stops; the current input chain runs again. -/
def Chan.again (x : Chan) (since r : Nat) : Chan :=
  let y := if decide (x.started > since) && (x.st == 1 || x.st == 2) then x.rest 0 r else x
  let y := { y with pendIn := none, pendDone := none, quiet := false }
  match x.curIn with
  | some h => { y with st := 1, fetchAt := some (h, r + 1), cur := none, parked := 0, stopAt := none, quiet := true }
  | none => y

/-- R266 steps 2 to 5 on one core. -/
def Core.cancelPhase (c : Core) (since r : Nat) (cause add : Nat) : Core :=
  let c := { c with
    chan0 := c.chan0.again since r, chan1 := c.chan1.again since r, withheld := [], events := c.evSaved, evDue := []
    phase := phaseCancelled c.phase cause }
  if c.issuing then
    let n := c.ckNext
    let c := c.rollback
    ({ c with
      trap := none, pc := n.npc, a := { c.a with pend := n.pend }, waits := [.phase]
      readyAt := (c.swapAt.getD r) + 2 + add })
  else c

/-- PHASE_CANCEL (R266, R300): the cancellation starts; once every core has stopped, it rolls back and the input chains run
again; once they are complete, the cores go on. -/
def execPhaseCancel (s : State) : Result :=
  match s.cancelDue with
  | none => .next s
  | some (.start l r) => .next (s.setLaunch { l with cancel := some ⟨r.cause, r.beat, false⟩ })
  | some (.rollback l k) =>
    let add := if l.timetabled then l.pl else 0
    let gone := fun (x : Remote) => x.chan.isSome && (s.footCores l.job l.rank).any (fun c => c.pclus == x.clus && c.pcore == x.core &&
      (let y := c.chan (x.chan.getD 0); decide (y.started > l.commitAt) || y.curIn.isSome) && decide (x.id < withheldId))
    let s := { s with pk := { s.pk with remotes := s.pk.remotes.filter (fun x => !gone x) } }
    let olds := (s.footCores l.job l.rank).map (fun c => (coreNo c, c.a.rngt))
    let s := s.mapFoot l.job l.rank (fun c => c.cancelPhase l.commitAt s.beat k.cause add)
    let s := s.mapFoot l.job l.rank (fun c => match olds.find? (fun x => x.1 == coreNo c) with | some x => s.retable c x.2 | none => c)
    let s := s.setLaunch { l with cancel := some { k with rerun := true }, swaps := [], delta := l.delta + add }
    .next (if l.timetabled then s.sendShifts l.job l.rank l.pl else s)
  | some (.go l _) =>
    let late := (s.footCores l.job l.rank).any (fun c => c.chan0.quiet || c.chan1.quiet)
    let s := s.mapFoot l.job l.rank (fun c =>
      if c.waits.contains .phase then
        let c := c.endPhaseWait
        if l.timetabled then (if late then c.raise 0x06 0 c.pc (auxTiming 7 0 0) s.beat else c) else { c with readyAt := s.beat + 2 }
      else c)
    .next (s.setLaunch { l with cancel := none })

/-- A core whose launch is being cancelled, or ended by a firmware-routed trap, issues no bundle from eight beats after the
trap (R266, R302). -/
def State.stopped (s : State) (c : Core) : Bool :=
  match s.launchOf c.job c.rank with
  | none => false
  | some l =>
    (match l.cancel with | some k => decide (k.beat + 8 ≤ s.beat) || c.trap.isSome | none => false) ||
    (match l.stopAt with | some b => decide (b + 8 ≤ s.beat) | none => false)

end Sys2Proof.Machine
end

