-- ==== Sys2Proof/Machine/Complete.lean ====
section
/-! DEFINITION. Host queues as the device holds them: interfaces (R313, R315), rings (R316, R317), packets that are fetched and
may start (R314, R318, R320), completion records, interrupts and halts (R319, R321). -/
namespace Sys2Proof.Machine

/-! ## Interfaces (R313, R315) -/

def State.queueOf (s : State) (q : Nat) : Queue :=
  (s.pk.queues.find? (fun x => x.q == q)).getD ⟨q, 0#64, 0#64, 0#64, 0, 0, 0, 0, true, 0, 0, [], [], 0, 0⟩
def State.setQueue (s : State) (x : Queue) : State :=
  { s with pk := { s.pk with queues := x :: s.pk.queues.filter (fun y => y.q != x.q) } }

/-- The interface of a queue (R311). -/
def ifOf (q : Nat) : Nat := q / 64
def State.qif (s : State) (i : Nat) : Word64 := s.pk.qifctl.toList.getD i 0#64
def State.setQif (s : State) (i : Nat) (w : Word64) : State := { s with pk := { s.pk with qifctl := s.pk.qifctl.setIfInBounds i w } }
def qifPasid (w : Word64) : Nat := bits w.toNat 12 20
def State.ifClosed (s : State) (i : Nat) : Bool := !(s.qif i).getLsbD 0 || (s.qif i).getLsbD 2

/-- One item dropped under R315: DROPC, saturating. -/
def State.drop (s : State) (i : Nat) : State :=
  let n := (s.qif i).toNat
  s.setQif i (BitVec.ofNat 64 (n % 2 ^ 48 + min 0xFFFF (n / 2 ^ 48 + 1) * 2 ^ 48))

/-! ## Rings (R316, R317) -/

def ringLog2 (w : Word64) : Nat := bits w.toNat 0 5
def ringSize (w : Word64) : Nat := 2 ^ ringLog2 w
def ringBase (w : Word64) : Nat := w.toNat / 4096 * 4096
/-- R316: a ring of slots of `unit` bytes has a valid size and base. -/
def ringOk (w : Word64) (unit : Nat) : Bool :=
  decide (1 ≤ ringLog2 w ∧ ringLog2 w ≤ 16) && ringBase w % (unit * ringSize w) == 0

def sub32 (a b : Nat) : Nat := (a + 2 ^ 32 - b % 2 ^ 32) % 2 ^ 32
/-- The host address of the slot of count `n` (R317). -/
def Queue.slotAddr (x : Queue) (n : Nat) : Nat := ringBase x.ring + 64 * (n % ringSize x.ring)
/-- The ring read that the device has outstanding: it reads the slot at HEAD as soon as TAIL covers it (R317; when it reads is not stated,
DESIGN CHOICE, log 26). -/
def Queue.ringRead (x : Queue) : Option Nat :=
  if x.cfg.getLsbD 63 && x.halt == 0 && sub32 x.tail x.head != 0 then some (x.slotAddr x.head) else none
/-- A queue that stops still has the ring read under way to come (R313, R315). -/
def Queue.keepRead (x : Queue) : Queue := if x.ringRead.isSome then { x with stale := x.stale + 1 } else x

/-- BUSY (R313): DMA of the interface is outstanding, or a started packet may still issue some. -/
def State.ifBusy (s : State) (i : Nat) : Bool :=
  s.pk.queues.any (fun x => ifOf x.q == i && (!x.open_.isEmpty || x.dma != 0 || x.stale != 0 || x.ringRead.isSome)) ||
  s.pk.dataDma.contains (qifPasid (s.qif i))
/-- QIFCTL as it reads. -/
def State.qifRead (s : State) (i : Nat) : Word64 :=
  if s.ifBusy i then s.qif i ||| 2#64 else s.qif i &&& ~~~(2#64)

/-- R320: room for one more completion record. -/
def Queue.room (x : Queue) : Bool := decide (sub32 x.written x.chead + x.open_.length < ringSize x.cmpl)

/-! ## Completion records and interrupts (R319, R321) -/

/-- The vector control of a vector in the MSI-X table, bit 32 of its second word: set, it masks the vector (R310, R311; the layout and the
reset value, masked, are those of PCI Express, PRESUMED, log 1). -/
def maskWord (off : Nat) : Bool := decide (0x80000 ≤ off ∧ off < 0x88000) && off % 16 == 8
/-- A word of BAR0 that was written, or its reset value: the MSI-X vectors are masked, the others 0 (log 1). -/
def State.bar0Word (s : State) (off : Nat) : Word64 :=
  ((s.pk.bar0.find? (fun x => x.1 == off)).map Prod.snd).getD (if maskWord off then 0x100000000#64 else 0#64)
def State.vecMasked (s : State) (v : Nat) : Bool := (s.bar0Word (0x80008 + 16 * v)).getLsbD 32
/-- The message of a vector: a masked one becomes pending (R310, R311). -/
def State.msix (s : State) (v : Nat) : State :=
  if s.vecMasked v then { s with pk := { s.pk with pba := if s.pk.pba.contains v then s.pk.pba else v :: s.pk.pba } } else s.emit (.msix v)
/-- Pending vectors that are not masked send their messages. -/
def State.sendPending (s : State) : State :=
  let go := s.pk.pba.filter (fun v => !s.vecMasked v)
  go.foldl (fun (s : State) v => s.emit (.msix v)) { s with pk := { s.pk with pba := s.pk.pba.filter (fun v => !go.contains v) } }

/-- The interrupt of a queue: sent when its remap entry is valid and names the interface's PASID (R321). -/
def State.interrupt (s : State) (q : Nat) : State :=
  let x := s.queueOf q
  if !x.cfg.getLsbD 28 then s
  else
    let e := (s.bar0Word (0x20000 + 16 * bits x.cfg.toNat 16 12)).toNat
    if e.testBit 32 && bits e 12 20 == qifPasid (s.qif (ifOf q)) then s.msix (bits e 0 11) else s.drop (ifOf q)

/-- A record goes to the completion ring (R321). -/
def State.writeRecord (s : State) (q status qtag seq : Nat) (w1 w2 : Word64) : State :=
  let x := s.queueOf q
  let n := ringSize x.cmpl
  let w0 := BitVec.ofNat 64 (flag64 x.phase 63 + status % 256 * 2 ^ 48 + qtag % 65536 * 2 ^ 32 + seq % 2 ^ 32)
  let s := s.emit (.host (qifPasid (s.qif (ifOf q))) (ringBase x.cmpl + 32 * (x.written % n))
    ((leBytes 8 w0.toNat ++ leBytes 8 w1.toNat) ++ (leBytes 8 w2.toNat ++ leBytes 8 s.beat)))
  s.setQueue { x with
    written := (x.written + 1) % 2 ^ 32
    phase := if (x.written + 1) % n == 0 then !x.phase else x.phase
    dma := x.dma + 1 }

/-- A started packet completes (R315, R320, R321). -/
def State.complete (s : State) (q qtag seq : Nat) (irq : Bool) (status : Nat) (w1 w2 : Word64) : State :=
  let x := s.queueOf q
  let s := s.setQueue { x with open_ := x.open_.filter (fun n => n != seq) }
  if s.ifClosed (ifOf q) then
    let s := s.drop (ifOf q)
    if irq && x.cfg.getLsbD 28 then s.drop (ifOf q) else s
  else
    let s := s.writeRecord q status qtag seq w1 w2
    if irq then s.interrupt q else s

/-- A queue halts (R319), with its halt record and interrupt (R321). -/
def State.haltQueue (s : State) (q code : Nat) : State :=
  let x := s.queueOf q
  let s := s.setQueue { (if code == 3 || code == 5 then x.keepRead else x) with halt := code }
  let s := if [1, 2, 3, 6].contains code && ringOk x.cmpl 32 && x.room && !s.ifClosed (ifOf q) then
      s.writeRecord q (0xE0 + code) 0 x.seq (BitVec.ofNat 64 x.head) 0#64 else s
  s.interrupt q

/-! ## Packets (R314, R318, R320) -/

def pWord (p : Packet) (i : Nat) : Nat := (p.words.getD i 0#64).toNat
def pOp (p : Packet) : Nat := bits (pWord p 0) 0 8
def pLen (p : Packet) : Nat := bits (pWord p 0) 8 2
def pBar (p : Packet) : Bool := (pWord p 0).testBit 10
def pIrq (p : Packet) : Bool := (pWord p 0).testBit 11
def pTag (p : Packet) : Nat := bits (pWord p 0) 16 16
def pPasid (p : Packet) : Nat := bits (pWord p 0) 44 20
def pJob (p : Packet) : Nat := bits (pWord p 1) 32 32
def pRank (p : Packet) : Nat := bits (pWord p 1) 0 16

/-- Words that R318 and R322 say are zero, by opcode. -/
def zeroWords (op : Nat) : List Nat :=
  match op with
  | 0x01 => [5, 6, 7]
  | 0x0D => [6, 7, 8, 9, 10, 11, 12, 13, 14, 15]
  | 0x0E => [5, 6, 7, 13, 14, 15]
  | 0x0F => [2, 3, 4, 5, 6, 7]
  | _ => []
/-- R318: opcode, length and must-be-zero bits. -/
def packetOk (p : Packet) : Bool :=
  decide (pOp p ≤ 0x0F) && bits (pWord p 0) 32 12 == 0 && bits (pWord p 0) 12 4 == 0 &&
  pLen p == (if pOp p == 0x01 || pOp p == 0x0D || pOp p == 0x0E then 1 else 0) &&
  (zeroWords (pOp p)).all (fun i => pWord p i == 0)

/-- R318, R322: a rank that is resident on this module. -/
def State.resident (s : State) (job rank : Nat) : Option Rank :=
  match s.rankOf job rank with
  | some r => if r.st == .dead then none else some r
  | none => none

/-- Does firmware wait for bytes of other modules, for a launch or a restore (R275, R297)? -/
def State.prepping (s : State) : Bool := s.pk.remotes.any (fun x => x.clus == prepClus)
/-- Conditions on a LAUNCH beyond those of R320: the quiesce of a move, from here or to here (R354), a seat that the host has yet to name
(R324), the throttle (R329), and bytes of other modules that firmware reads for a launch (R275; DEDUCED, log 34). -/
def State.launchBlocked (s : State) (p : Packet) : Bool :=
  s.prepping || s.pk.inbound.contains (pJob p, pRank p) ||
  s.pk.launches.any (fun l => l.job == pJob p && l.rank == pRank p &&
    (match s.resident l.job l.rank with | some r => r.st != .held | none => true)) ||
  (match s.resident (pJob p) (pRank p) with
  | some r => r.moving || (r.base.isNone && s.asksHost 0)
  | none => false) ||
  (s.pk.throtHold && !(pWord p 4 != 0 && decide (pWord p 4 < s.beat + 1024)))

/-- R320: may the packet at the front of the fetched ones start? -/
def State.mayStart (s : State) (x : Queue) : Bool :=
  match x.fetched with
  | [] => false
  | f :: _ =>
    x.halt == 0 && x.cfg.getLsbD 63 && !s.ifClosed (ifOf x.q) && s.pk.booted &&
    (pOp f.p == 0 ||
      ((!pBar f.p || x.open_.isEmpty) && x.room && !(pOp f.p == 1 && packetOk f.p && pPasid f.p == qifPasid (s.qif (ifOf x.q)) && s.launchBlocked f.p)))

/-- A packet of the given opcode starts (R320): malformed and mismatched ones complete at once (R314, R318); the others do
what `go` says with their place in the queue. -/
def State.startPacket (s : State) (op : Nat) (p : Packet) (go : Fetched → State → State) : State :=
  let x := s.queueOf p.q
  match x.fetched with
  | [] => s
  | f :: rest =>
    if f.p != p || pOp p != op || !s.mayStart x then s
    else
      let s := s.setQueue { x with fetched := rest, open_ := x.open_ ++ [f.seq] }
      if !packetOk p then s.complete p.q (pTag p) f.seq (pIrq p) 0x27 0#64 0#64
      else if pPasid p != qifPasid (s.qif (ifOf p.q)) then s.complete p.q (pTag p) f.seq (pIrq p) 0x28 0#64 0#64
      else go f s

/-- The packet completes with a status. -/
def State.finishPacket (s : State) (f : Fetched) (status : Nat) : State :=
  s.complete f.p.q (pTag f.p) f.seq (pIrq f.p) status 0#64 0#64

/-- The packet that the device starts next, if any. -/
def State.startDue (s : State) : Option Packet :=
  match s.pk.queues.find? s.mayStart with
  | some x => x.fetched.head?.map (fun f => f.p)
  | none => none

/-- Base priority and urgency of a queue (R313, R316). -/
def State.prioOf (s : State) (q : Nat) : Nat := min (bits (s.queueOf q).cfg.toNat 0 3) (bits (s.qif (ifOf q)).toNat 37 3)
def State.urgentQueue (s : State) (q : Nat) : Bool := (s.queueOf q).cfg.getLsbD 3 && (s.qif (ifOf q)).getLsbD 36

end Sys2Proof.Machine
end

