-- ==== Sys2Proof/Machine/Ranks.lean ====
section
/-! DEFINITION. Ranks on their seats: saving and restoring a footprint (R237, R263, R295), urgent pre-emption (R234, R306),
firmware-routed traps (R229, R302), the end of a step (R293), residency (R294), kills. -/
namespace Sys2Proof.Machine

/-! ## Footprint bytes (R295) -/

/-- Bytes of one cluster's scratchpad. -/
def clusterSpan : Nat := 128 * 2 ^ 18
def bankLo (b : Nat) : Nat := spadKey b 0 0

/-- The part of an indeterminate range below `hi` and from `lo` on, with the free values it has there. -/
def Indet.clip (i : Indet) (lo hi : Nat) : List Indet :=
  let a := max lo i.base
  let b := min hi (i.base + i.len)
  if a < b then [⟨a, b - a, i.seed + (a - i.base)⟩] else []
/-- No byte of the range is listed, and no indeterminate range reaches into it. -/
def Memory.wipe (m : Memory) (lo hi : Nat) : Memory :=
  { cells := m.cells.filter (fun x => !decide (lo ≤ x.1 ∧ x.1 < hi))
    indet := m.indet.flatMap (fun i => i.clip 0 lo ++ i.clip hi (i.base + i.len)) }
/-- Bytes and indeterminate ranges of a saved span, from `lo` on. -/
def Memory.fill (m : Memory) (lo span : Nat) (cells : List (Nat × Byte)) (indet : List Indet) : Memory :=
  let w := m.wipe lo (lo + span)
  let w : Memory := { w with indet := (indet.flatMap (fun i => i.clip 0 span)).map (fun i => { i with base := lo + i.base }) ++ w.indet }
  cells.foldl (fun m x => if x.1 < span then m.put (lo + x.1) x.2 else m) w

/-- The image of a footprint on base cluster `b`, with the given contexts and launch in progress. -/
def State.takeFootprint (s : State) (b n : Nat) (cores : List Core) (launch : Option (Nat × Bool × Nat)) : Image :=
  let lo := bankLo b
  let hi := lo + n * clusterSpan
  { cores := cores
    banks := (s.banks.filter (fun x => decide (b ≤ x.clus ∧ x.clus < b + n))).map (fun x => { x with clus := x.clus - b })
    cells := (s.mem.cells.filter (fun x => decide (lo ≤ x.1 ∧ x.1 < hi))).map (fun x => (x.1 - lo, x.2))
    indet := (s.mem.indet.flatMap (fun i => i.clip lo hi)).map (fun i => { i with base := i.base - lo })
    blocks := (s.blocks.filter (fun k => decide (lo / 128 ≤ k ∧ k < hi / 128))).map (fun k => k - lo / 128)
    base := b
    launch := launch }

/-- A saved image comes back into the banks of a seat. -/
def State.putFootprint (s : State) (b n : Nat) (im : Image) : State :=
  let lo := bankLo b
  let hi := lo + n * clusterSpan
  { s with
    mem := s.mem.fill lo (n * clusterSpan) im.cells im.indet
    banks := im.banks.map (fun x => { x with clus := x.clus + b }) ++ s.banks.filter (fun x => !decide (b ≤ x.clus ∧ x.clus < b + n))
    blocks := im.blocks.map (fun k => k + lo / 128) ++ s.blocks.filter (fun k => !decide (lo / 128 ≤ k ∧ k < hi / 128)) }

/-- R294: banks of a seat whose rank is dead hold nothing defined. -/
def State.blurSeat (s : State) (b n : Nat) : State :=
  { s with mem := s.mem.blur (bankLo b) (n * clusterSpan) s.free, free := s.free + n * clusterSpan }

/-! ## Cores on a seat -/

def Core.placedAt (c d : Core) : Bool := c.pclus == d.pclus && c.pcore == d.pcore
/-- Cores take their places; what stood there without a context goes. -/
def State.placeCores (s : State) (cs : List Core) : State :=
  { s with
    core := (cs.find? (fun c => c.placedAt s.core)).getD s.core
    others := s.others.filter (fun d => !cs.any (fun c => c.placedAt d)) ++ cs.filter (fun c => !c.placedAt s.core) }
/-- Cores of a rank leave the seat. -/
def State.clearCores (s : State) (job rank : Nat) : State :=
  let mine := fun (c : Core) => c.onSeat && c.job == job && c.rank == rank
  { s with
    core := if mine s.core then core0 s.core.pclus s.core.pcore else s.core
    others := s.others.filter (fun c => !mine c) }
/-- The core of a footprint on another base cluster (R105, R290). -/
def Core.rebase (c : Core) (b : Nat) : Core := { c with pclus := b + c.coreid / 128, pcore := c.coreid % 128, base := b }

/-! ## Saving a context (R237, R263, R167) -/

/-- R263: the channels are idle, parked or failed. -/
def Core.chansQuiet (c : Core) : Bool := c.chan0.st != 1 && c.chan1.st != 1

/-- A core as the image of a save at `beat` holds it: translations and L1 lines are not part of it; a WAITB has ended (R101, R295). -/
def Core.pack (c : Core) (beat cause pc : Nat) (aux : Word64) : Core :=
  let c := c.settle.takeEvents
  { c with
    savedAt := beat
    run := (match c.run with | .stopping => .stopping | .halted => .halted | _ => .saved cause pc aux)
    waits := c.waits.filter (fun w => match w with | .beat _ => false | _ => true)
    urgent := false, switchReq := false, switchOut := false, drain := none, saveErr := none
    tlb := [], walkFault := none, l1 := [], l1last := [], trap := none }

/-- R161: every element of the tiles is rounded to F32. -/
def tileF32 (t : Tile) : Tile :=
  tileOf (fun i j =>
    let r := Bin.f32.round Rnd.rneGrad (Bin.af48.decode (tileAt t i j).toNat)
    BitVec.ofNat 48 (Bin.af48.round Rnd.rneGrad (Bin.f32.decode r.pat)).pat)

/-- R234 steps 4 to 6: tiles, LSTG and draw counters as the saved context holds them. -/
def Core.drainDone (c : Core) : Core :=
  let tiles := vecOf 8 (fun i => tileF32 (c.a.tiles.toList.getD i tile0))
  let r := c.drain.getD (c.a.rngs, c.a.rngc)
  let l := c.a.lstg
  let a := { c.a with
    tiles := tiles, rngs := r.1, rngc := r.2
    lstg := lstgMake 0 false (lstgAct l) (lstgLoop l) (lstgN l) (lstgPb l) }
  let c := { c with a := a, eng := tiles }
  if c.guarded then c.checkpoint a c.pc ⟨c.pc, a.pend, []⟩ else c

/-- R265: the phase of a footprint is not cancellable. -/
def State.notCancellable (s : State) (job rank : Nat) : State :=
  s.mapFoot job rank (fun c => { c with phase := c.phase ||| 0x100000000#64 })

/-- The footprint is saved with the status that its launch has: every context into the image, the seat's cores free (R295). -/
def State.saveFootprint (s : State) (job rank status : Nat) : State :=
  match s.rankOf job rank with
  | none => s.clearCores job rank
  | some r =>
    match r.base with
    | none => s.clearCores job rank
    | some b =>
      let im := s.takeFootprint b (fpSize r.fpc) (s.seatCores job rank) ((s.launchOf job rank).map (fun l => (status, l.timetabled, l.delta)))
      (s.setRank { r with image := im }).clearCores job rank

/-! ## Ends of launches (R293, R294, R301) -/

def State.dropLaunch (s : State) (l : Launch) : State :=
  { s with pk := { s.pk with launches := s.pk.launches.filter (fun x => !(x.job == l.job && x.rank == l.rank)) } }

/-- The completion record of a launch, once (R301, R321). -/
def State.report (s : State) (l : Launch) (status : Nat) (w1 w2 : Word64) : State :=
  if l.reported then s else s.complete l.q l.qtag l.seq l.irq status w1 w2

/-- A rank dies (R294): its image is gone; banks that held it are indeterminate. -/
def State.bury (s : State) (r : Rank) (active : Bool) : State :=
  let s := if active then (match r.base with | some b => s.blurSeat b (fpSize r.fpc) | none => s) else s
  let s := s.setRank { r with st := .dead, image := Image.empty, cold := none }
  s.failRank r.job r.rank 1

/-- Does any context stand on these clusters? -/
def State.seatBusy (s : State) (b n : Nat) : Bool := s.allCores.any (fun c => c.onSeat && decide (b ≤ c.pclus ∧ c.pclus < b + n))
/-- After the end of a context the arbiter chooses for its seat, unless another runs there (R304). -/
def State.freeSeat (s : State) (r : Rank) : State :=
  match r.base with | some b => if s.seatBusy b (fpSize r.fpc) then s else s.chooseNext b r.fpc | none => s

/-- A context is killed with a status (R306, R329): its collectives fail now (R350), and it ends at once when it waits or is held, else once its
cores have stopped. -/
def State.killContext (s : State) (l : Launch) (status : Nat) (now : Bool) : State :=
  let s := s.failRank l.job l.rank 1
  match s.rankOf l.job l.rank with
  | none => s.dropLaunch l
  | some r =>
    if (s.seatCores l.job l.rank).isEmpty then
      ((s.report l status 0#64 0#64).dropLaunch l |>.bury r false).freeSeat r
    else
      let s := s.setLaunch { l with killed := some (l.killed.getD status) }
      s.mapFoot l.job l.rank (fun c => if l.timetabled || now then { c with switchOut := true } else { c with urgent := true })

/-- The run of a context that is switched out: the YLEFT saved (R303), of the lowest-numbered core that has a context (DESIGN CHOICE,
log 8: a footprint has one YLEFT a core). -/
def State.runOf (s : State) (job rank : Nat) : Option Nat :=
  ((s.seatCores job rank).filter (fun c => match c.run with | .saved _ _ _ => true | _ => false)).foldl (fun (m : Option (Nat × Nat)) c =>
    match m with
    | some x => if c.coreid < x.1 then some (c.coreid, c.yleft) else m
    | none => some (c.coreid, c.yleft)) none |>.map Prod.snd

/-- The last core of a footprint is saved: the context waits, or ends when it was killed (R294, R306). -/
def State.switchedOut (s : State) (job rank : Nat) : State :=
  match s.launchOf job rank, s.rankOf job rank with
  | some l, some r =>
    let run := match s.runOf job rank with | some n => n | none => l.run
    let s := s.saveFootprint job rank 0
    match l.killed with
    | some k => ((s.report l k 0#64 0#64).dropLaunch l |>.bury ((s.rankOf job rank).getD r) true).freeSeat r
    | none =>
      let s := s.setLaunch { l with waiting := some (l.waiting.getD s.beat), run := run }
      let s := s.setRank { (s.rankOf job rank).getD r with st := .waiting }
      match l.waiting with
      | some _ => s
      | none => s.freeSeat r
  | _, _ => s

/-- Has every core of the footprint left, or ended? -/
def State.allSaved (s : State) (job rank : Nat) : Bool :=
  (s.seatCores job rank).all (fun c => match c.run with
    | .saved _ _ _ => true
    | .stopping => s.quiesced c
    | .halted => true
    | _ => false)

/-- The core is saved; with the last one, the footprint is. -/
def State.coreSaved (s : State) (c : Core) : State :=
  let s := { s with core := c }
  if s.allSaved c.job c.rank then s.switchedOut c.job c.rank else s

/-- Has the context of a core that leaves come to its end (R100, R263)? A killed one does not wait for its channels. -/
def State.saveReady (s : State) (c : Core) : Bool :=
  c.switchOut && (match c.run with | .running => true | .armed _ => true | _ => false) && s.quiesced c && decide (c.lastDone ≤ s.beat) &&
  (c.chansQuiet || (match s.launchOf c.job c.rank with | some l => l.killed.isSome | none => false))
/-- Held stores that the checkpoint at the end of a drain releases first (R234). -/
def Core.drainHeld (c : Core) : Bool := c.drain.isSome && c.guarded && !c.held.isEmpty
/-- May it be saved, with every store performed at its home, or released (R100, R208, R234, R271)? -/
def State.leaveReady (s : State) (c : Core) : Bool := s.saveReady c && (c.drainHeld || c.storesDone)

/-- CONTEXT_SWITCH_OUT (R100, R237, R263, R295): the context of a core that yielded is saved. -/
def execContextSwitchOut (s : State) : Result :=
  let c := s.core
  if c.drain.isNone && s.leaveReady c then .next (s.coreSaved (c.pack s.beat 0 0 0#64)) else .next s

/-- R234: an urgent request finds the core at a pass boundary of its LOOPX loop: between a taken back edge, or the set-up, or a resumption
(R235), and the issue of start[k]. -/
def Core.gapUrgent (c : Core) (t : Nat) : Bool :=
  let l := c.a.loops.toList.getD (lstgLoop c.a.lstg) ⟨0, 0, false⟩
  c.urgent && c.drain.isNone && !c.hm && c.run == .running && c.trap.isNone && !c.switchOut && decide (c.readyAt ≤ t) &&
    lstgAct c.a.lstg && l.active && l.start == c.pc && (c.a.stage || (lstgEn c.a.lstg == 0 && !lstgDrain c.a.lstg))
/-- The drain starts in the gap (R234): stage 0 is off in the pass to come, a WAITB's wait ends (R101), and with no stage left the drain is
complete. -/
def Core.drainInGap (c : Core) : Core :=
  let x := c.a.lstg
  let en := lstgEn x / 2 * 2
  { c with
    drain := some (c.a.rngs, c.a.rngc)
    waits := c.waits.filter (fun w => !w.isBeat)
    a := { c.a with lstg := lstgMake en true true (lstgLoop x) (lstgN x) (lstgPb x) }
    switchOut := en == 0 }

/-- URGENT_PREEMPTION (R161, R234, R265): at a pass boundary the drain starts; when it is complete, held stores perform with the checkpoint, then the context is
saved with cause 0x17. -/
def execUrgentPreemption (s : State) : Result :=
  let c := s.core
  if c.gapUrgent s.beat then .next { s with core := c.drainInGap }
  else if c.drain.isSome && s.leaveReady c then
    if c.drainHeld then
      .next { s.releaseHeld c with core := { c with held := [] } }
    else
      let s := if c.guarded then s.notCancellable c.job c.rank else s
      .next (s.coreSaved (s.core.drainDone.pack s.beat 0x17 0 0#64))
  else .next s

/-! ## Firmware-routed traps (R227, R229, R302) -/

/-- A trap of the core that goes to firmware. -/
def Core.firmwareTrap (c : Core) : Option TrapReq :=
  match c.trap with
  | some r => if c.live && !c.handlerRoute r.cause then some r else none
  | none => none

/-- The first trap of the footprint; of several in one beat the lowest core index (R302). -/
def firstTrap : List Core → Option (Core × TrapReq)
  | [] => none
  | c :: r =>
    match c.firmwareTrap, firstTrap r with
    | some x, some y => if x.beat < y.2.beat || (x.beat == y.2.beat && decide (c.coreid < y.1.coreid)) then some (c, x) else some y
    | some x, none => some (c, x)
    | none, y => y

/-- The error of the table that the rollback of a trap reloads (R222). -/
def State.reloadError (s : State) (c : Core) (r : TrapReq) : Option (Nat × Word64) :=
  let d := c.unwind r
  if d.a.rngt == c.a.rngt then none
  else match s.readTable { d with tombGot := c.tombGot, tombBad := c.tombBad } d.a.rngt.toNat with
    | .ok _ => none
    | .error x => some x
/-- The cause and TRAPAUX with which a core that trapped is saved: of its trap, or of the error of that reload, which makes a double trap of it
(R222, R229). -/
def State.savedAs (s : State) (c : Core) (r : TrapReq) : Nat × Word64 := (s.reloadError c r).getD (r.cause, r.aux)
/-- A core that trapped, as it is saved: steps 3 and 4 of R228, NPC and pending list of its frame. Of a double trap by a reload the handler words
hold the trap that was being entered (R222). -/
def State.packTrap (s : State) (c : Core) : Core :=
  match c.firmwareTrap with
  | some r =>
    let f := c.frameOf r
    let x := s.savedAs c r
    let d := if (s.reloadError c r).isSome then c.enter r s.beat
      else let d := c.unwind r; { d with pc := f.npc, waits := f.waits, a := { d.a with pend := f.pend } }
    { d with tombGot := [], tombBad := [] }.pack s.beat x.1 r.pc x.2
  | none => c.pack s.beat 0 0 0#64

/-- Does a core still hold stores that its checkpoint at a trap of kind after releases (R228 step 4)? -/
def Core.owesHeld (c : Core) : Bool :=
  match c.firmwareTrap with | some r => c.guarded && r.kind == 2 && !c.held.isEmpty | none => false

/-- Does a core take a checkpoint as it is saved after a trap of kind after (R228 step 4, R265)? -/
def Core.checkpointsLast (c : Core) : Bool := match c.firmwareTrap with | some r => c.guarded && r.kind == 2 | none => false

/-- May a footprint that trapped be saved (R302)? -/
def State.trapReady (s : State) (l : Launch) : Bool :=
  (match l.stopAt with | some b => decide (b + 8 ≤ s.beat) | none => false) &&
  (s.footCores l.job l.rank).all (fun c => s.quiesced c && !c.owesHeld && c.storesDone &&
    (match c.firmwareTrap with | some r => (s.rollbackAway c r).isEmpty | none => c.trap.isNone))

/-- The footprint of a launch that trapped is saved and reported (R301, R302): its collectives fail before the image is taken, a free-running
BKPT aside; a context under KILL dies (R306); of the others one that is not timetabled is held, with the run that its YLEFT gives (R303). -/
def State.endTrapped (s : State) (l : Launch) : State :=
  match firstTrap (s.footCores l.job l.rank), s.rankOf l.job l.rank with
  | some (c, r), some k =>
    let s := if (s.footCores l.job l.rank).any Core.checkpointsLast then s.notCancellable l.job l.rank else s
    let x := s.savedAs c r
    let bkpt := r.cause == 0x16 && !l.timetabled
    let s := if bkpt && l.killed.isNone then s else s.failRank l.job l.rank 1
    let s := s.mapFoot l.job l.rank s.packTrap
    let l' := { l with stopAt := none, waiting := none, chosen := none, run := (s.runOf l.job l.rank).getD l.run }
    let s := s.saveFootprint l.job l.rank (if bkpt then 0 else x.1)
    let k' := (s.rankOf l.job l.rank).getD k
    match l.killed with
    | some st => ((s.report l st 0#64 0#64).dropLaunch l |>.bury k' true).freeSeat k
    | none =>
      if bkpt then ((s.setRank { k' with st := .held }).setLaunch l').freeSeat k
      else
        let s := s.report l x.1 (BitVec.ofNat 64 (r.pc * 2 ^ 32 + c.coreid)) x.2
        let s := s.setRank { k' with status := x.1, st := if l.timetabled then .parked else .held, byPark := false }
        let s := if l.timetabled then s.dropLaunch l else s.setLaunch { l' with reported := true }
        s.freeSeat k
  | _, _ => s

/-- FIRMWARE_ROUTED_TRAP (R229, R302; a trap that cancels a phase is none, R266): the footprint stops, its held stores of a checkpoint perform, and it is saved. A core
without a launch is saved alone. -/
def execFirmwareRoutedTrap (s : State) : Result :=
  match s.core.firmwareTrap with
  | none => .next s
  | some r =>
    match s.launchOf s.core.job s.core.rank with
    | none =>
      if !s.quiesced s.core then .next s
      else match s.rollbackAway s.core r with
        | y :: ys => .next (s.askTable (s.core.unwind r).a.rngt.toNat (y :: ys))
        | [] => .next { s with core := s.packTrap s.core }
    | some l =>
      if l.cancel.isSome || (l.committed != 0 && s.core.cancels.isSome) then .next s
      else if l.stopAt.isNone then .next (s.setLaunch { l with stopAt := some r.beat })
      else if s.core.owesHeld && s.quiesced s.core then .next { s.releaseHeld s.core with core := { s.core with held := [] } }
      else if s.quiesced s.core && !(s.rollbackAway s.core r).isEmpty then
        .next (s.askTable (s.core.unwind r).a.rngt.toNat (s.rollbackAway s.core r))
      else if s.trapReady l then .next (s.endTrapped l)
      else .next s

/-! ## Starting a context (R237, R294, R295, R297, R304) -/

/-- Do the clusters of two footprints meet? -/
def overlaps (b n b' n' : Nat) : Bool := decide (b < b' + n' ∧ b' < b + n)
def Rank.meets (r : Rank) (b n : Nat) : Bool := match r.base with | some x => overlaps x (fpSize r.fpc) b n | none => false

/-- Idle-active ranks that a context of another rank on these clusters must park first (R294). -/
def State.idleOn (s : State) (b n job rank : Nat) : List Rank :=
  s.pk.ranks.filter (fun r => r.st == .idleActive && r.meets b n && !(r.job == job && r.rank == rank))

/-- The footprint state of an idle-active rank is saved, with no context (R294, R295); collectives that it has armed fail first (R350). -/
def State.parkRank (s : State) (r : Rank) : State :=
  let s := s.failRank r.job r.rank 1
  let r := (s.rankOf r.job r.rank).getD r
  match r.base with
  | none => s
  | some b => s.setRank { r with st := .parked, image := s.takeFootprint b (fpSize r.fpc) [] none, byPark := false }

/-- SETB of a header on the banks of one core (R244, R297). -/
def State.setBanksOf (s : State) (clus core mode : Nat) (qf : List Word64) : State :=
  let b := s.banksOf clus core
  let s := (List.range 4).foldl (fun (s : State) n =>
    if b.mode n == bits mode (2 * n) 2 then s
    else if bits mode (2 * n) 2 != 0 then s
    else
      let k := spadKey clus core (n * 0x10000)
      { s with
        mem := s.mem.blur k 0x10000 s.free
        free := s.free + 0x10000
        blocks := s.blocks.filter (fun x => !decide (k / 128 ≤ x ∧ x < (k + 0x10000) / 128)) }) s
  s.setBanks { b with
    modes := vecOf 4 (fun n => BitVec.ofNat 2 (bits mode (2 * n) 2))
    qfmt := vecOf 16 (fun q => qf.getD q 0#64 &&& qfmtMask)
    fifos := vecOf 4 (fun n => if b.mode n == bits mode (2 * n) 2 then b.fifo n else []) }

/-- The table that a saved core reloads as it is restored, with what other modules sent of it (R237, R275). -/
def State.restoreTable (s : State) (c : Core) : Except (Nat × Word64) (Vector (BitVec 1024) 32) :=
  s.readTable { c with tombGot := s.pk.prep.got, tombBad := s.pk.prep.bad } c.a.rngt.toNat
/-- A core whose table cannot be reloaded is saved again unchanged, but for the cause in its save word (R237). -/
def State.saveAgain (s : State) (b : Nat) (c : Core) : Core :=
  match c.run, s.restoreTable (c.rebase b) with
  | .saved _ _ _, .error e => { c with saveErr := some e.1 }
  | _, _ => c
/-- Bytes of the tables of a context that other modules have yet to send before it is restored (R275). -/
def State.restoreAway (s : State) (r : Rank) (b : Nat) : List Loc :=
  (r.image.cores.flatMap (fun c => match c.run with
    | .saved _ _ _ => s.tableAway { c.rebase b with tombGot := s.pk.prep.got, tombBad := s.pk.prep.bad } c.a.rngt.toNat
    | _ => [])).eraseDups
/-- Firmware asks other modules for bytes of a rank's tables, code or timetable; and drops what it has of them (R275). -/
def State.askPrep (s : State) (job rank : Nat) (ls : List Loc) : State :=
  if s.prepping then s else s.askBytes { core0 prepClus 0 with job := job, rank := rank } 0 0 none ls
def State.clearPrep (s : State) : State := { s with pk := { s.pk with prep := ⟨[], []⟩ } }

/-- The cores of a context that starts for the first time, in their places, or its saved contexts with their tables. -/
def State.startCores (s : State) (l : Launch) (r : Rank) (b entry : Nat) : Except (Nat × Word64) (List Core) :=
  if !l.cores.isEmpty then
    .ok (l.cores.map (fun c => { c.rebase b with run := .armed (match c.run with | .armed e => max e entry | _ => entry) }))
  else
    r.image.cores.foldl (fun acc c => match acc with
      | .error e => .error e
      | .ok cs =>
        let c := { c.rebase b with acq := s.beat, readyAt := max c.readyAt entry }
        match c.run with
        | .saved _ _ _ => (match s.restoreTable c with
          | .ok t => .ok (cs ++ [{ c with run := .running, tomb := t, tombLoad := none }])
          | .error e => .error e)
        | _ => .ok (cs ++ [c])) (.ok [])

/-- Does a launch from an urgent queue wait for these clusters (R306)? -/
def State.urgentWaits (s : State) (b n : Nat) : Bool :=
  s.pk.launches.any (fun l => l.urg && l.waiting.isSome && l.killed.isNone && (match s.seatOf l.job l.rank with
    | some (x, f) => overlaps x (fpSize f) b n | none => false))

/-- A context starts on its seat: idle-active ranks are parked, its footprint returns to the banks, its cores take their
places (R294, R295, R297). A table that cannot be reloaded ends the launch (R237). -/
def State.startContext (s : State) (l : Launch) (entry : Nat) : State :=
  match s.rankOf l.job l.rank with
  | none => s
  | some r =>
    match r.base with
    | none => s
    | some b =>
      let n := fpSize r.fpc
      let s := (s.idleOn b n l.job l.rank).foldl (fun (s : State) x => s.parkRank x) s
      match s.startCores l r b entry with
      | .error (cause, _) =>
        let cs := r.image.cores.map (s.saveAgain b)
        let s := s.report l cause 0#64 0#64
        let s := s.setRank { r with
          status := cause, st := if l.timetabled then .parked else .held, image := { r.image with cores := cs, launch := r.image.launch.map (fun x => (cause, x.2)) } }
        if l.timetabled then s.dropLaunch l else s.setLaunch { l with waiting := none, chosen := none, reported := true }
      | .ok cs =>
        let s := if r.st == .idleActive then s else s.putFootprint b n r.image
        let s := match l.setb with
          | some (m, qf) => cs.foldl (fun (s : State) (c : Core) => s.setBanksOf c.pclus c.pcore m qf) s
          | none => s
        let s := s.setRank { r with st := .running, image := Image.empty }
        let s := s.setLaunch { l with waiting := none, chosen := none, started := entry, cores := [], setb := none, urg := false }
        s.placeCores (if !l.timetabled && !l.urg && s.urgentWaits b n then cs.map (fun c => { c with urgent := true }) else cs)

/-- The context that starts next: chosen by the arbiter, or the best of an idle seat, with its seat free (R304, R329). -/
def State.nextStart (s : State) : Option Launch :=
  if s.pk.throtHold then none else
  (s.pk.launches.find? (fun l => l.chosen.isSome && (match s.seatOf l.job l.rank with
    | some (b, f) => !s.seatBusy b (fpSize f) | none => false))).or
  (s.pk.launches.findSome? (fun l => match l.waiting, s.seatOf l.job l.rank with
    | some _, some (b, f) =>
      if s.seatBusy b (fpSize f) || s.pk.launches.any (fun x => x.chosen.isSome && s.seatOf x.job x.rank == some (b, f)) then none
      else bestOf s.beat (s.sliceOf b f) (s.waitingOn false b f)
    | _, _ => none))

/-- CONTEXT_RESTORE (R237, R272, R295, R304): the context that the arbiter has chosen starts on its seat. -/
def execContextRestore (s : State) : Result :=
  match s.nextStart with
  | none => .next s
  | some l =>
    match (match s.rankOf l.job l.rank, s.seatOf l.job l.rank with | some r, some (b, _) => s.restoreAway r b | _, _ => []) with
    | x :: xs => .next (s.askPrep l.job l.rank (x :: xs))
    | [] => .next (s.startContext l s.beat).clearPrep

/-- IDLE_ACTIVE_PARK (R294): a context of another rank is about to start on the seat. -/
def execIdleActivePark (job rank : Nat) (s : State) : Result :=
  match s.rankOf job rank with
  | none => .next s
  | some r =>
    if r.st == .idleActive && s.pk.launches.any (fun l => l.chosen.isSome && !(l.job == job && l.rank == rank) &&
        (match s.seatOf l.job l.rank with | some (b, f) => r.meets b (fpSize f) | none => false)) then .next (s.parkRank r)
    else .next s

/-! ## The end of a step (R293) -/

/-- Every named core has halted, and its stores have performed (R271, R293). -/
def State.stepOver (s : State) (l : Launch) : Bool :=
  let cs := s.seatCores l.job l.rank
  !cs.isEmpty && cs.all (fun c => (c.run == .stopping || c.run == .halted) && s.quiesced c && c.outst.isEmpty && c.held.isEmpty && c.trap.isNone)

/-- R364: the draw state of a core goes to the rank record. -/
def Rank.keepRng (r : Rank) (c : Core) : Rank :=
  { r with rng := ⟨c.coreid, c.a.rngt, c.a.rngs, c.a.rngc⟩ :: r.rng.filter (fun x => x.j != c.coreid) }

/-- STEP_END (R293, R301): the draw state of each core and the completion record are written; the rank is idle-active. -/
def execStepEnd (job rank : Nat) (s : State) : Result :=
  match s.launchOf job rank, s.rankOf job rank with
  | some l, some r =>
    if !s.stepOver l then .next s
    else
      let r := (s.seatCores job rank).foldl Rank.keepRng { r with ends := s.endpoints r }
      let s := s.clearCores job rank
      let s := s.setRank { r with st := .idleActive, status := 0 }
      let s := { s with pk := { s.pk with colls := s.pk.colls.filter (fun k => !(k.job == job && k.rank == rank && k.flagged.isSome && (k.failed.isSome || k.sends.all (fun x => x.sent)))) } }
      let s := (s.report l 0 0#64 0#64).dropLaunch l
      .next (match l.killed with
        | some _ => (s.bury { r with st := .dead } true).freeSeat r
        | none => s.freeSeat r)
  | _, _ => .next s

end Sys2Proof.Machine
end

