-- ==== Sys2Proof/Machine/Launch.lean ====
section
/-! DEFINITION. LAUNCH: its checks and preparation (R25, R27, R296 to R301), the collective section (R338 to R342), the entry of a
core (R219, R297), and INVAL (R299). -/
namespace Sys2Proof.Machine

/-! ## Reading a rank's memory (R301, R308) -/

/-- The places of bytes of one page of a rank that is readable, or fetchable when `x` (R275, R276). -/
def State.pageLocs (s : State) (job rank a n : Nat) (x : Bool) : Option (List Loc) :=
  if a + n > spadBase then none
  else match s.translate job rank a with
    | .error _ => none
    | .ok t =>
      let c := { core0 prepClus 0 with job := job, rank := rank }.hold t
      if !(if x then t.x else t.r) || (match s.locOf c a, s.jobOf job with | .flat k _, some j => decide (k > j.nrank) | _, _ => false) then none
      else some ((List.range n).map (fun i => s.locOf c (a + i)))
/-- A byte of it as it stands at its home, or as another module sent it; none where it is poisoned, was refused, or is yet to come (R301). -/
def State.prepByte (s : State) (l : Loc) : Option Byte :=
  match l with
  | .pa p => if s.pagePoisoned p then none else some (s.homeByte p)
  | l => if s.pk.prep.bad.any (fun x => x.2.contains l) then none else (s.pk.prep.got.find? (fun x => x.1 == l)).map Prod.snd
def State.readPage (s : State) (job rank a n : Nat) (x : Bool) : Option (List Byte) := (s.pageLocs job rank a n x).bind (fun ls => ls.mapM s.prepByte)

/-- A span, page by page. -/
def pagesOf (va n : Nat) : List (Nat × Nat) :=
  (if n == 0 then [] else (List.range ((va + n - 1) / 4096 - va / 4096 + 1)).map (fun i => va / 4096 + i)).map (fun p =>
    let lo := max va (p * 4096); (lo, min (va + n) ((p + 1) * 4096) - lo))
def State.readSpan (s : State) (job rank va n : Nat) (x : Bool) : Option (List Byte) :=
  ((pagesOf va n).mapM (fun p => s.readPage job rank p.1 p.2 x)).map List.flatten
/-- Bytes of a span that other modules have yet to send (R275). -/
def State.spanAway (s : State) (job rank va n : Nat) (x : Bool) : List Loc :=
  (pagesOf va n).flatMap (fun p => ((s.pageLocs job rank p.1 p.2 x).getD []).filter (fun l =>
    l.away && !s.pk.prep.got.any (fun y => y.1 == l) && !s.pk.prep.bad.any (fun y => y.2.contains l)))

def wordOf (bs : List Byte) (i : Nat) : Nat := leNat ((bs.drop (8 * i)).take 8)

/-! ## The timetable (R296) -/

/-- A timetable header, by its 64-bit words. -/
structure Timetable where
  w : List Nat
  deriving DecidableEq, Repr

def Timetable.word (t : Timetable) (i : Nat) : Nat := t.w.getD i 0
def Timetable.fr (t : Timetable) : Bool := (t.word 0).testBit 16
def Timetable.setb (t : Timetable) : Bool := (t.word 0).testBit 17
def Timetable.gm (t : Timetable) : Bool := (t.word 0).testBit 18
def Timetable.fpc (t : Timetable) : Nat := bits (t.word 0) 19 3
def Timetable.bud (t : Timetable) : Nat := bits (t.word 0) 22 2
def Timetable.ncore (t : Timetable) : Nat := bits (t.word 0) 32 32
def Timetable.code (t : Timetable) : Nat := t.word 1
def Timetable.nb (t : Timetable) : Nat := bits (t.word 2) 0 32
def Timetable.hvec (t : Timetable) : Nat := bits (t.word 2) 32 32
def Timetable.lath (t : Timetable) : Nat := t.word 3
def Timetable.dict (t : Timetable) (b : Bool) : Nat := t.word (if b then 5 else 4)
def Timetable.actb (t : Timetable) : Bool := (t.word 6).testBit 0
def Timetable.run (t : Timetable) : Nat := let r := bits (t.word 6) 16 17; if r == 0 then 65536 else r
def Timetable.pl (t : Timetable) : Nat := t.word 7
def Timetable.tl (t : Timetable) : Nat := t.word 8
def Timetable.pina (t : Timetable) : Nat := t.word 32
def Timetable.pinn (t : Timetable) : Nat := t.word 33
def Timetable.coll (t : Timetable) : Nat := t.word 34

/-- Limits and zero bits of the header (R296). -/
def Timetable.ok (t : Timetable) (at_ fpc : Nat) : Bool :=
  let w := t.word
  let va := fun (i m : Nat) => decide (w i < 2 ^ 56) && w i % m == 0
  at_ % 64 == 0 && bits (w 0) 0 16 == 2 && bits (w 0) 24 8 == 0 && t.fpc == fpc && decide (fpc < 6) &&
  decide (1 ≤ t.ncore ∧ t.ncore ≤ 128 * fpSize fpc) && va 1 64 && decide (1 ≤ t.nb) && decide (w 3 < 2 ^ 48) &&
  va 4 2048 && va 5 2048 && bits (w 6) 1 15 == 0 && bits (w 6) 33 31 == 0 && decide (w 7 < 2 ^ 32) && (!t.fr || w 7 == 0) &&
  va 9 128 && va 10 128 && decide (w 15 < 256) && va 32 16 && decide (w 33 ≤ 256) && va 34 64 &&
  ((List.range 29).all (fun i => w (35 + i) == 0))

/-- A core entry (R296). -/
structure CoreEnt where
  ofs : Nat
  pc : Nat
  j : Nat
  deriving DecidableEq, Repr

def coreEnt (w : Nat) : CoreEnt := ⟨bits w 44 20, bits w 12 32, bits w 0 12⟩
def entsOk (t : Timetable) (es : List CoreEnt) : Bool :=
  es.all (fun e => decide (e.pc < t.nb) && decide (e.j / 128 < fpSize t.fpc)) && ((es.map (fun e => e.j)).eraseDups).length == es.length

/-! ## The collective section (R338 to R341) -/

/-- An address field of the section: FCLUS stands in [60:56] for the scratchpad window only. -/
def collAddrOk (fpc a : Nat) : Bool :=
  decide (a < 2 ^ 61) && (if inWindow (a % 2 ^ 56) then decide (a / 2 ^ 56 < fpSize fpc) else decide (a < 2 ^ 56))

def parseSend (nmem nc t0 : Nat) (x : List Nat) : Option Send :=
  let w := fun (i : Nat) => x.getD i 0
  if bits (w 0) 16 11 == 0 && decide (bits (w 0) 0 16 ≤ nmem) && decide (bits (w 0) 28 16 ≤ nc) && decide (w 1 < 2 ^ 61) &&
      bits (w 2) 52 12 == 0 && bits (w 2) 0 2 == 0 && decide (4 ≤ bits (w 2) 0 32 ∧ bits (w 2) 0 32 ≤ 2 ^ 28) &&
      decide (w 3 < 2 ^ 32) && w 3 % 4 == 0 then
    some ⟨t0 + bits (w 0) 44 20, bits (w 0) 28 16, (w 0).testBit 27, bits (w 0) 0 16, w 1, bits (w 2) 0 32, bits (w 2) 32 16,
      bits (w 2) 48 4, w 3, false, none⟩
  else none

def parseChunk (x : List Nat) : Option Chunk :=
  let w := fun (i : Nat) => x.getD i 0
  let nop := let n := bits (w 1) 32 4; if n == 0 then 16 else n
  let opf := bits (w 1) 37 3
  let len := bits (w 1) 0 32
  if decide (w 0 < 2 ^ 61) && w 0 % 128 == 0 && decide (128 ≤ len ∧ len ≤ 2 ^ 28) && len % 128 == 0 && decide (opf ≤ 2) &&
      bits (w 1) 40 24 == 0 && decide (w 2 < 2 ^ 61) && w 3 == 0 &&
      (opf != 0 || (nop == 1 && !(w 1).testBit 36 && w 2 == 0)) then
    some ⟨w 0, len, nop, (w 1).testBit 36, opf, w 2, 0, none, none⟩
  else none

def stampOk (ofs tl : Nat) : Bool := decide (64 ≤ ofs ∧ ofs + 64 ≤ tl)

def quads (bs : List Byte) (n : Nat) : List (List Nat) := (List.range n).map (fun i => (List.range 4).map (fun k => wordOf bs (4 * i + k)))

/-- One descriptor of the section. -/
def State.parseColl (s : State) (r : Rank) (tl t0 step : Nat) (d : List Byte) : Option Coll :=
  let w := wordOf d
  let rd := fun (a n : Nat) => s.readSpan r.job r.rank a n false
  let kind := bits (w 0) 16 1
  let nmem := bits (w 0) 32 16
  let me := bits (w 0) 48 16
  let flagOk := collAddrOk r.fpc (w 2) && inWindow (w 2 % 2 ^ 56) && w 2 % 8 == 0
  if bits (w 0) 17 15 != 0 || nmem == 0 || decide (me > nmem) || decide (w 1 ≥ 2 ^ 56) || !flagOk then none
  else match rd (w 1) (2 * (nmem + 1)) with
  | none => none
  | some mb =>
    let memb := (List.range (nmem + 1)).map (fun i => leNat ((mb.drop (2 * i)).take 2))
    let mk := fun (sends : List Send) (chunks : List Chunk) (lb le : Nat) (perm : List Nat) =>
      -- a chunk that expects no byte is full at once (R343)
      let chunks := chunks.map (fun (c : Chunk) => if c.expect == 0 then { c with full := some s.beat } else c)
      (⟨r.job, r.rank, bits (w 0) 0 16, kind, me, memb, w 2, sends, chunks, s.beat, t0 + tl + 32, step % 256, 0, none, none, [], 0, [],
        lb, le, perm, [], [], none⟩ : Coll)
    if memb.getD me 0 != r.rank then none
    else if kind == 0 then
      let nx := bits (w 3) 0 16
      let nc := bits (w 3) 16 16
      if bits (w 3) 32 32 != 0 || decide (w 4 ≥ 2 ^ 56) || decide (w 5 ≥ 2 ^ 56) then none
      else match rd (w 4) (32 * nx), rd (w 5) (32 * nc) with
        | some xb, some cb =>
          match (quads xb nx).mapM (parseSend nmem nc t0), (quads cb nc).mapM parseChunk with
          | some xs, some cs =>
            if xs.all (fun x => (x.trig || stampOk (x.ofs - t0) tl) && collAddrOk r.fpc x.src) &&
                cs.all (fun c => collAddrOk r.fpc c.addr && collAddrOk r.fpc c.stg) then some (mk xs cs 0 0 []) else none
          | _, _ => none
        | _, _ => none
    else
      let lb := bits (w 6) 0 6
      let le := bits (w 6) 16 2
      let ofs := bits (w 6) 44 20
      let g := (List.range 17).find? (fun g => 2 ^ g == nmem + 1)
      match g with
      | none => none
      | some g =>
        let n := lb + g
        let perm := (List.range n).map (fun i => (d.getD (0x48 + i) 0#8).toNat)
        let size := 2 ^ (lb + le)
        if bits (w 6) 6 10 != 0 || bits (w 6) 18 26 != 0 || decide (lb < 1 ∨ lb > 36) || decide (n > 52) || !stampOk ofs tl ||
            !(List.range n).all (fun i => perm.contains i) || !collAddrOk r.fpc (w 7) || !collAddrOk r.fpc (w 8) ||
            decide (w 7 < w 8 + size ∧ w 8 < w 7 + size) then none
        else some (mk [⟨t0 + ofs, 0, false, me, w 7, size, 0, 0, 0, false, none⟩]
          [⟨w 8, size, 1, false, 0, 0, 0, none, none⟩] lb le perm)

/-- Byte ranges that a collective guards: chunks and staging areas (R341). -/
def Coll.areas (k : Coll) : List (Nat × Nat) :=
  k.chunks.flatMap (fun c => (c.addr, c.len) :: (if c.opf == 0 then [] else [(c.stg, c.nop * c.len)]))
def disjointAreas : List (Nat × Nat) → Bool
  | [] => true
  | a :: r => r.all (fun b => !decide (a.1 < b.1 + b.2 ∧ b.1 < a.1 + a.2)) && disjointAreas r

/-- The tile of a TRIG send: its source is contiguous 128-aligned HBM4E (R282, R341). -/
def State.tileOfSend (s : State) (k : Coll) (i : Nat) (x : Send) : Option TTile :=
  if x.src % 128 != 0 || x.len % 128 != 0 || decide (x.len > 2 ^ 24) || decide (x.src + x.len > spadBase) then none
  else
    let pas := ((List.range ((x.len + 4095) / 4096 + 1)).map (fun i => min (x.src + 4096 * i) (x.src + x.len - 1))).map (fun a =>
      match s.translate k.job k.rank a with
      | .ok t => if t.tier == 0 && t.module == s.ownModule k.job then some (t.out + (a - t.va) - (a - x.src)) else none
      | .error _ => none)
    match pas with
    | some b :: _ =>
      if pas.all (fun p => p == some b) then
        some ⟨b, x.len, k.job, k.rank, k.cid, k.slotOf i,
          (List.range 4).map (fun d =>
            let n := 128 * ((List.range (x.len / 128)).filter (fun j => homeDie (b + 128 * j) == d)).length
            ⟨n, 0, false, false, n != 0⟩), none⟩
      else none
    | _ => none

/-- The section: its collectives and tiles, or `none` when R341 refuses it. -/
def State.parseSection (s : State) (r : Rank) (at_ tl t0 step : Nat) : Option (List Coll × List TTile) :=
  match s.readSpan r.job r.rank at_ 64 false with
  | none => none
  | some h =>
    let n := bits (wordOf h 0) 0 8
    if n == 0 || decide (n > 64) || wordOf h 0 != n || (h.drop 8).any (fun b => b != 0#8) then none
    else match s.readSpan r.job r.rank (at_ + 0x40) (128 * n) false with
    | none => none
    | some bs =>
      match ((List.range n).map (fun i => (bs.drop (128 * i)).take 128)).mapM (s.parseColl r tl t0 step) with
      | none => none
      | some ks =>
        let tiles := ks.flatMap (fun k => ((k.sends.zip (List.range k.sends.length)).filter (fun x => x.1.trig)).map (fun x => s.tileOfSend k x.2 x.1))
        if !disjointAreas (ks.flatMap Coll.areas) || ((ks.map (fun k => k.cid)).eraseDups).length != ks.length ||
            tiles.any Option.isNone || decide (tiles.length > 1024) then none
        else some (ks, tiles.filterMap id)

/-! ## Seats (R290, R291) -/

/-- A rank that may not be bound anew: it is active, or its step is not over (R291). -/
def State.bound (s : State) (r : Rank) : Bool := r.st == .running || r.st == .idleActive || (s.launchOf r.job r.rank).isSome

/-- Base clusters that a footprint may be bound to: aligned, and not across a seat of another shape that such a rank holds. -/
def State.freeBases (s : State) (fpc : Nat) : List Nat :=
  let n := fpSize fpc
  ((List.range 32).filter (fun b => b % n == 0)).filter (fun b =>
    s.pk.seats.all (fun x => !overlaps x.base (fpSize x.fpc) b n || (x.base == b && x.fpc == fpc) ||
      !s.pk.ranks.any (fun r => s.bound r && r.base == some x.base && r.fpc == x.fpc)))

/-- A seat exists from now on; seats that it replaces are gone, and the ranks bound to them have none. -/
def State.addSeat (s : State) (base fpc slice : Nat) : State :=
  let gone := fun (b f : Nat) => overlaps b (fpSize f) base (fpSize fpc) && !(b == base && f == fpc)
  { s with pk := { s.pk with
    seats := ⟨base, fpc, slice⟩ :: s.pk.seats.filter (fun x => !overlaps x.base (fpSize x.fpc) base (fpSize fpc))
    ranks := s.pk.ranks.map (fun r => match r.base with
      | some b => if gone b r.fpc then { r with base := none } else r
      | none => r) } }

/-- The scheduling function binds a rank to a seat, in hardware mode (R291; log 8). -/
def State.bindSeat (s : State) (r : Rank) : State × Option Nat :=
  match r.base with
  | some b => (s, some b)
  | none =>
    if s.asksHost 0 then (s, none)
    else
      let bs := s.freeBases r.fpc
      match (match Config.chooseBase bs r.fpc with | some b => if bs.contains b then some b else bs.head? | none => bs.head?) with
      | none => (s, none)
      | some b =>
        let slice := max 4096 (min (2 ^ 20) (Config.chooseSlice b))
        let s := if s.pk.seats.any (fun x => x.base == b && x.fpc == r.fpc) then s else s.addSeat b r.fpc slice
        (s.setRank { r with base := some b }, some b)

/-! ## Preparation (R25, R297 to R301) -/

def Rank.rngOf (r : Rank) (j : Nat) : RngRec := (r.rng.find? (fun x => x.j == j)).getD ⟨j, r.rngt0, 0#64, 0#64⟩

/-- A dictionary image loaded at entry, as a DLD loads it (R169, R297). -/
def Core.loadImage (c : Core) (bank : Bool) (bs : List Byte) : Core :=
  (c.dldDone ⟨bank, 0, none, none, 0, [], bs, false, [], none, [], 0⟩).settle

/-- The core of an entry in its state of R297. -/
def entryCore (t : Timetable) (r : Rank) (b step nrank : Nat) (args : List Nat) (imgs : List (Bool × List Byte))
    (tomb : Vector (BitVec 1024) 32) (pins : List Tlb) (entry : Nat) (e : CoreEnt) : Core :=
  let w64 := fun (n : Nat) => BitVec.ofNat 64 n
  let rng := r.rngOf e.j
  let sp := w64 (t.word 9) - w64 (t.word 10 * e.j)
  let sr := (List.range 8).foldl (fun (v : Vector Word64 64) i => v.setIfInBounds (i + 1) (w64 (args.getD i 0))) arch0.s
  let a := { arch0 with
    s := sr.setIfInBounds 63 sp
    stklo := (sp - w64 (t.word 10)) &&& specMask 0x0A
    fctl := w64 (t.word 11) &&& specMask 0x04
    rngt := rng.t, rngs := rng.s, rngc := rng.c
    adjoff := w64 (t.word 12) &&& specMask 0x11
    tapeb := w64 (t.word 13) &&& specMask 0x12
    tapel := w64 (t.word 14) &&& specMask 0x13 }
  let c := { core0 (b + e.j / 128) (e.j % 128) with
    job := r.job, rank := r.rank, timetabled := !t.fr, a := a, tomb := tomb, tlb := pins.take 256
    budget := BitVec.ofNat 2 t.bud, lath := w64 t.lath, hvec := t.hvec, gm := t.gm, yleft := t.run, yrun := t.run
    step := w64 step, rankid := w64 (nrank * 65536 + r.rank), coreid := e.j, base := b
    pc := e.pc, codeBase := t.code, ncode := t.nb, readyAt := entry, run := .armed entry }
  let c := imgs.foldl (fun (c : Core) x => c.loadImage x.1 x.2) c
  { c with act := t.actb, sel := t.actb, dictv := 0#64, changes := [] }

/-- Distinct leaf pages of the pin list; `none` when a walk faults or there are more than 256 (R299). -/
def State.pinPages (s : State) (job rank : Nat) (pins : List (Nat × Nat)) : Option (List Tlb) :=
  let as := pins.flatMap (fun p => (List.range (p.2 / 4096)).map (fun i => p.1 + 4096 * i))
  match as.mapM (fun a => match s.translate job rank a with | .ok t => some t | .error _ => none) with
  | none => none
  | some ts => let u := ts.eraseDups; if u.length > 256 then none else some u

/-- What a launch needs once its checks have passed. -/
structure Prepared where
  t : Timetable
  cores : List Core
  t0 : Nat
  pins : List (Nat × Nat)
  colls : List Coll
  tiles : List TTile

/-- T0 of a launch whose preparation ends at beat `e` (R298, R329). -/
def launchT0 (e treq throt : Nat) : Nat :=
  if treq != 0 then treq
  else
    let m := (e + 1024 + 63) / 64 * 64
    if throt == 1 then (m + 65535) / 65536 * 65536 else m

/-- Is the seat of a launch taken (R301, R303)? -/
def State.seatTaken (s : State) (b n : Nat) : Bool :=
  s.seatBusy b n || s.pk.launches.any (fun l => (l.chosen.isSome || l.waiting.isSome) && (match s.seatOf l.job l.rank with
    | some (x, f) => overlaps x (fpSize f) b n | none => false))

/-- The mode of a core's bank and its quarter registers as a launch finds them: from its header, or as the rank left them (R297). -/
def State.launchBank (s : State) (r : Rank) (t : Timetable) (fclus core n q : Nat) : Nat × Word64 :=
  if t.setb then (bits (t.word 15) (2 * n) 2, BitVec.ofNat 64 (t.word (16 + q)) &&& qfmtMask)
  else
    let b := match r.seated with | some x => s.banksOf (x + fclus) core | none => r.image.banksOf fclus core
    (b.mode n, b.qf q)
/-- R338: the flag word lies in a SPAD quarter of format RAW. -/
def State.flagRaw (s : State) (r : Rank) (t : Timetable) (k : Coll) : Bool :=
  let o := winIn (k.flag % 2 ^ 56)
  let x := s.launchBank r t (k.flag / 2 ^ 56) (winCore (k.flag % 2 ^ 56)) (o / 0x10000) (o / 0x4000)
  x.1 == 0 && qFmt x.2 == 0

/-- What the preparation of a launch reads of the rank's memory, as far as what it has read tells: addresses, bytes, and whether it is code. -/
def State.collSpans (s : State) (r : Rank) (at_ : Nat) : List (Nat × Nat) :=
  (at_, 64) :: (match s.readSpan r.job r.rank at_ 64 false with
    | none => []
    | some h =>
      let n := bits (wordOf h 0) 0 8
      (at_ + 0x40, 128 * n) :: (match s.readSpan r.job r.rank (at_ + 0x40) (128 * n) false with
        | none => []
        | some bs => (List.range n).flatMap (fun i =>
            let w := wordOf (bs.drop (128 * i))
            [(w 1, 2 * (bits (w 0) 32 16 + 1))] ++ (if bits (w 0) 16 1 == 0 then [(w 4, 32 * bits (w 3) 0 16), (w 5, 32 * bits (w 3) 16 16)] else []))))
def State.prepSpans (s : State) (r : Rank) (tt : Nat) : List (Nat × Nat × Bool) :=
  let data := fun (xs : List (Nat × Nat)) => xs.map (fun x => (x.1, x.2, false))
  data [(tt, 512)] ++ (match s.readSpan r.job r.rank tt 512 false with
  | none => []
  | some h =>
    let t : Timetable := ⟨(List.range 64).map (wordOf h)⟩
    if !t.ok tt r.fpc then []
    else
      data ([(tt + 0x200, 8 * t.ncore)] ++ (if t.fr || t.pinn == 0 then [] else [(t.pina, 16 * t.pinn)]) ++
        (if t.coll == 0 then [] else s.collSpans r t.coll) ++ ([t.dict false, t.dict true].filter (fun a => a != 0)).map (fun a => (a, 2048)) ++
        (match s.readSpan r.job r.rank (tt + 0x200) (8 * t.ncore) false with
        | none => []
        | some eb => (List.range t.ncore).map (fun i => ((r.rngOf (coreEnt (wordOf eb i)).j).t.toNat, 4096)))) ++
      [(t.code, 24 * t.nb, true)])
/-- Bytes that a launch needs of other modules before its preparation can end (R275, R297). -/
def State.prepAway (s : State) (r : Rank) (tt : Nat) : List Loc :=
  ((s.prepSpans r tt).flatMap (fun x => s.spanAway r.job r.rank x.1 x.2.1 x.2.2)).eraseDups

/-- The checks and the preparation of a launch, in the order of R301: a status, or what to arm. -/
def State.prepare (s : State) (r : Rank) (b : Option Nat) (tt step treq : Nat) (args : List Nat) : Except Nat Prepared :=
  let rd := fun (a n : Nat) (x : Bool) => s.readSpan r.job r.rank a n x
  match rd tt 512 false with
  | none => .error 0x24
  | some h =>
  let t : Timetable := ⟨(List.range 64).map (wordOf h)⟩
  if !t.ok tt r.fpc then .error 0x20
  else match rd (tt + 0x200) (8 * t.ncore) false with
  | none => .error 0x24
  | some eb =>
  let es := (List.range t.ncore).map (fun i => coreEnt (wordOf eb i))
  let t0 := launchT0 s.beat treq s.pk.throt
  if !entsOk t es then .error 0x20
  else match (if t.fr || t.pinn == 0 then some [] else rd t.pina (16 * t.pinn) false) with
  | none => .error 0x24
  | some pb =>
  let pins := if t.fr then [] else (List.range t.pinn).map (fun i => (wordOf pb (2 * i), wordOf pb (2 * i + 1)))
  if pins.any (fun p => p.1 % 4096 != 0 || p.2 % 4096 != 0 || decide (p.1 ≥ 2 ^ 56)) then .error 0x20
  else match (if t.coll == 0 then some ([], []) else s.parseSection r t.coll t.tl t0 step) with
  | none => .error 0x20
  | some (colls, tiles) =>
  if !colls.all (s.flagRaw r t) then .error 0x20
  else if !t.fr && LatClass.all.any (interlocked t.lath) then .error 0x11
  else match b with
  | none => .error 0x22
  | some b =>
  if b % fpSize r.fpc != 0 || (!t.fr && s.seatTaken b (fpSize r.fpc)) then .error 0x22
  else
    let img := fun (k : Bool) => if t.dict k == 0 then some none else (rd (t.dict k) 2048 false).map some
    let tombs := es.map (fun e => match rd (r.rngOf e.j).t.toNat 4096 false with
      | some xs => some (vecOf 32 (fun a => BitVec.ofNat 1024 (leNat ((xs.drop (128 * a)).take 128))) : Vector (BitVec 1024) 32)
      | none => none)
    match rd t.code (24 * t.nb) true, img false, img true with
    | some _, some ia, some ib =>
      if tombs.any Option.isNone then .error 0x24
      else match s.pinPages r.job r.rank pins with
      | none => .error 0x23
      | some pages =>
        if treq != 0 && decide (treq < s.beat + 1024) then .error 0x21
        else
          let imgs := (ia.toList.map (fun x => (false, x))) ++ (ib.toList.map (fun x => (true, x)))
          let nrank := match s.jobOf r.job with | some j => j.nrank | none => 0
          .ok ⟨t, (es.zip tombs).map (fun x => entryCore t r b step nrank args imgs (x.2.getD (Vector.replicate 32 0#1024)) pages
            (t0 + (if t.fr then 0 else x.1.ofs)) x.1), t0, pages.map (fun x => (x.va, x.size)), colls, tiles⟩
    | _, _, _ => .error 0x24

/-! ## Recall (R358) -/

/-- The sealed bytes of a cold rank, where they lie in the cold tier (R358). -/
def State.coldBytes (s : State) (r : Rank) : List Byte := match r.cold with | some (a, n) => (List.range n).map (fun i => s.homeByte (a + i)) | none => []
/-- A cold image is verified and opened into a parked image: the record and the footprint are those that were sealed. -/
def State.openCold (s : State) (r : Rank) : Option State :=
  if s.pk.keysErased then none
  else match aesOpen (derivedKey 1 r.job 0xFFFF) ((s.coldBytes r).take 64) ((s.coldBytes r).drop 64) with
    | some plain => some ((s.setRank { openRank plain with job := r.job, rank := r.rank, base := r.base }).authOk)
    | none => none

/-! ## LAUNCH (R298, R301, R304, R306, R342, R347) -/

/-- Tiles join those of the module. A die has 1,024 entries (R282): a tile that finds none free in a die is armed in none, and never fires
(DESIGN CHOICE, log 25). -/
def armTiles (old new : List TTile) : List TTile :=
  new.foldl (fun ts t =>
    let full := (List.range 4).any (fun d => (t.dies.getD d default).armed && decide ((ts.filter (fun x => (x.dies.getD d default).armed)).length ≥ 1024))
    ts ++ [if full then { t with dies := t.dies.map (fun d => { d with armed := false }) } else t]) old

/-- A launch is armed: the record takes STEP and ATAG, its collectives and tiles are armed, and it starts, or waits for its
seat. -/
def State.arm (s : State) (r : Rank) (l : Launch) (b : Nat) (p : Prepared) : State :=
  let n := fpSize r.fpc
  let mine := fun (job rank : Nat) => (job == r.job && rank == r.rank : Bool)
  let r := { r with step := l.step, atag := l.step.toNat % 256, status := 0 }
  let s := s.setRank r
  let s := { s with pk := { s.pk with
    launches := s.pk.launches ++ [l]
    tiles := armTiles (s.pk.tiles.filter (fun (t : TTile) => !mine t.job t.rank)) p.tiles
    colls := s.pk.colls.filter (fun (k : Coll) => !mine k.job k.rank) ++ p.colls } }
  let s := if s.seatTaken b n then
      let s := (s.setLaunch { l with waiting := some s.beat }).setRank { r with
        st := .waiting, image := if r.st == .idleActive then s.takeFootprint b n [] none else r.image }
      if l.urg then s.mapCores (fun c => if c.live && decide (b ≤ c.pclus ∧ c.pclus < b + n) && !c.timetabled then { c with urgent := true } else c)
      else s
    else s.startContext l p.t0
  (List.range s.pk.colls.length).foldl (fun (s : State) i => match s.pk.colls[i]? with
    | some k => if mine k.job k.rank && k.chunks.isEmpty && k.flagged.isNone then s.writeFlag i k (flagWord k false 0) else s
    | none => s) s

/-- What a LAUNCH that starts does. -/
def State.launch (s : State) (f : Fetched) : State :=
  let p := f.p
  let step := pWord p 3
  match s.resident (pJob p) (pRank p) with
  | none => s.finishPacket f 0x25
  | some r =>
    if r.st == .held || (r.st == .cold && s.asksHost 5) then s.finishPacket f 0x2A
    else
      match (if r.st == .cold then s.openCold r else some s) with
      | none => s.authFail.finishPacket f 0x24
      | some s1 =>
        let x := s1.bindSeat ((s1.rankOf r.job r.rank).getD r)
        let s2 := x.1
        let r := (s2.rankOf r.job r.rank).getD r
        match s2.prepare r x.2 (pWord p 2) step (pWord p 4) ((List.range 8).map (fun i => pWord p (8 + i))) with
        | .error st => s.finishPacket f st
        | .ok q =>
          let l : Launch := ⟨r.job, r.rank, p.q, pTag p, f.seq, pIrq p, s.prioOf p.q, s.urgentQueue p.q, !q.t.fr, q.t.run, q.t0, 0,
            q.t.pl, q.t.tl, BitVec.ofNat 64 step, q.cores.map (fun c => c.coreid), s.beat, none, none, false, none, none, [], 0, 0, none,
            q.cores, if q.t.setb then some (q.t.word 15, (List.range 16).map (fun i => BitVec.ofNat 64 (q.t.word (16 + i)))) else none, q.pins⟩
          s2.arm r l (x.2.getD 0) q

/-- Bytes of other modules that a LAUNCH at the front of its queue waits for before it starts. -/
def State.launchAway (s : State) (p : Packet) : List Loc :=
  let x := s.queueOf p.q
  match x.fetched.head?, s.resident (pJob p) (pRank p) with
  | some f, some r =>
    if f.p == p && pOp p == 1 && s.mayStart x && packetOk p && pPasid p == qifPasid (s.qif (ifOf p.q)) && r.st != .held && !(r.st == .cold && s.asksHost 5) then
      s.prepAway r (pWord p 2)
    else []
  | _, _ => []

/-- LAUNCH (R298): it starts once what it needs of other modules is here (R275). -/
def execLaunch (p : Packet) (s : State) : Result :=
  if p.q ≥ 4096 then .fault .noSuchInput
  else match s.launchAway p with
  | l :: ls => .next (s.askPrep (pJob p) (pRank p) (l :: ls))
  | [] => .next (s.startPacket 0x01 p (fun f s => (s.launch f).clearPrep))

/-- CORE_ENTRY (R219, R297, R298): at its entry beat an armed core runs, a free-running one not before THROT has left 3 (R329); with GM = 1 the entry is a checkpoint. -/
def execCoreEntry (s : State) : Result :=
  match s.core.run with
  | .armed e =>
    if s.beat < e || (s.pk.throtHold && !s.core.timetabled) then .next s
    else
      let c := { s.core with run := .running, readyAt := s.beat }
      .next { s with core := if c.gm then c.checkpoint c.a c.pc ⟨c.pc, [], []⟩ else c }
  | _ => .next s

/-! ## INVAL (R299) -/

def Inval.covers (x : Inval) (va size : Nat) : Bool := decide (va < x.addr + x.len ∧ x.addr < va + size)

/-- INVAL waits while it covers a pinned leaf page of a running timetabled launch. -/
def State.invalReady (s : State) (x : Inval) : Bool :=
  match s.launchOf x.job x.rank with
  | some l => !(l.timetabled && l.pinned.any (fun p => x.covers p.1 p.2))
  | none => true

/-- INVAL (R299). -/
def execInval (p : Packet) (s : State) : Result :=
  if p.q ≥ 4096 then .fault .noSuchInput
  else .next (s.startPacket 0x02 p (fun f s =>
    match s.resident (pJob p) (pRank p) with
    | none => s.finishPacket f 0x25
    | some _ => { s with pk := { s.pk with invals := s.pk.invals ++ [⟨pJob p, pRank p, pWord p 2, pWord p 3, p.q, pTag p, f.seq, pIrq p⟩] } }))

/-- INVAL_COMPLETE (R299): no core of the seat holds a translation of the range from now on. -/
def execInvalComplete (k : Nat) (s : State) : Result :=
  match s.pk.invals[k]? with
  | none => .next s
  | some x =>
    if !s.invalReady x then .next s
    else
      let s := { s with pk := { s.pk with invals := s.pk.invals.eraseIdx k } }
      let s := s.mapCores (fun c => if c.job == x.job && c.rank == x.rank then { c with tlb := c.tlb.filter (fun t => !x.covers t.va t.size) } else c)
      .next (s.complete x.q x.qtag x.seq x.irq 0 0#64 0#64)

end Sys2Proof.Machine
end

