-- ==== Sys2Proof/Machine/Shake.lean ====
section
/-! DEFINITION. SHAKE256 (FIPS 202), with which firmware fills a rank's random table from its seed (R76). -/
namespace Sys2Proof.Machine

/-- The 25 lanes of a Keccak state; lane (x, y) is number x + 5 y. -/
abbrev Lanes25 := List Word64

def kLane (a : Lanes25) (x y : Nat) : Word64 := a.getD (x % 5 + 5 * (y % 5)) 0#64
def kGen (f : Nat → Nat → Word64) : Lanes25 := (List.range 25).map (fun i => f (i % 5) (i / 5))

/-- Rotation offsets, by lane number. -/
def kRot : List Nat := [0, 1, 62, 28, 27, 36, 44, 6, 55, 20, 3, 10, 43, 25, 39, 41, 45, 15, 21, 8, 18, 2, 61, 56, 14]

/-- Round constants. -/
def kRound : List Word64 :=
  [0x0000000000000001#64, 0x0000000000008082#64, 0x800000000000808A#64, 0x8000000080008000#64, 0x000000000000808B#64,
   0x0000000080000001#64, 0x8000000080008081#64, 0x8000000000008009#64, 0x000000000000008A#64, 0x0000000000000088#64,
   0x0000000080008009#64, 0x000000008000000A#64, 0x000000008000808B#64, 0x800000000000008B#64, 0x8000000000008089#64,
   0x8000000000008003#64, 0x8000000000008002#64, 0x8000000000000080#64, 0x000000000000800A#64, 0x800000008000000A#64,
   0x8000000080008081#64, 0x8000000000008080#64, 0x0000000080000001#64, 0x8000000080008008#64]

def kTheta (a : Lanes25) : Lanes25 :=
  let c := (List.range 5).map (fun x => kLane a x 0 ^^^ kLane a x 1 ^^^ kLane a x 2 ^^^ kLane a x 3 ^^^ kLane a x 4)
  let d := (List.range 5).map (fun x => c.getD ((x + 4) % 5) 0#64 ^^^ (c.getD ((x + 1) % 5) 0#64).rotateLeft 1)
  kGen (fun x y => kLane a x y ^^^ d.getD x 0#64)
def kRhoPi (a : Lanes25) : Lanes25 :=
  kGen (fun x y => let i := (x + 3 * y) % 5; (kLane a i x).rotateLeft (kRot.getD (i + 5 * x) 0))
def kChi (a : Lanes25) : Lanes25 := kGen (fun x y => kLane a x y ^^^ (~~~kLane a (x + 1) y &&& kLane a (x + 2) y))
def kIota (a : Lanes25) (rc : Word64) : Lanes25 := kGen (fun x y => if x == 0 && y == 0 then kLane a 0 0 ^^^ rc else kLane a x y)
/-- Keccak-f[1600]. -/
def keccakF (a : Lanes25) : Lanes25 := kRound.foldl (fun a rc => kIota (kChi (kRhoPi (kTheta a))) rc) a

/-- Bytes of a block of the rate, 136 bytes, XORed into the state. -/
def kAbsorb (a : Lanes25) (block : List Byte) : Lanes25 :=
  keccakF (kGen (fun x y => let i := x + 5 * y
    if i < 17 then kLane a x y ^^^ BitVec.ofNat 64 (leNat ((block.drop (8 * i)).take 8)) else kLane a x y))
def kBytes (a : Lanes25) : List Byte := (a.take 17).flatMap (fun w => leBytes 8 w.toNat)
/-- `n` blocks of output. -/
def kSqueeze : Nat → Lanes25 → List Byte
  | 0, _ => []
  | n + 1, a => kBytes a ++ kSqueeze n (keccakF a)

/-- The first `n` bytes of SHAKE256 over a message shorter than one block. -/
def shake256 (msg : List Byte) (n : Nat) : List Byte :=
  let m := msg.take 135
  let body := (m ++ [0x1F#8] ++ List.replicate (135 - m.length) 0#8).mapIdx (fun i b => if i == 135 then b ||| 0x80#8 else b)
  (kSqueeze ((n + 135) / 136) (kAbsorb (List.replicate 25 0#64) body)).take n

end Sys2Proof.Machine
end

