-- ==== Sys2Proof/Machine/Queue.lean ====
section
/-! DEFINITION. Host packets beside LAUNCH and INVAL (R294, R318, R322 to R327, R358), the fetch of packets (R317 to R320), host
writes to notify pages and BAR0 (R311 to R317, R323), service requests (R323, R324), and host DMA (R310, R319). -/
namespace Sys2Proof.Machine

/-! ## Packets that name a rank -/

/-- The session key bound to the interface of a queue (R327). -/
def State.session (s : State) (q : Nat) : Option (List Byte) := (s.pk.sessions.find? (fun x => x.1 == ifOf q)).map Prod.snd

/-- A packet that starts. -/
def packetRow (op : Nat) (p : Packet) (s : State) (go : Fetched → State → State) : Result :=
  if p.q ≥ 4096 then .fault .noSuchInput else .next (s.startPacket op p go)

/-- A packet that names a resident rank; another completes with 0x25 (R321). -/
def rankRow (op : Nat) (p : Packet) (s : State) (go : Rank → Fetched → State → State) : Result :=
  packetRow op p s (fun f s =>
    match s.resident (pJob p) (pRank p) with
    | none => s.finishPacket f 0x25
    | some r => go r f s)

/-- PAD (R318): no sequence number, no completion. -/
def execPad (p : Packet) (s : State) : Result :=
  if p.q ≥ 4096 then .fault .noSuchInput
  else
    let x := s.queueOf p.q
    match x.fetched with
    | [] => .next s
    | f :: rest => if f.p == p && pOp p == 0 && s.mayStart x then .next (s.setQueue { x with fetched := rest }) else .next s

/-- KILL (R294, R301, R306): a rank that runs, waits, is held or is idle-active dies. -/
def execKill (p : Packet) (s : State) : Result :=
  rankRow 0x03 p s (fun r f s =>
    if r.moving then s.finishPacket f 0x2A
    else match r.st, s.launchOf r.job r.rank with
      | .running, some l => (s.killContext l 0x26 false).finishPacket f 0
      | .waiting, some l => (s.killContext l 0x26 false).finishPacket f 0
      | .held, some l => (s.killContext l 0x26 false).finishPacket f 0
      | .held, none => (s.bury r false).finishPacket f 0
      | .idleActive, _ => (s.bury r true).finishPacket f 0
      | _, _ => s.finishPacket f 0x2A)

/-- PARK (R294, R350): an idle-active rank is parked. -/
def execPark (p : Packet) (s : State) : Result :=
  rankRow 0x04 p s (fun r f s =>
    if r.st == .idleActive then
      let s := s.parkRank r
      (match s.rankOf r.job r.rank with | some k => s.setRank { k with byPark := true } | none => s).finishPacket f 0
    else s.finishPacket f 0x2A)

/-- A parked rank returns to its seat's banks, idle-active, when the seat is free (R294, R295). -/
def State.unpark (s : State) (r : Rank) : Option State :=
  let x := s.bindSeat r
  match x.2, x.1.rankOf r.job r.rank with
  | some b, some r =>
    let n := fpSize r.fpc
    if x.1.seatBusy b n then none
    else
      let s := (x.1.idleOn b n r.job r.rank).foldl (fun (s : State) y => s.parkRank y) x.1
      some ((s.putFootprint b n r.image).setRank { r with st := .idleActive, image := Image.empty })
  | _, _ => none

/-- RESUME (R294, R302): held to waiting, parked to idle-active. -/
def execResume (p : Packet) (s : State) : Result :=
  rankRow 0x05 p s (fun r f s =>
    match r.st, s.launchOf r.job r.rank with
    | .held, some l =>
      let s := (s.setRank { r with st := .waiting }).setLaunch { l with waiting := some s.beat, stopAt := none }
      s.finishPacket f 0
    | .parked, _ =>
      if r.moving then s.finishPacket f 0x2A
      else match s.unpark r with
        | some s' => s'.finishPacket f 0
        | none => s.finishPacket f 0x2A
    | _, _ => s.finishPacket f 0x2A)

/-- A parked rank becomes cold (R358): its sealed record and image are written to the cold tier, at a place that firmware chooses (log 7), and
the parked image is freed. -/
def State.sealCold (s : State) (r : Rank) : State :=
  let ctr := s.pk.sealCtr
  let r := { r with ends := s.endpoints r }
  let bs := sealUnit (derivedKey 1 r.job 0xFFFF) (sealHead 2 r.job r.rank r.step.toNat (s.ownModule r.job) ctr) (rankBytes r)
  let a := 0x20000000000 + Config.coldPlace ctr % (0x20000000000 - bs.length)
  let s := ((List.range bs.length).zip bs).foldl (fun (s : State) x => s.homeWrite (a + x.1) 0xFF#8 x.2) s
  let s := s.setRank { r with st := .cold, cold := some (a, bs.length), image := Image.empty }
  { s with pk := { s.pk with sealCtr := ctr + 1 } }

/-- May a rank be made cold (R358)? -/
def State.mayCool (s : State) (r : Rank) : Bool := r.st == .parked && !r.moving && !s.pk.keysErased
/-- COLD (R294, R358). -/
def execCold (p : Packet) (s : State) : Result :=
  rankRow 0x06 p s (fun r f s =>
    if s.mayCool r then (s.sealCold r).finishPacket f 0 else s.finishPacket f 0x2A)

/-- RECALL (R294, R358): a failed tag leaves the rank cold and counts under R328. -/
def execRecall (p : Packet) (s : State) : Result :=
  rankRow 0x07 p s (fun r f s =>
    if r.st == .cold then
      (match s.openCold r with
      | some s' => s'.finishPacket f 0
      | none => s.authFail.finishPacket f 0x24)
    else s.finishPacket f 0x2A)

/-! ## COPYIN and COPYOUT (R318) -/

/-- Physical address of a page's bytes for a copy packet, or the status that ends it; R, W and X are ignored. -/
def State.copyPage (s : State) (r : Rank) (va : Nat) : Except Nat Nat :=
  if va ≥ spadBase then .error 0x2C
  else match s.translate r.job r.rank va with
    | .error _ => .error 0x2C
    | .ok t =>
      if t.tier == 2 || t.module != s.ownModule r.job then .error 0x2C
      else if s.pagePoisoned (t.out + (va - t.va)) then .error 0x2D
      else .ok (t.out + (va - t.va))

/-- The pieces of a range, page by page: address and bytes. -/
def pieces (va n : Nat) : List (Nat × Nat) :=
  if n == 0 then []
  else (List.range ((va + n - 1) / 4096 - va / 4096 + 1)).map (fun i =>
    let lo := max va ((va / 4096 + i) * 4096)
    (lo, min (va + n) ((va / 4096 + i + 1) * 4096) - lo))

/-- COPYIN piece by piece: bytes moved before a failure stand. -/
def State.copyIn (r : Rank) : List (Nat × Nat) → List Byte → State → State × Nat
  | [], _, s => (s, 0)
  | (va, n) :: rest, bs, s =>
    match s.copyPage r va with
    | .error e => (s, e)
    | .ok pa =>
      if bs.length < n then (s, 0x29)
      else State.copyIn r rest (bs.drop n) (((List.range n).zip bs).foldl (fun (s : State) x => s.homeWrite (pa + x.1) 0xFF#8 x.2) s)

/-- A data write to the host (R313, R318). -/
def State.dataWrite (s : State) (pasid addr : Nat) (bytes : List Byte) : State :=
  let s := s.emit (.host pasid addr bytes)
  { s with pk := { s.pk with dataDma := s.pk.dataDma ++ [pasid] } }

/-- COPYOUT piece by piece, to the host address `h`. -/
def State.copyOut (r : Rank) (pasid : Nat) : List (Nat × Nat) → Nat → State → State × Nat
  | [], _, s => (s, 0)
  | (va, n) :: rest, h, s =>
    match s.copyPage r va with
    | .error e => (s, e)
    | .ok pa => State.copyOut r pasid rest (h + n) (s.dataWrite pasid h ((List.range n).map (fun i => s.homeByte (pa + i))))

def copyLenOk (p : Packet) : Bool := decide (1 ≤ pWord p 4 ∧ pWord p 4 ≤ 2 ^ 32)

/-- COPYIN (R318). -/
def execCopyin (p : Packet) (s : State) : Result :=
  rankRow 0x08 p s (fun r f s =>
    if !copyLenOk p then s.finishPacket f 0x27
    else
      let x := s.copyIn r (pieces (pWord p 2) (pWord p 4)) (p.host.getD [])
      x.1.finishPacket f x.2)

/-- COPYOUT (R318, R320). -/
def execCopyout (p : Packet) (s : State) : Result :=
  rankRow 0x09 p s (fun r f s =>
    if !copyLenOk p then s.finishPacket f 0x27
    else match p.host with
      | none => s.finishPacket f 0x29
      | some _ =>
        let x := s.copyOut r (pPasid p) (pieces (pWord p 2) (pWord p 4)) (pWord p 3)
        x.1.finishPacket f x.2)

/-! ## DBGREAD and ATTEST (R318, R326, R327) -/

/-- DBGREAD (R318, R326, R355): the record and the image of a held rank, sealed under the interface's session key. -/
def execDbgread (p : Packet) (s : State) : Result :=
  rankRow 0x0A p s (fun r f s =>
    match s.session p.q with
    | none => s.finishPacket f 0x2A
    | some key =>
      if r.st != .held then s.finishPacket f 0x2A
      else match p.host with
        | none => s.finishPacket f 0x29
        | some _ =>
          let ctr := s.pk.sealCtr
          let bs := sealUnit key (sealHead 3 r.job r.rank r.step.toNat (s.ownModule r.job) ctr) (rankBytes { r with ends := s.endpoints r })
          let s := s.dataWrite (pPasid p) (pWord p 2) bs
          ({ s with pk := { s.pk with sealCtr := ctr + 1 } } : State).finishPacket f 0)

/-- Bytes 0x0000 to 0x072F of a report (R327). -/
def State.reportBody (s : State) (p : Packet) (cipher : Option (List Byte)) : List Byte :=
  word8 (1 + s.pk.svn * 65536 + 32016 * 2 ^ 32) ++ word8 Config.deviceId.toNat ++
  ((List.range 4).flatMap (fun i => word8 (pWord p (4 + i)))) ++
  padTo 48 (Config.identityHash 0) ++ padTo 48 (Config.identityHash 1) ++
  word8 s.pk.funcsplit ++ word8 s.pk.alarm ++ word8 s.beat ++ word8 (ifOf p.q + flag64 cipher.isSome 8) ++
  padTo 48 (Config.identityHash 2) ++ padTo 48 (Config.identityHash 3) ++
  padTo 1568 (cipher.getD [])

/-- ATTEST (R326 to R328): a signed report, and with a key of the host a session of the interface. -/
def execAttest (p : Packet) (s : State) : Result :=
  packetRow 0x0B p s (fun f s =>
    if s.pk.seedErased then s.finishPacket f 0x2A
    else match p.host with
      | none => s.finishPacket f 0x29
      | some ek =>
        let wants := pWord p 3 != 0
        if wants && decide (ek.length < 1568) then s.finishPacket f 0x29
        else
          let e := Config.encapsulate (ek.take 1568) s.pk.sealCtr
          let body := s.reportBody p (if wants then some e.1 else none)
          let key := sessionKey e.2 ((List.range 4).flatMap (fun i => word8 (pWord p (4 + i))))
          let s := s.dataWrite (pPasid p) (pWord p 2)
            (body ++ padTo 384 (Config.signReport 0 body) ++ padTo 29792 (Config.signReport 1 body))
          let s : State := if wants then
              { s with pk := { s.pk with
                sealCtr := s.pk.sealCtr + 1
                sessions := (ifOf p.q, key) :: s.pk.sessions.filter (fun x => x.1 != ifOf p.q) } }
            else s
          s.finishPacket f 0)

/-! ## FUNCSPLIT and service requests (R323, R324) -/

/-- FSREQ (R312): an interface above 63 is ignored. -/
def State.writeFsreq (s : State) (v : Word64) : State :=
  let svc := if bits v.toNat 8 8 < 64 then bits v.toNat 8 8 else bits s.pk.fsreq.toNat 8 8
  ({ s with pk := { s.pk with fsreq := BitVec.ofNat 64 (svc * 256 + bits v.toNat 0 6) } } : State).applySplit

/-- FSREQ as it reads (R312). -/
def State.readFsreq (s : State) : Word64 := s.pk.fsreq ||| BitVec.ofNat 64 (s.pk.funcsplit % 64 * 2 ^ 24)

/-- FSREQ_WRITE (R323). -/
def execFsreqWrite (v : Word64) (s : State) : Result := .next (s.writeFsreq v)

/-- The queue that takes service requests, and whether it can take one now (R321, R323). -/
def State.svcQueue (s : State) : Nat := 64 * bits s.pk.fsreq.toNat 8 8
def State.svcRoom (s : State) : Bool :=
  let x := s.queueOf s.svcQueue
  !s.ifClosed (ifOf s.svcQueue) && x.cfg.getLsbD 63 && x.halt != 6 && x.room && s.pk.booted
/-- A service request becomes a record of its queue (R321). -/
def State.sendSvc (s : State) (r : SvcReq) : State :=
  let q := s.svcQueue
  let s := s.writeRecord q (0xF0 + r.f) 0xFFFF s.pk.svcSeq r.object r.detail
  let s : State := { s with pk := { s.pk with svcSeq := (s.pk.svcSeq + 1) % 2 ^ 32, svcs := s.pk.svcs ++ [r] } }
  s.interrupt q
/-- Service requests that wait go out, oldest first, as far as there is room (R321). -/
def State.sendSvcs (s : State) : State :=
  s.pk.svcWait.foldl (fun (s : State) r =>
    if s.svcRoom then { s with pk := { s.pk with svcWait := s.pk.svcWait.drop 1 } }.sendSvc r else s) s

/-- Does a LAUNCH of the rank wait for a seat (R324)? -/
def State.seatWanted (s : State) (r : Rank) : Bool :=
  r.base.isNone && s.pk.queues.any (fun x => match x.fetched with
    | f :: _ => pOp f.p == 1 && pJob f.p == r.job && pRank f.p == r.rank
    | [] => false)
/-- The request of a function for an object, as R324 encodes it, where the object is one that it may decide on. What no register holds comes
with the request: the host address of a peer's report, the use of a key, and whether the region of parked images lacks room. -/
def State.svcReq (s : State) (f : Nat) (object detail : Word64) : Option SvcReq :=
  let o := object.toNat
  let job := bits o 32 32
  let mk := fun (low d : Nat) => SvcReq.mk f (BitVec.ofNat 64 (job * 2 ^ 32 + low)) (BitVec.ofNat 64 d)
  let rank := fun (ok : Rank → Bool) (d : Rank → Nat) => ((s.resident job (bits o 0 16)).filter ok).map (fun r => mk (bits o 0 16) (d r))
  match f with
  | 0 => rank (fun r => !s.bound r) (fun r => r.fpc + flag64 (s.seatWanted r) 8)
  | 1 => rank (fun r => r.st == .parked && !r.moving) (fun r => s.ownModule job + flag64 r.byPark 16)
  | 2 =>
    let pg := bits o 0 30
    if s.poison.contains pg then some ⟨2, BitVec.ofNat 64 pg, BitVec.ofNat 64 (flag64 (paCold (pg * 4096)) 0 + flag64 (!(s.mappers pg).isEmpty) 1)⟩ else none
  | 3 => some (mk (bits o 0 12) detail.toNat)
  | 4 => if decide (detail.toNat % 256 = 1 ∨ detail.toNat % 256 = 2) then some (mk (bits o 0 12) (detail.toNat % 256)) else none
  | _ => rank (fun r => r.st == .parked && !r.moving) (fun _ => detail.toNat % 2)

/-- A peer module is accepted, or rejected as a failed authentication (R324, R328). -/
def State.judgePeer (s : State) (object : Word64) (ok : Bool) : State :=
  let x := (bits object.toNat 32 32, bits object.toNat 0 12)
  let s := if ok then s.authOk else s.authFail
  { s with pk := { s.pk with peers := (if ok then [x] else []) ++ s.pk.peers.filter (fun y => y != x) } }
/-- The key of a use with a peer (R323, R324). -/
def State.setPeerKey (s : State) (object : Word64) (use : Nat) (key : List Byte) : State :=
  let job := bits object.toNat 32 32
  let peer := bits object.toNat 0 12
  { s with pk := { s.pk with peerKeys := ⟨job, peer, use, key⟩ :: s.pk.peerKeys.filter (fun k => !(k.job == job && k.peer == peer && k.use == use)) } }
/-- What a function does in hardware mode when it falls due (R323): a peer's report is verified, a key is agreed, firmware makes a parked rank
cold. Seats, moves and poisoned pages have rows of their own. -/
def State.selfServe (s : State) (r : SvcReq) : State :=
  match r.f with
  | 3 => ({ s with free := s.free + 1 } : State).judgePeer r.object (Config.peerVerifies s.free)
  | 4 =>
    if s.pk.keysErased then s
    else ({ s with free := s.free + 1 } : State).setPeerKey r.object (r.detail.toNat % 256)
      ((Config.deriveKey Config.identitySeed (word8 r.detail.toNat ++ word8 r.object.toNat ++ Config.agreedSecret s.free)).take 32)
  | 5 => match s.resident (bits r.object.toNat 32 32) (bits r.object.toNat 0 16) with
    | some k => if s.mayCool k then s.sealCold k else s
    | none => s
  | _ => s

/-- A request goes to the host: a peer's report is written first (R324); a record on queue 0 of the SVC interface, once there is room (R321). -/
def State.raiseSvc (s : State) (r : SvcReq) : State :=
  let s := if r.f == 3 then
      s.dataWrite (qifPasid (s.qif (ifOf s.svcQueue))) r.detail.toNat (padTo 32016 (Config.peerReport (bits r.object.toNat 32 32) (bits r.object.toNat 0 12)))
    else s
  if s.svcRoom && s.pk.svcWait.isEmpty then s.sendSvc r else { s with pk := { s.pk with svcWait := s.pk.svcWait ++ [r] } }

/-- SERVICE_REQUEST (R321, R323, R324): a function falls due; the device performs it, or asks the host. -/
def execServiceRequest (f : Nat) (object detail : Word64) (s : State) : Result :=
  if f ≥ 6 then .fault .noSuchInput
  else match s.svcReq f object detail with
  | none => .next s
  | some r =>
    if !s.asksHost f then .next (s.selfServe r)
    else if (s.pk.svcs ++ s.pk.svcWait).any (fun x => x.f == f && x.object == r.object) then .next s
    else .next (s.raiseSvc r)

/-- What a decision of the host does: the state after, or the status that refuses it (R324). -/
def State.applyDecision (s : State) (p : Packet) (f : Nat) (object : Word64) (w : Nat) : State × Nat :=
  let job := bits object.toNat 32 32
  let rank := bits object.toNat 0 16
  match f with
  | 0 =>
    let b := bits w 0 5
    let slice := bits w 32 21
    if w != b + bits w 5 3 * 32 + slice * 2 ^ 32 then (s, 0x27)
    else match s.resident job rank with
      | none => (s, 0x27)
      | some r =>
        if bits w 5 3 != r.fpc || b % fpSize r.fpc != 0 || decide (slice < 4096 ∨ slice > 2 ^ 20) || !(s.freeBases r.fpc).contains b ||
            s.bound r then (s, 0x27)
        else ((s.addSeat b r.fpc slice).setRank { r with base := some b }, 0)
  | 1 =>
    if w.testBit 63 then (if w == 2 ^ 63 then (s, 0) else (s, 0x27))
    else match s.jobOf job, s.rankOf job rank with
      | some j, some r =>
        if w ≥ 4096 ∨ w ≥ j.nmod then (s, 0x27)
        else (s.startMove j r w, 0)
      | _, _ => (s, 0x27)
  | 2 =>
    let pg := object.toNat % 2 ^ 30
    if w == 0 then
      let s := (List.range 4096).foldl (fun (s : State) i => s.homeWrite (pg * 4096 + i) 0xFF#8 0#8) s
      ({ s with poison := s.poison.filter (fun x => x != pg) }, 0)
    else if w == 1 then (s, 0)
    else (s, 0x27)
  | 3 => if w ≤ 1 then (s.judgePeer object (w == 1), 0) else (s, 0x27)
  | 4 =>
    match p.host with
    | none => (s, 0x29)
    | some bs =>
      match (match s.session (64 * bits s.pk.fsreq.toNat 8 8) with
        | some key => keyUnwrap key (bs.take 40)
        | none => none) with
      | none => (s.authFail, 0x27)
      | some key =>
        let use := match s.pk.svcs.find? (fun r => r.f == 4 && r.object == object) with | some r => bits r.detail.toNat 0 8 | none => 0
        (s.authOk.setPeerKey object use key, 0)
  | _ =>
    if w == 0 then (s, 0)
    else if w != 1 then (s, 0x27)
    else match s.resident job rank with
      | some r => (if s.mayCool r then s.sealCold r else s, 0)
      | none => (s, 0)

/-- SVC (R323, R324): the host answers a request; a refused decision leaves it outstanding. -/
def execSvc (p : Packet) (s : State) : Result :=
  packetRow 0x0C p s (fun f s =>
    let n := pWord p 1
    let object := BitVec.ofNat 64 (pWord p 2)
    if !s.pk.svcs.any (fun r => r.f == n && r.object == object) then s.finishPacket f 0x2A
    else
      let x := s.applyDecision p n object (pWord p 3)
      if x.2 != 0 then x.1.finishPacket f x.2
      else
        let s := x.1
        let s : State := { s with pk := { s.pk with svcs := s.pk.svcs.filter (fun r => !(r.f == n && r.object == object)) } }
        s.applySplit.finishPacket f 0)

/-! ## JOIN, RANKNEW, LEAVE (R322, R334) -/

/-- The far beat of a port's link, as its beat flits give it now (R322, R334). -/
def State.farBeat (s : State) (port : Nat) : Option Nat :=
  let x := s.portOf port
  if decide (port < 144) && x.alive then x.seen.map (fun b => b.1 + x.flight + (s.beat - b.2)) else none

/-- The initial map: entries that differ from zero. -/
def mapOf (bs : List Byte) : List (Nat × Half) :=
  (List.range 65536).filterMap (fun i =>
    let e := leNat ((bs.drop (2 * i)).take 2)
    if e == 0 then none else some (i, BitVec.ofNat 16 e))
/-- Does the map name a module for some rank of the job? -/
def mapNames (m : List (Nat × Half)) (nrank modnum : Nat) : Bool :=
  (List.range (nrank + 1)).any (fun i => (match m.find? (fun x => x.1 == i) with | some x => x.2.toNat % 4096 | none => 0) == modnum)

/-- BEAT takes a new value when the module joins the reference; beats recorded by the links move with it. -/
def State.setBeat (s : State) (b : Nat) : State :=
  { s with
    beat := b
    pk := { s.pk with ports := s.pk.ports.map (fun x => { x with
      last := b - (s.beat - x.last), seen := x.seen.map (fun y => (y.1, b - (s.beat - y.2))) }) } }

/-- JOIN (R322, R334, R353). -/
def execJoin (p : Packet) (s : State) : Result :=
  packetRow 0x0D p s (fun f s =>
    let job := pJob p
    let modnum := bits (pWord p 1) 0 12
    let root2 := bits (pWord p 2) 12 30 * 4096
    let nrank := bits (pWord p 3) 0 16
    let port := bits (pWord p 4) 0 8
    let far := s.farBeat port
    let bs := p.host.getD []
    let m := mapOf bs
    if (s.jobOf job).isSome || decide (bs.length < 131072) || !mapNames m nrank modnum ||
        !(paHbm root2 || paCold root2) || s.pagePoisoned root2 || (port != 0xFF && far.isNone) then s.finishPacket f 0x2B
    else if s.pk.beatRef && (match far with | some b => port != 0xFF && (decide (b > s.beat + 16) || decide (s.beat > b + 16)) | none => false) then
      (s.killPort port).finishPacket f 0x2B
    else
      let s := if s.pk.beatRef || port == 0xFF then s else s.setBeat (far.getD s.beat)
      ({ s with pk := { s.pk with
        beatRef := true
        jobs := s.pk.jobs ++ [⟨job, modnum, root2, nrank, bits (pWord p 3) 16 12 + 1, m, []⟩] } } : State).finishPacket f 0)

/-- The physical page of a rank's random table: a page of the rank on this module with W = 1 (R322). -/
def State.tablePage (s : State) (r : Rank) : Option Nat :=
  let va := r.rngt0.toNat
  if va ≥ spadBase then none
  else match s.translate r.job r.rank va with
    | .error _ => none
    | .ok t => if t.tier == 2 || t.module != s.ownModule r.job || !t.w then none else some (t.out + (va - t.va))

/-- RANKNEW (R76, R291, R292, R322). -/
def execRanknew (p : Packet) (s : State) : Result :=
  packetRow 0x0E p s (fun f s =>
    match s.session p.q with
    | none => s.finishPacket f 0x2A
    | some key =>
      let rank := pRank p
      let fpc := bits (pWord p 3) 0 3
      match s.jobOf (pJob p) with
      | none => s.finishPacket f 0x2B
      | some j =>
        if rank > j.nrank ∨ (s.resident (pJob p) rank).isSome ∨ s.mapEntry (pJob p) rank != j.modnum ∨ fpc ≥ 6 then s.finishPacket f 0x2B
        else
          let r : Rank := ⟨pJob p, rank, fpc, .parked, none, bits (pWord p 2) 12 44 * 4096, [], BitVec.ofNat 64 (bits (pWord p 4) 12 44 * 4096),
            [], 0#64, 0, 0, 0, Image.empty, none, [], false, false⟩
          let s1 : State := { s with pk := { s.pk with ranks := s.pk.ranks.filter (fun x => !(x.job == r.job && x.rank == r.rank)) ++ [r] } }
          match s1.tablePage r with
          | none => s.finishPacket f 0x2B
          | some pa =>
            match keyUnwrap key ((List.range 5).flatMap (fun i => word8 (pWord p (8 + i)))) with
            | none => s.authFail.finishPacket f 0x2B
            | some seed =>
              let s2 := ((List.range 4096).zip (shake256 seed 4096)).foldl (fun (s : State) x => s.homeWrite (pa + x.1) 0xFF#8 x.2) s1.authOk
              let s3 := s2.setRank { r with seed := seed }
              (s3.bindSeat { r with seed := seed }).1.finishPacket f 0)

/-- LEAVE (R322). -/
def execLeave (p : Packet) (s : State) : Result :=
  packetRow 0x0F p s (fun f s =>
    let job := pJob p
    if s.pk.ranks.any (fun r => r.job == job && r.st != .dead) then s.finishPacket f 0x2A
    else
      let s : State := { s with pk := { s.pk with
        jobs := s.pk.jobs.filter (fun j => j.job != job)
        ranks := s.pk.ranks.filter (fun r => r.job != job)
        tombs := s.pk.tombs.filter (fun t => t.job != job) } }
      (s.mapCores (fun c => if c.job == job then { c with tlb := [] } else c)).finishPacket f 0)

/-! ## Rings (R316, R317, R319, R320) -/

/-- PACKET_FETCH (R317 to R320): the packet at HEAD, as the ring read returned it. What a read returns to a queue that stopped is dropped
(R315, R319). -/
def execPacketFetch (p : Packet) (s : State) : Result :=
  if p.q ≥ 4096 then .fault .noSuchInput
  else if p.words.length != 8 * (pLen p + 1) then .fault .noSuchInput
  else
    let x := s.queueOf p.q
    let n := pLen p + 1
    let size := ringSize x.ring
    let held := sub32 x.tail x.head
    if x.stale != 0 then .next (s.setQueue { x with stale := x.stale - 1 })
    else if s.ifClosed (ifOf p.q) || x.halt != 0 || !x.cfg.getLsbD 63 || held == 0 then .next s
    else if n > size then .next (s.haltQueue p.q 2)
    else if x.head % size + n > size then .next (s.haltQueue p.q 1)
    else if held < n then .next s
    else
      let y : Queue := { x with head := (x.head + n) % 2 ^ 32 }
      if pOp p == 0 then .next (s.setQueue { y with fetched := x.fetched ++ [⟨x.seq, p⟩] })
      else .next (s.setQueue { y with seq := (x.seq + 1) % 2 ^ 32, fetched := x.fetched ++ [⟨x.seq, p⟩] })

/-- A packet whose OP names no command (R318): it starts in its turn and completes with 0x27. -/
def State.noSuchOp (s : State) (p : Packet) : State := s.startPacket (pOp p) p (fun f s => s.finishPacket f 0x27)

/-- NOTIFY_TAIL (R315, R317, R319). -/
def execNotifyTail (q : Nat) (v : Word32) (s : State) : Result :=
  if q ≥ 4096 then .fault .noSuchInput
  else if s.ifClosed (ifOf q) then .next (s.drop (ifOf q))
  else
    let x := s.queueOf q
    let s := s.setQueue { x with tail := v.toNat }
    if x.cfg.getLsbD 63 && x.halt == 0 && decide (sub32 v.toNat x.head > ringSize x.ring) then .next (s.haltQueue q 3) else .next s

/-- NOTIFY_COMPLETION_HEAD (R315, R317). -/
def execNotifyCompletionHead (q : Nat) (v : Word32) (s : State) : Result :=
  if q ≥ 4096 then .fault .noSuchInput
  else if s.ifClosed (ifOf q) then .next (s.drop (ifOf q))
  else .next (s.setQueue { s.queueOf q with chead := v.toNat })

/-- A 32-bit write to a notify page, by its offset in BAR2 (R311, R317): elsewhere on the page it is ignored. -/
def execBar2Write (off : Nat) (v : Word32) (s : State) : Result :=
  match off % 4096 with
  | 0 => execNotifyTail (off / 4096) v s
  | 8 => execNotifyCompletionHead (off / 4096) v s
  | _ => .next s
/-- What a notify page reads (R317). -/
def bar2Read (_off : Nat) : Word64 := 0#64

/-- Reserved bits of QCFG, QRING and QCMPL take no write (R9, R316). -/
def qcfgMask : Word64 := 0x800000001FFF000F#64
def ringMask : Word64 := 0xFFFFFFFFFFFFF01F#64

/-- A write of QCFG (R316); a queue of a closed interface reports HALT 5 and does no DMA (R315). -/
def State.writeQcfg (s : State) (q : Nat) (v : Word64) : State :=
  let x := s.queueOf q
  let y : Queue := { (if v.getLsbD 63 then x else x.keepRead) with cfg := v &&& qcfgMask }
  if v.getLsbD 63 && !x.cfg.getLsbD 63 then
    let z : Queue := { y with head := 0, tail := 0, chead := 0, halt := if s.ifClosed (ifOf q) then 5 else 0, phase := true, written := 0, fetched := [] }
    if s.ifClosed (ifOf q) then s.setQueue z
    else if ringOk x.ring 64 && ringOk x.cmpl 32 then s.setQueue z else (s.setQueue z).haltQueue q 6
  else s.setQueue y

/-- QCFG_ENABLE (R316). -/
def execQcfgEnable (q : Nat) (v : Word64) (s : State) : Result :=
  if q ≥ 4096 ∨ v.getLsbD 63 = false then .fault .noSuchInput else .next (s.writeQcfg q v)
/-- QCFG_DISABLE (R316). -/
def execQcfgDisable (q : Nat) (v : Word64) (s : State) : Result :=
  if q ≥ 4096 ∨ v.getLsbD 63 = true then .fault .noSuchInput else .next (s.writeQcfg q v)

/-! ## Interfaces (R313, R315) -/

/-- The queues of a closed interface halt with code 5 (R315, R319). -/
def State.closeIf (s : State) (i : Nat) : State :=
  (List.range 64).foldl (fun (s : State) k => s.haltQueue (64 * i + k) 5) s

/-- A write of QIFCTL (R313, R315). -/
def State.writeQif (s : State) (i : Nat) (v : Word64) : State :=
  let old := (s.qif i).toNat
  let w := v.toNat
  let wasEn := old.testBit 0
  let src := if wasEn then old else w
  let keep := bits src 12 20 * 2 ^ 12 + bits src 36 4 * 2 ^ 36
  let en := w.testBit 0 && (wasEn || (bits w 12 20 != 0 && s.pk.booted))
  let rev := w.testBit 0 && (old.testBit 2 || w.testBit 2)
  let dropc := if en && !wasEn then 0 else bits old 48 16
  let s := s.setQif i (BitVec.ofNat 64 (keep + flag64 en 0 + flag64 rev 2 + dropc * 2 ^ 48))
  if !w.testBit 0 || (rev && !old.testBit 2) then s.closeIf i else s

/-- QIFCTL_ENABLE (R313). -/
def execQifctlEnable (i : Nat) (v : Word64) (s : State) : Result :=
  if i ≥ 64 ∨ v.getLsbD 0 = false then .fault .noSuchInput else .next (s.writeQif i v)
/-- QIFCTL_CLOSE (R315). -/
def execQifctlClose (i : Nat) (v : Word64) (s : State) : Result :=
  if i ≥ 64 ∨ v.getLsbD 0 = true then .fault .noSuchInput else .next (s.writeQif i v)
/-- QIFCTL_REVOKE (R315). -/
def execQifctlRevoke (i : Nat) (v : Word64) (s : State) : Result :=
  if i ≥ 64 ∨ v.getLsbD 0 = false ∨ v.getLsbD 2 = false then .fault .noSuchInput else .next (s.writeQif i v)

/-! ## BAR0 (R311, R312, R316) -/

def State.setBar0 (s : State) (off : Nat) (v : Word64) : State :=
  { s with pk := { s.pk with bar0 := (off, v) :: s.pk.bar0.filter (fun x => x.1 != off) } }

/-- BAR0_REGISTER_WRITE (R311): a 64-bit host write at an offset of BAR0. -/
def execBar0RegisterWrite (off : Nat) (v : Word64) (s : State) : Result :=
  if off ≥ 2 ^ 20 ∨ off % 8 ≠ 0 then .fault .noSuchInput
  else if off == 0x10 then .next (s.writeFsreq v)
  else if off < 0x10000 then .next s
  else if off < 0x10200 then .next (s.writeQif ((off - 0x10000) / 8) v)
  else if off < 0x20000 then .next s
  else if off < 0x30000 then .next (s.setBar0 off v)
  else if off < 0x40000 then .next s
  else if off < 0x60000 then
    let q := (off - 0x40000) / 32
    let x := s.queueOf q
    match off % 32 with
    | 0x00 => .next (if x.cfg.getLsbD 63 then s else s.setQueue { x with ring := v &&& ringMask })
    | 0x08 => .next (if x.cfg.getLsbD 63 then s else s.setQueue { x with cmpl := v &&& ringMask })
    | 0x10 => .next (s.writeQcfg q v)
    | _ => .next s
  else if off < 0x80000 then .next s
  else if off < 0x90000 then .next (s.setBar0 off v).sendPending
  else .next s

/-- BOOTSTAT as it reads (R312). -/
def State.bootstat (s : State) : Word64 :=
  BitVec.ofNat 64 (s.pk.svn % 65536 * 2 ^ 32 + flag64 s.pk.booted 16 + s.pk.fsvn % 256 * 256 + s.pk.reason % 256)
/-- QSTAT as it reads (R316). -/
def Queue.stat (x : Queue) : Word64 := BitVec.ofNat 64 (x.halt % 256 * 2 ^ 32 + x.head % 2 ^ 32)
/-- What BAR0 reads at an offset (R311, R312, R313, R316). -/
def State.bar0Read (s : State) (off : Nat) : Word64 :=
  if off == 0 then s.bootstat
  else if off == 8 then BitVec.ofNat 64 s.pk.alarm
  else if off == 0x10 then s.readFsreq
  else if off == 0x18 then BitVec.ofNat 64 s.pk.throt
  else if 0x10000 ≤ off ∧ off < 0x10200 then s.qifRead ((off - 0x10000) / 8)
  else if 0x40000 ≤ off ∧ off < 0x60000 then
    let x := s.queueOf ((off - 0x40000) / 32)
    match off % 32 with | 0 => x.ring | 8 => x.cmpl | 0x10 => x.cfg | _ => x.stat
  else if 0x90000 ≤ off ∧ off < 0x90100 then
    BitVec.ofNat 64 ((List.range 64).foldl (fun n k => n + flag64 (s.pk.pba.contains ((off - 0x90000) * 8 + k)) k) 0)
  else s.bar0Word off

/-! ## Host DMA (R310, R315, R319) -/

/-- HOST_DMA_COMPLETION (R310, R313, R319): the host completes a ring read (the packet's words are given), a completion write (no
words) or a data write (no words, and its bytes); a failure of the first two halts the queue with code 4. The bytes of a ring read that was served
come with PACKET_FETCH; a ring read that is still under way when a completion write fails is awaited (R313). -/
def execHostDmaCompletion (p : Packet) (ok : Bool) (s : State) : Result :=
  if p.q ≥ 4096 then .fault .noSuchInput
  else
    let x := s.queueOf p.q
    if p.words.isEmpty && p.host.isSome then
      .next { s with pk := { s.pk with dataDma := s.pk.dataDma.erase (qifPasid (s.qif (ifOf p.q))) } }
    else if p.words.isEmpty then
      let y := { x with dma := x.dma - 1 }
      if ok || x.halt != 0 then .next (s.setQueue y) else .next ((s.setQueue y.keepRead).haltQueue p.q 4)
    else if ok then .next s
    else if x.stale != 0 then .next (s.setQueue { x with stale := x.stale - 1 })
    else if x.halt != 0 then .next s
    else .next (s.haltQueue p.q 4)

end Sys2Proof.Machine
end

