-- ==== Sys2Proof/Machine/Security.lean ====
section
/-! DEFINITION. Boot (R312, R325), alarms (R328), the Ringmaster's lock-step (R307), the poison function (R279), power (R329) and
the management link. -/
namespace Sys2Proof.Machine

/-! ## Kills of the whole package -/

/-- Every context is killed with a status (R307, R328). -/
def State.killAll (s : State) (status : Nat) (now : Bool) : State :=
  s.pk.launches.foldl (fun (s : State) l =>
    match s.launchOf l.job l.rank with
    | some x => if x.killed.isSome then s else s.killContext x status now
    | none => s) s

/-- What alarm level 2 does (R328): keys and sessions are gone, every context is pre-empted and killed. -/
def State.alarmTwo (s : State) : State :=
  ({ s with pk := { s.pk with keysErased := true, sessions := [], peerKeys := [], alarmDue := false } } : State).killAll 0x26 false

/-- A source raises the alarm (R328). -/
def State.raiseAlarm (s : State) (src level : Nat) : State :=
  ({ s with pk := { s.pk with alarm := alarmSrc s.pk.alarm src level } } : State).alarmTwo

/-- GLITCH_SENSOR (R328). -/
def execGlitchSensor (s : State) : Result := .next (s.raiseAlarm 1 2)

/-- MESH_BREACH (R328): level 3 also erases the identity key seed. -/
def execMeshBreach (s : State) : Result :=
  let s := s.raiseAlarm 2 3
  .next { s with pk := { s.pk with seedErased := true } }

/-- LOCKSTEP_MISMATCH (R307, R328): the pair restarts; a second mismatch within 2^30 beats of the first kills every context. -/
def execLockstepMismatch (security : Bool) (s : State) : Result :=
  let s := if security then s.raiseAlarm 8 2 else s
  match s.pk.mismatch with
  | some b =>
    if s.beat ≤ b + 2 ^ 30 then .next (s.killAll 0x15 true) else .next { s with pk := { s.pk with mismatch := some s.beat } }
  | none => .next { s with pk := { s.pk with mismatch := some s.beat } }

/-! ## Boot (R312, R325) -/

/-- REASON of BOOTSTAT; of several the first in this order (log 26). -/
def bootReason (b : BootImage) : Nat :=
  if !b.readable then 4
  else if !b.fuses then 5
  else if !b.rsaOk then 1
  else if !b.slhOk then 2
  else if b.svn < b.fsvn then 3
  else if b.mismatch then 6
  else 0

/-- BOOT (R325): the device runs, or stays in recovery. -/
def execBoot (b : BootImage) (s : State) : Result :=
  if s.pk.booted then .next s
  else
    let ok := bootReason b == 0
    .next { s with pk := { s.pk with booted := ok, reason := bootReason b, svn := if ok then b.svn else 0, fsvn := b.fsvn } }

/-! ## Poison (R279, R323) -/

/-- A page is retired: its 4 KiB leaves name a spare page, whose bytes are indeterminate (R279; log 3). Pinned translations stay until their
launch ends (R299). -/
def State.retirePage (s : State) (pg : Nat) : State :=
  let spare := Config.sparePage s.pk.spares % 0xC000000
  let s := (s.mappers pg).foldl (fun (s : State) x =>
    s.putEntry x.at_ (x.e - bits x.e 12 30 * 4096 + spare * 4096)) s
  let s := s.mapCores (fun c => if c.timetabled then c else { c with tlb := c.tlb.filter (fun t => !decide (t.out ≤ pg * 4096 ∧ pg * 4096 < t.out + t.size)) })
  { s with
    mem := s.mem.blur (spare * 4096) 4096 s.free
    free := s.free + 4096
    poison := s.poison.filter (fun x => x != pg)
    pk := { s.pk with spares := s.pk.spares + 1 } }

/-- POISON_SCRUB (R279, R323): in hardware mode the poison function scrubs a page, or retires it. -/
def execPoisonScrub (page : Nat) (scrub : Bool) (s : State) : Result :=
  if page ≥ 2 ^ 30 then .fault .noSuchInput
  else if !s.poison.contains page || s.asksHost 2 then .next s
  else if scrub then
    let s := (List.range 4096).foldl (fun (s : State) i => s.homeWrite (page * 4096 + i) 0xFF#8 0#8) s
    .next { s with poison := s.poison.filter (fun x => x != page) }
  else if (s.mappers page).any (fun x => bits x.e 5 3 != 0) then .next s
  else .next (s.retirePage page)

/-! ## Power (R329) -/

/-- THROTTLE_CHANGE (R329). -/
def execThrottleChange (level : Nat) (s : State) : Result :=
  if level ≥ 4 then .fault .noSuchInput
  else
    let s : State := { s with pk := { s.pk with
      throt := level, throtHold := if level == 3 then true else if level == 0 then false else s.pk.throtHold } }
    if level != 3 then .next s
    else .next (s.pk.launches.foldl (fun (s : State) l =>
      if l.timetabled then (if l.killed.isSome then s else s.killContext l 0x26 true)
      else s.mapFoot l.job l.rank (fun c => { c with urgent := true })) s)

/-- MCTP_READ (R329): the management controller reads temperatures and power (free values, log 3), THROT, ALARM and
BOOTSTAT. -/
def execMctpRead (s : State) : Result :=
  let s := s.emit (.mctp [Config.freeWord s.free, Config.freeWord (s.free + 1), BitVec.ofNat 64 s.pk.throt, BitVec.ofNat 64 s.pk.alarm, s.bootstat])
  .next { s with free := s.free + 2 }

end Sys2Proof.Machine
end

