-- ==== Sys2Proof/Machine/Dispatch.lean ====
section
/-! DEFINITION. One meaning for every instruction, called from one place. -/
namespace Sys2Proof.Machine

def exec (i : Instr) (s : State) : Host.Outcome State Fault Refusal :=
  match i with
  | .bundleIssue w => Sys2Proof.Machine.execBundleIssue w s
  | .resultDelivery => Sys2Proof.Machine.execResultDelivery s
  | .storePerform => Sys2Proof.Machine.execStorePerform s
  | .beatOverrun => Sys2Proof.Machine.execBeatOverrun s
  | .add o => Sys2Proof.Machine.execAdd o s
  | .addDirectReg d a => Sys2Proof.Machine.execAddDirectReg d a s
  | .addDirectImm d imm => Sys2Proof.Machine.execAddDirectImm d imm s
  | .sub o => Sys2Proof.Machine.execSub o s
  | .subDirect d a => Sys2Proof.Machine.execSubDirect d a s
  | .addsh o => Sys2Proof.Machine.execAddsh o s
  | .mul o => Sys2Proof.Machine.execMul o s
  | .mulh o => Sys2Proof.Machine.execMulh o s
  | .div o => Sys2Proof.Machine.execDiv o s
  | .rem o => Sys2Proof.Machine.execRem o s
  | .abs o => Sys2Proof.Machine.execAbs o s
  | .and o => Sys2Proof.Machine.execAnd o s
  | .andDirect d a => Sys2Proof.Machine.execAndDirect d a s
  | .or o => Sys2Proof.Machine.execOr o s
  | .orDirect d a => Sys2Proof.Machine.execOrDirect d a s
  | .xor o => Sys2Proof.Machine.execXor o s
  | .xorDirect d a => Sys2Proof.Machine.execXorDirect d a s
  | .andn o => Sys2Proof.Machine.execAndn o s
  | .shl o => Sys2Proof.Machine.execShl o s
  | .shlDirect d imm => Sys2Proof.Machine.execShlDirect d imm s
  | .shr o => Sys2Proof.Machine.execShr o s
  | .shrDirect d imm => Sys2Proof.Machine.execShrDirect d imm s
  | .sar o => Sys2Proof.Machine.execSar o s
  | .rol o => Sys2Proof.Machine.execRol o s
  | .min o => Sys2Proof.Machine.execMin o s
  | .max o => Sys2Proof.Machine.execMax o s
  | .minu o => Sys2Proof.Machine.execMinu o s
  | .maxu o => Sys2Proof.Machine.execMaxu o s
  | .cmp o => Sys2Proof.Machine.execCmp o s
  | .sel o => Sys2Proof.Machine.execSel o s
  | .mov o => Sys2Proof.Machine.execMov o s
  | .movDirectImm d imm => Sys2Proof.Machine.execMovDirectImm d imm s
  | .movDirectLit d lit => Sys2Proof.Machine.execMovDirectLit d lit s
  | .movhi o => Sys2Proof.Machine.execMovhi o s
  | .movhiDirect d q lit => Sys2Proof.Machine.execMovhiDirect d q lit s
  | .clz o => Sys2Proof.Machine.execClz o s
  | .ctz o => Sys2Proof.Machine.execCtz o s
  | .popc o => Sys2Proof.Machine.execPopc o s
  | .brev o => Sys2Proof.Machine.execBrev o s
  | .bswap o => Sys2Proof.Machine.execBswap o s
  | .bext o => Sys2Proof.Machine.execBext o s
  | .bins o => Sys2Proof.Machine.execBins o s
  | .ext o => Sys2Proof.Machine.execExt o s
  | .fadd o => Sys2Proof.Machine.execFadd o s
  | .fsub o => Sys2Proof.Machine.execFsub o s
  | .fmul o => Sys2Proof.Machine.execFmul o s
  | .fma o => Sys2Proof.Machine.execFma o s
  | .fdiv o => Sys2Proof.Machine.execFdiv o s
  | .fsqrt o => Sys2Proof.Machine.execFsqrt o s
  | .fmin o => Sys2Proof.Machine.execFmin o s
  | .fmax o => Sys2Proof.Machine.execFmax o s
  | .fcmp o => Sys2Proof.Machine.execFcmp o s
  | .fclass o => Sys2Proof.Machine.execFclass o s
  | .fsgn o => Sys2Proof.Machine.execFsgn o s
  | .fcvt o => Sys2Proof.Machine.execFcvt o s
  | .fcvti o => Sys2Proof.Machine.execFcvti o s
  | .icvtf o => Sys2Proof.Machine.execIcvtf o s
  | .vadd o => Sys2Proof.Machine.execVadd o s
  | .vsub o => Sys2Proof.Machine.execVsub o s
  | .vmul o => Sys2Proof.Machine.execVmul o s
  | .vfma o => Sys2Proof.Machine.execVfma o s
  | .vfms o => Sys2Proof.Machine.execVfms o s
  | .vmin o => Sys2Proof.Machine.execVmin o s
  | .vmax o => Sys2Proof.Machine.execVmax o s
  | .vabs o => Sys2Proof.Machine.execVabs o s
  | .vneg o => Sys2Proof.Machine.execVneg o s
  | .vand o => Sys2Proof.Machine.execVand o s
  | .vor o => Sys2Proof.Machine.execVor o s
  | .vxor o => Sys2Proof.Machine.execVxor o s
  | .vandn o => Sys2Proof.Machine.execVandn o s
  | .vnot o => Sys2Proof.Machine.execVnot o s
  | .vshl o => Sys2Proof.Machine.execVshl o s
  | .vshr o => Sys2Proof.Machine.execVshr o s
  | .vsar o => Sys2Proof.Machine.execVsar o s
  | .vrol o => Sys2Proof.Machine.execVrol o s
  | .vcmp o => Sys2Proof.Machine.execVcmp o s
  | .vsel o => Sys2Proof.Machine.execVsel o s
  | .vmov o => Sys2Proof.Machine.execVmov o s
  | .vbcast o => Sys2Proof.Machine.execVbcast o s
  | .vbcastLane o => Sys2Proof.Machine.execVbcastLane o s
  | .vbcastIota o => Sys2Proof.Machine.execVbcastIota o s
  | .vcvt o => Sys2Proof.Machine.execVcvt o s
  | .vmulh o => Sys2Proof.Machine.execVmulh o s
  | .vrcp o => Sys2Proof.Machine.execVrcp o s
  | .vrsqrt o => Sys2Proof.Machine.execVrsqrt o s
  | .vsqrt o => Sys2Proof.Machine.execVsqrt o s
  | .vexp2 o => Sys2Proof.Machine.execVexp2 o s
  | .vlog2 o => Sys2Proof.Machine.execVlog2 o s
  | .vtanh o => Sys2Proof.Machine.execVtanh o s
  | .vclz o => Sys2Proof.Machine.execVclz o s
  | .vpopc o => Sys2Proof.Machine.execVpopc o s
  | .vrsum o => Sys2Proof.Machine.execVrsum o s
  | .vrmax o => Sys2Proof.Machine.execVrmax o s
  | .vrmin o => Sys2Proof.Machine.execVrmin o s
  | .vscan o => Sys2Proof.Machine.execVscan o s
  | .vsort o => Sys2Proof.Machine.execVsort o s
  | .vperm o => Sys2Proof.Machine.execVperm o s
  | .vrot o => Sys2Proof.Machine.execVrot o s
  | .vextr o => Sys2Proof.Machine.execVextr o s
  | .vins o => Sys2Proof.Machine.execVins o s
  | .vrand o => Sys2Proof.Machine.execVrand o s
  | .ppack o => Sys2Proof.Machine.execPpack o s
  | .punpack o => Sys2Proof.Machine.execPunpack o s
  | .plog o => Sys2Proof.Machine.execPlog o s
  | .pcnt o => Sys2Proof.Machine.execPcnt o s
  | .pfirst o => Sys2Proof.Machine.execPfirst o s
  | .vsat o => Sys2Proof.Machine.execVsat o s
  | .vrnd o => Sys2Proof.Machine.execVrnd o s
  | .vscl o => Sys2Proof.Machine.execVscl o s
  | .mop o => Sys2Proof.Machine.execMop o s
  | .mops o => Sys2Proof.Machine.execMops o s
  | .mopc o => Sys2Proof.Machine.execMopc o s
  | .mopv o => Sys2Proof.Machine.execMopv o s
  | .mrank1 o => Sys2Proof.Machine.execMrank1 o s
  | .mzero o => Sys2Proof.Machine.execMzero o s
  | .mfill o => Sys2Proof.Machine.execMfill o s
  | .mstash o => Sys2Proof.Machine.execMstash o s
  | .mucfg o => Sys2Proof.Machine.execMucfg o s
  | .mscale o => Sys2Proof.Machine.execMscale o s
  | .ard o => Sys2Proof.Machine.execArd o s
  | .ardc o => Sys2Proof.Machine.execArdc o s
  | .aspill o => Sys2Proof.Machine.execAspill o s
  | .afill o => Sys2Proof.Machine.execAfill o s
  | .asgd o => Sys2Proof.Machine.execAsgd o s
  | .amom o => Sys2Proof.Machine.execAmom o s
  | .aadam o => Sys2Proof.Machine.execAadam o s
  | .astat o => Sys2Proof.Machine.execAstat o s
  | .cstart o => Sys2Proof.Machine.execCstart o s
  | .cstartIn o => Sys2Proof.Machine.execCstartIn o s
  | .cappend o => Sys2Proof.Machine.execCappend o s
  | .cstop o => Sys2Proof.Machine.execCstop o s
  | .cwm o => Sys2Proof.Machine.execCwm o s
  | .crange o => Sys2Proof.Machine.execCrange o s
  | .ctag o => Sys2Proof.Machine.execCtag o s
  | .cpref o => Sys2Proof.Machine.execCpref o s
  | .cbank o => Sys2Proof.Machine.execCbank o s
  | .cqfmt o => Sys2Proof.Machine.execCqfmt o s
  | .cqfmtGet o => Sys2Proof.Machine.execCqfmtGet o s
  | .bufswap o => Sys2Proof.Machine.execBufswap o s
  | .evpop o => Sys2Proof.Machine.execEvpop o s
  | .ld o => Sys2Proof.Machine.execLd o s
  | .ldDirect d a imm => Sys2Proof.Machine.execLdDirect d a imm s
  | .st o => Sys2Proof.Machine.execSt o s
  | .stDirect d a imm => Sys2Proof.Machine.execStDirect d a imm s
  | .vld o => Sys2Proof.Machine.execVld o s
  | .vst o => Sys2Proof.Machine.execVst o s
  | .vgath o => Sys2Proof.Machine.execVgath o s
  | .vscat o => Sys2Proof.Machine.execVscat o s
  | .ldc o => Sys2Proof.Machine.execLdc o s
  | .vldc o => Sys2Proof.Machine.execVldc o s
  | .amadd o => Sys2Proof.Machine.execAmadd o s
  | .amfadd o => Sys2Proof.Machine.execAmfadd o s
  | .ammin o => Sys2Proof.Machine.execAmmin o s
  | .ammax o => Sys2Proof.Machine.execAmmax o s
  | .amand o => Sys2Proof.Machine.execAmand o s
  | .amor o => Sys2Proof.Machine.execAmor o s
  | .amxor o => Sys2Proof.Machine.execAmxor o s
  | .amswap o => Sys2Proof.Machine.execAmswap o s
  | .amcas o => Sys2Proof.Machine.execAmcas o s
  | .amcasgt o => Sys2Proof.Machine.execAmcasgt o s
  | .amcasv o => Sys2Proof.Machine.execAmcasv o s
  | .amcasp o => Sys2Proof.Machine.execAmcasp o s
  | .vamadd o => Sys2Proof.Machine.execVamadd o s
  | .fence o => Sys2Proof.Machine.execFence o s
  | .ldacq o => Sys2Proof.Machine.execLdacq o s
  | .strel o => Sys2Proof.Machine.execStrel o s
  | .chk o => Sys2Proof.Machine.execChk o s
  | .stg o => Sys2Proof.Machine.execStg o s
  | .vstg o => Sys2Proof.Machine.execVstg o s
  | .jmp o => Sys2Proof.Machine.execJmp o s
  | .jmpDirect disp => Sys2Proof.Machine.execJmpDirect disp s
  | .bcmp o => Sys2Proof.Machine.execBcmp o s
  | .beqz o => Sys2Proof.Machine.execBeqz o s
  | .beqzDirect a disp => Sys2Proof.Machine.execBeqzDirect a disp s
  | .bnez o => Sys2Proof.Machine.execBnez o s
  | .bnezDirect a disp => Sys2Proof.Machine.execBnezDirect a disp s
  | .bpred o => Sys2Proof.Machine.execBpred o s
  | .brg o => Sys2Proof.Machine.execBrg o s
  | .call o => Sys2Proof.Machine.execCall o s
  | .callDirect disp => Sys2Proof.Machine.execCallDirect disp s
  | .callr o => Sys2Proof.Machine.execCallr o s
  | .ret o => Sys2Proof.Machine.execRet o s
  | .retDirect => Sys2Proof.Machine.execRetDirect s
  | .jmpr o => Sys2Proof.Machine.execJmpr o s
  | .jmprDirect a => Sys2Proof.Machine.execJmprDirect a s
  | .loop o => Sys2Proof.Machine.execLoop o s
  | .loopx o => Sys2Proof.Machine.execLoopx o s
  | .yield o => Sys2Proof.Machine.execYield o s
  | .yieldDirect imm => Sys2Proof.Machine.execYieldDirect imm s
  | .contextSwitchOut => Sys2Proof.Machine.execContextSwitchOut s
  | .waitb o => Sys2Proof.Machine.execWaitb o s
  | .waitbDirect a => Sys2Proof.Machine.execWaitbDirect a s
  | .waitEnd => Sys2Proof.Machine.execWaitEnd s
  | .gets o => Sys2Proof.Machine.execGets o s
  | .getsDirect d idx => Sys2Proof.Machine.execGetsDirect d idx s
  | .sets o => Sys2Proof.Machine.execSets o s
  | .setsDirect a idx => Sys2Proof.Machine.execSetsDirect a idx s
  | .setsRngt o => Sys2Proof.Machine.execSetsRngt o s
  | .setsCkpts o => Sys2Proof.Machine.execSetsCkpts o s
  | .setsLc o => Sys2Proof.Machine.execSetsLc o s
  | .setsTrappc o => Sys2Proof.Machine.execSetsTrappc o s
  | .setsAdjoff o => Sys2Proof.Machine.execSetsAdjoff o s
  | .setsTapeb o => Sys2Proof.Machine.execSetsTapeb o s
  | .setsTapel o => Sys2Proof.Machine.execSetsTapel o s
  | .trap o => Sys2Proof.Machine.execTrap o s
  | .trapDirect imm => Sys2Proof.Machine.execTrapDirect imm s
  | .halt o => Sys2Proof.Machine.execHalt o s
  | .haltDirect => Sys2Proof.Machine.execHaltDirect s
  | .dld o => Sys2Proof.Machine.execDld o s
  | .dldDirect a => Sys2Proof.Machine.execDldDirect a s
  | .dldCompletion => Sys2Proof.Machine.execDldCompletion s
  | .dset o => Sys2Proof.Machine.execDset o s
  | .dsetDirect a bank n => Sys2Proof.Machine.execDsetDirect a bank n s
  | .dget o => Sys2Proof.Machine.execDget o s
  | .dgetDirect d bank n => Sys2Proof.Machine.execDgetDirect d bank n s
  | .dsel o => Sys2Proof.Machine.execDsel o s
  | .dselDirect bank => Sys2Proof.Machine.execDselDirect bank s
  | .ffence o => Sys2Proof.Machine.execFfence o s
  | .ffenceDirect => Sys2Proof.Machine.execFfenceDirect s
  | .adjm o => Sys2Proof.Machine.execAdjm o s
  | .adjld o => Sys2Proof.Machine.execAdjld o s
  | .adjclr o => Sys2Proof.Machine.execAdjclr o s
  | .tapefl o => Sys2Proof.Machine.execTapefl o s
  | .tapeSpill => Sys2Proof.Machine.execTapeSpill s
  | .tapeRefill => Sys2Proof.Machine.execTapeRefill s
  | .ckpt o => Sys2Proof.Machine.execCkpt o s
  | .ckptDirect => Sys2Proof.Machine.execCkptDirect s
  | .rte o => Sys2Proof.Machine.execRte o s
  | .bkpt o => Sys2Proof.Machine.execBkpt o s
  | .trapEntry => Sys2Proof.Machine.execTrapEntry s
  | .firmwareRoutedTrap => Sys2Proof.Machine.execFirmwareRoutedTrap s
  | .urgentPreemption => Sys2Proof.Machine.execUrgentPreemption s
  | .contextRestore => Sys2Proof.Machine.execContextRestore s
  | .tombolaReloadDone => Sys2Proof.Machine.execTombolaReloadDone s
  | .variableLoadReply id uncorrectable => Sys2Proof.Machine.execVariableLoadReply id uncorrectable s
  | .loadTimeout id => Sys2Proof.Machine.execLoadTimeout id s
  | .strelPerform => Sys2Proof.Machine.execStrelPerform s
  | .fenceComplete => Sys2Proof.Machine.execFenceComplete s
  | .fenceTimeout => Sys2Proof.Machine.execFenceTimeout s
  | .storeFailureReport id status port => Sys2Proof.Machine.execStoreFailureReport id status port s
  | .translationWalk addr => Sys2Proof.Machine.execTranslationWalk addr s
  | .l2Fill die sector uncorrectable => Sys2Proof.Machine.execL2Fill die sector uncorrectable s
  | .l2Writeback die sector uncorrectable => Sys2Proof.Machine.execL2Writeback die sector uncorrectable s
  | .turnstileFire k => Sys2Proof.Machine.execTurnstileFire k s
  | .homeAtomic id uncorrectable => Sys2Proof.Machine.execHomeAtomic id uncorrectable s
  | .flatAccessAtTarget r => Sys2Proof.Machine.execFlatAccessAtTarget r s
  | .recordFetch ch uncorrectable => Sys2Proof.Machine.execRecordFetch ch uncorrectable s
  | .chunkRead ch uncorrectable => Sys2Proof.Machine.execChunkRead ch uncorrectable s
  | .chunkWrite ch => Sys2Proof.Machine.execChunkWrite ch s
  | .recordComplete ch => Sys2Proof.Machine.execRecordComplete ch s
  | .copyRecordTimeout ch => Sys2Proof.Machine.execCopyRecordTimeout ch s
  | .cstopEffect ch => Sys2Proof.Machine.execCstopEffect ch s
  | .fifoChunkRelease ch => Sys2Proof.Machine.execFifoChunkRelease ch s
  | .bankModeSwitch => Sys2Proof.Machine.execBankModeSwitch s
  | .bufferPhaseCommit => Sys2Proof.Machine.execBufferPhaseCommit s
  | .phaseCancel => Sys2Proof.Machine.execPhaseCancel s
  | .launch p => Sys2Proof.Machine.execLaunch p s
  | .coreEntry => Sys2Proof.Machine.execCoreEntry s
  | .stepEnd job rank => Sys2Proof.Machine.execStepEnd job rank s
  | .idleActivePark job rank => Sys2Proof.Machine.execIdleActivePark job rank s
  | .inval p => Sys2Proof.Machine.execInval p s
  | .invalComplete k => Sys2Proof.Machine.execInvalComplete k s
  | .pad p => Sys2Proof.Machine.execPad p s
  | .kill p => Sys2Proof.Machine.execKill p s
  | .park p => Sys2Proof.Machine.execPark p s
  | .resume p => Sys2Proof.Machine.execResume p s
  | .cold p => Sys2Proof.Machine.execCold p s
  | .recallRank p => Sys2Proof.Machine.execRecall p s
  | .copyin p => Sys2Proof.Machine.execCopyin p s
  | .copyout p => Sys2Proof.Machine.execCopyout p s
  | .dbgread p => Sys2Proof.Machine.execDbgread p s
  | .attest p => Sys2Proof.Machine.execAttest p s
  | .svc p => Sys2Proof.Machine.execSvc p s
  | .join p => Sys2Proof.Machine.execJoin p s
  | .ranknew p => Sys2Proof.Machine.execRanknew p s
  | .leave p => Sys2Proof.Machine.execLeave p s
  | .packetFetch p => Sys2Proof.Machine.execPacketFetch p s
  | .notifyTail q v => Sys2Proof.Machine.execNotifyTail q v s
  | .notifyCompletionHead q v => Sys2Proof.Machine.execNotifyCompletionHead q v s
  | .qcfgEnable q v => Sys2Proof.Machine.execQcfgEnable q v s
  | .qcfgDisable q v => Sys2Proof.Machine.execQcfgDisable q v s
  | .qifctlEnable f v => Sys2Proof.Machine.execQifctlEnable f v s
  | .qifctlClose f v => Sys2Proof.Machine.execQifctlClose f v s
  | .qifctlRevoke f v => Sys2Proof.Machine.execQifctlRevoke f v s
  | .fsreqWrite v => Sys2Proof.Machine.execFsreqWrite v s
  | .bar0RegisterWrite off v => Sys2Proof.Machine.execBar0RegisterWrite off v s
  | .serviceRequest f object detail => Sys2Proof.Machine.execServiceRequest f object detail s
  | .poisonScrub page scrub => Sys2Proof.Machine.execPoisonScrub page scrub s
  | .lockstepMismatch security => Sys2Proof.Machine.execLockstepMismatch security s
  | .boot b => Sys2Proof.Machine.execBoot b s
  | .glitchSensor => Sys2Proof.Machine.execGlitchSensor s
  | .meshBreach => Sys2Proof.Machine.execMeshBreach s
  | .throttleChange level => Sys2Proof.Machine.execThrottleChange level s
  | .mctpRead => Sys2Proof.Machine.execMctpRead s
  | .writeRequestFlit f => Sys2Proof.Machine.execWriteRequestFlit f s
  | .readRequestFlit f => Sys2Proof.Machine.execReadRequestFlit f s
  | .atomicRequestFlit f => Sys2Proof.Machine.execAtomicRequestFlit f s
  | .replyFlit f => Sys2Proof.Machine.execReplyFlit f s
  | .collectiveDataFlit f => Sys2Proof.Machine.execCollectiveDataFlit f s
  | .abortFlit f => Sys2Proof.Machine.execAbortFlit f s
  | .shiftFlit f => Sys2Proof.Machine.execShiftFlit f s
  | .beatFlit f => Sys2Proof.Machine.execBeatFlit f s
  | .migrationFlit f => Sys2Proof.Machine.execMigrationFlit f s
  | .linkRetry port => Sys2Proof.Machine.execLinkRetry port s
  | .linkSilenceTimeout port => Sys2Proof.Machine.execLinkSilenceTimeout port s
  | .linkBringUp port flight => Sys2Proof.Machine.execLinkBringUp port flight s
  | .collectiveSend coll send => Sys2Proof.Machine.execCollectiveSend coll send s
  | .collectiveFold coll chunk => Sys2Proof.Machine.execCollectiveFold coll chunk s
  | .collectiveComplete coll => Sys2Proof.Machine.execCollectiveComplete coll s
  | .collectiveTimeout coll => Sys2Proof.Machine.execCollectiveTimeout coll s
  | .mapAdopt job rank entry => Sys2Proof.Machine.execMapAdopt job rank entry s
  | .migration job rank target => Sys2Proof.Machine.execMigration job rank target s
  | .tombstoneForward r => Sys2Proof.Machine.execTombstoneForward r s
  | .hostDmaCompletion p ok => Sys2Proof.Machine.execHostDmaCompletion p ok s

end Sys2Proof.Machine
end

