-- ==== Sys2Proof/Machine/Schedule.lean ====
section
/-! DEFINITION. The order of steps (R8, R16, R20, R22, R24, R99, R141, R192, R193, R228): which event the module runs next, the
fetch of a core's next bundle (R25, R95, R277, R281), its turn of a beat, and the end of a beat. -/
namespace Sys2Proof.Machine

/-! ## What the outside world may do -/

/-- Events that the outside world, or a unit without a stated time, brings about (log 4). -/
def isExternal : Instr → Bool
  | .variableLoadReply _ _ => true
  | .storeFailureReport _ _ _ => true
  | .translationWalk _ => true
  | .l2Fill _ _ _ => true
  | .l2Writeback _ _ _ => true
  | .homeAtomic _ _ => true
  | .flatAccessAtTarget _ => true
  | .tombstoneForward _ => true
  | .recordFetch _ _ => true
  | .chunkRead _ _ => true
  | .chunkWrite _ => true
  | .contextRestore => true
  | .invalComplete _ => true
  | .packetFetch _ => true
  | .notifyTail _ _ => true
  | .notifyCompletionHead _ _ => true
  | .qcfgEnable _ _ => true
  | .qcfgDisable _ _ => true
  | .qifctlEnable _ _ => true
  | .qifctlClose _ _ => true
  | .qifctlRevoke _ _ => true
  | .fsreqWrite _ => true
  | .bar0RegisterWrite _ _ => true
  | .serviceRequest _ _ _ => true
  | .hostDmaCompletion _ _ => true
  | .poisonScrub _ _ => true
  | .lockstepMismatch _ => true
  | .boot _ => true
  | .glitchSensor => true
  | .meshBreach => true
  | .throttleChange _ => true
  | .mctpRead => true
  | .writeRequestFlit _ => true
  | .readRequestFlit _ => true
  | .atomicRequestFlit _ => true
  | .replyFlit _ => true
  | .collectiveDataFlit _ => true
  | .abortFlit _ => true
  | .shiftFlit _ => true
  | .beatFlit _ => true
  | .migrationFlit _ => true
  | .linkRetry _ => true
  | .linkSilenceTimeout _ => true
  | .linkBringUp _ _ => true
  | .mapAdopt _ _ _ => true
  | .migration _ _ _ => true
  | _ => false

/-- A write that closes an interface (R315). -/
def closes : Instr → Bool
  | .qifctlClose _ _ => true
  | .qifctlRevoke _ _ => true
  | .bar0RegisterWrite off v => decide (0x10000 ≤ off ∧ off < 0x10200) && (!v.getLsbD 0 || v.getLsbD 2)
  | _ => false
/-- A revocation comes before whatever else reaches the device in its beat (R315). -/
def closeFirst (beat : Nat) (xs : List (Nat × Instr)) : List (Nat × Instr) :=
  let now := xs.takeWhile (fun x => decide (x.1 ≤ beat))
  match now.findIdx? (fun x => closes x.2) with
  | some k => (now.drop k).take 1 ++ now.eraseIdx k ++ xs.dropWhile (fun x => decide (x.1 ≤ beat))
  | none => xs

/-- The input that is due, and the state without it; an input that no outside party can cause is passed over. -/
def State.nextInput (s : State) : Option (Option Instr × State) :=
  match closeFirst s.beat s.inputs with
  | [] => none
  | (b, i) :: r => if b ≤ s.beat then some (if isExternal i then some i else none, { s with inputs := r }) else none

/-! ## Events of the package -/

/-- An event that the module brings about by itself. -/
inductive Event where
  | packet (p : Packet)
  | storePerform | strelPerform | bufferPhaseCommit | phaseCancel
  | fifoChunkRelease (ch : Nat) | chunkWrite (ch : Nat) | recordFetch (ch : Nat) | chunkRead (ch : Nat) | recordComplete (ch : Nat)
  | cstopEffect (ch : Nat) | copyRecordTimeout (ch : Nat)
  | turnstileFire (k : Nat)
  | collectiveSend (i j : Nat) | collectiveFold (i j : Nat) | collectiveComplete (i : Nat) | collectiveTimeout (i : Nat)
  | mapAdopt (job rank : Nat) (e : Half)
  | idleActivePark (job rank : Nat) | stepEnd (job rank : Nat)
  | linkSilenceTimeout (port : Nat) | loadTimeout (id : Nat)
  | tombolaReloadDone | dldCompletion | resultDelivery | tapeSpill | tapeRefill | fenceComplete | fenceTimeout | bankModeSwitch
  | trapEntry | firmwareRoutedTrap | waitEnd | contextSwitchOut | urgentPreemption | coreEntry
  deriving DecidableEq, Repr

/-- The packet's row, by its opcode (R318). -/
def runPacket (p : Packet) (s : State) : Result :=
  match pOp p with
  | 0x00 => execPad p s
  | 0x01 => execLaunch p s
  | 0x02 => execInval p s
  | 0x03 => execKill p s
  | 0x04 => execPark p s
  | 0x05 => execResume p s
  | 0x06 => execCold p s
  | 0x07 => execRecall p s
  | 0x08 => execCopyin p s
  | 0x09 => execCopyout p s
  | 0x0A => execDbgread p s
  | 0x0B => execAttest p s
  | 0x0C => execSvc p s
  | 0x0D => execJoin p s
  | 0x0E => execRanknew p s
  | 0x0F => execLeave p s
  | _ => .next (s.noSuchOp p)

/-- What an event does: the meaning of its row. -/
def Event.run (e : Event) (s : State) : Result :=
  match e with
  | .packet p => runPacket p s
  | .storePerform => execStorePerform s
  | .strelPerform => execStrelPerform s
  | .bufferPhaseCommit => execBufferPhaseCommit s
  | .phaseCancel => execPhaseCancel s
  | .fifoChunkRelease ch => execFifoChunkRelease ch s
  | .chunkWrite ch => execChunkWrite ch s
  | .recordFetch ch => execRecordFetch ch false s
  | .chunkRead ch => execChunkRead ch false s
  | .recordComplete ch => execRecordComplete ch s
  | .cstopEffect ch => execCstopEffect ch s
  | .copyRecordTimeout ch => execCopyRecordTimeout ch s
  | .turnstileFire k => execTurnstileFire k s
  | .collectiveSend i j => execCollectiveSend i j s
  | .collectiveFold i j => execCollectiveFold i j s
  | .collectiveComplete i => execCollectiveComplete i s
  | .collectiveTimeout i => execCollectiveTimeout i s
  | .mapAdopt job rank e => execMapAdopt job rank e s
  | .idleActivePark job rank => execIdleActivePark job rank s
  | .stepEnd job rank => execStepEnd job rank s
  | .linkSilenceTimeout port => execLinkSilenceTimeout port s
  | .loadTimeout id => execLoadTimeout id s
  | .tombolaReloadDone => execTombolaReloadDone s
  | .dldCompletion => execDldCompletion s
  | .resultDelivery => execResultDelivery s
  | .tapeSpill => execTapeSpill s
  | .tapeRefill => execTapeRefill s
  | .fenceComplete => execFenceComplete s
  | .fenceTimeout => execFenceTimeout s
  | .bankModeSwitch => execBankModeSwitch s
  | .trapEntry => execTrapEntry s
  | .firmwareRoutedTrap => execFirmwareRoutedTrap s
  | .waitEnd => execWaitEnd s
  | .contextSwitchOut => execContextSwitchOut s
  | .urgentPreemption => execUrgentPreemption s
  | .coreEntry => execCoreEntry s

/-- Does the event change the state? -/
def changes (e : Event) (s : State) : Bool :=
  match e.run s with | .next t => t != s | _ => false

def insertNat (n : Nat) : List Nat → List Nat
  | [] => [n]
  | m :: r => if n ≤ m then n :: m :: r else m :: insertNat n r
def sortNat (l : List Nat) : List Nat := l.foldr insertNat []

/-- Copy channels that are not idle and not failed, ascending: cluster, core, channel (R246). -/
def State.busyChans (s : State) : List Nat :=
  sortNat (s.allCores.flatMap (fun c =>
    let n := c.pclus * 256 + 2 * c.pcore
    (if c.chan0.st == 1 || c.chan0.st == 2 then [n] else []) ++ (if c.chan1.st == 1 || c.chan1.st == 2 then [n + 1] else [])))

/-- Does an address of a record lie in this module's memory, whose beats are not stated (log 4)? -/
def State.inMemory (s : State) (c : Core) (a : Nat) : Bool :=
  match s.locOf (s.pagesFor c [a]) a with | .pa _ => decide (a < spadBase) | _ => false

/-- The copy events of one channel that the beats fix (R240, R252). -/
def State.chanWrite (s : State) (ch : Nat) : Option Event :=
  let c := s.chanCore ch
  match (c.chan (ch % 2)).cur with
  | none => none
  | some cr =>
    if changes (.fifoChunkRelease ch) s then some (.fifoChunkRelease ch)
    else if !s.inMemory c (recF cr.words).dst && changes (.chunkWrite ch) s then some (.chunkWrite ch)
    else none
def State.chanOther (s : State) (ch : Nat) : Option Event :=
  let c := s.chanCore ch
  let x := c.chan (ch % 2)
  let fetch := match x.fetchAt with | some (a, b) => decide (b ≤ s.beat) && !s.inMemory c a | none => false
  let read := match x.cur with | some cr => !s.inMemory c (recF cr.words).src | none => false
  if fetch && changes (.recordFetch ch) s then some (.recordFetch ch)
  else if read && changes (.chunkRead ch) s then some (.chunkRead ch)
  else if changes (.recordComplete ch) s then some (.recordComplete ch)
  else if changes (.cstopEffect ch) s then some (.cstopEffect ch)
  else if changes (.copyRecordTimeout ch) s then some (.copyRecordTimeout ch)
  else none
/-- The first collective, from the lowest number on, that has an event of the kind. -/
def State.firstColl (s : State) (f : Nat → Coll → Option Event) : Option Event :=
  (List.range s.pk.colls.length).findSome? (fun i => (s.pk.colls[i]?).bind (f i))
/-- Writes of the ports that a beat brings (R344, R345, R350): folds, flag words, and failures; a collective that waits for other modules does
neither of the first two (R275). -/
def State.portWrite (s : State) : Option Event :=
  s.firstColl (fun i k =>
    let wait := s.collWaits k
    match (List.range k.chunks.length).find? (fun j => match k.chunks[j]? with
      | some c => k.failed.isNone && c.full.isSome && c.done.isNone && c.opf != 0 && !wait | none => false) with
    | some j => some (.collectiveFold i j)
    | none =>
      if k.failed.isNone && k.flagged.isNone && decide (k.armed ≤ s.beat) && k.chunks.all (fun c => c.done.isSome) && !wait then some (.collectiveComplete i)
      else if k.failed.isNone && (k.bad.isSome || (k.flagged.isNone && decide (k.tmo ≤ s.beat))) then some (.collectiveTimeout i)
      else none)
/-- Sends that start in a beat (R342). -/
def State.portRead (s : State) : Option Event :=
  s.firstColl (fun i k =>
    if s.collWaits k then none
    else ((List.range k.sends.length).find? (fun j => match k.sends[j]? with | some x => s.sendReady k x | none => false)).map (.collectiveSend i))

/-- Accesses of a beat (R193, R240, R252, R286): writes before reads, of the cores, of the channels and of the ports (R285). -/
def State.accessEvent (s : State) : Option Event :=
  if s.writesDue && changes .storePerform s then some .storePerform
  else (s.busyChans.findSome? s.chanWrite).or (s.portWrite.or (s.portRead.or (
    (if s.readsDue && changes .storePerform s then some .storePerform else none).or (s.busyChans.findSome? s.chanOther))))

/-- Turnstile tiles (R283). -/
def State.tileEvent (s : State) : Option Event :=
  (List.range s.pk.tiles.length).findSome? (fun k => match s.pk.tiles[k]? with
    | some t => (match t.full with | some b => if !t.dies.any (fun d => d.fired) && decide (b + 4 ≤ s.beat) then some (.turnstileFire k) else none | none => none)
    | none => none)

/-- New map entries that may be adopted (R353). -/
def State.mapEvent (s : State) : Option Event :=
  s.pk.jobs.findSome? (fun j => (j.newMap.find? (fun x => !s.accessesTo j.job x.1)).map (fun x => .mapAdopt j.job x.1 x.2))

/-- Idle-active ranks to park, steps that are over (R293, R294). -/
def State.rankEvent (s : State) : Option Event :=
  match s.pk.ranks.find? (fun r => r.st == .idleActive && s.pk.launches.any (fun l => l.chosen.isSome) && changes (.idleActivePark r.job r.rank) s) with
  | some r => some (.idleActivePark r.job r.rank)
  | none => (s.pk.launches.find? (fun l => s.stepOver l && (s.rankOf l.job l.rank).isSome)).map (fun l => .stepEnd l.job l.rank)

/-- Requests over a dead link (R332, R333), and loads with no outcome in time (R217). -/
def State.lateEvent (s : State) : Option Event :=
  match s.pk.remotes.find? (fun x => x.port < 144 && !x.held && !(s.portOf x.port).alive) with
  | some x => some (.linkSilenceTimeout x.port)
  | none => s.allCores.findSome? (fun c => (c.reqs.find? (fun r => decide (r.issue + timeoutBeats ≤ s.beat) &&
      r.mayTimeOut)).map (fun r => .loadTimeout (r.id * 4096 + coreNo c)))

/-- The event of the package that comes next. -/
def State.sharedEvent (s : State) : Option Event :=
  match s.startDue with
  | some p => some (.packet p)
  | none =>
    s.tileEvent.or (s.accessEvent.or ((if s.strelDue.isSome then some .strelPerform else none).or (s.mapEvent.or (
      (if s.commitDue.isSome then some .bufferPhaseCommit else if s.cancelDue.isSome then some .phaseCancel else none).or (
      s.rankEvent.or s.lateEvent)))))

/-! ## Events of the core -/

def State.cancelling (s : State) (c : Core) : Bool :=
  match s.launchOf c.job c.rank with | some l => l.cancel.isSome | none => false

/-- The event of the core that comes next. -/
def State.coreEvent (s : State) : Option Event :=
  let c := s.core
  if c.tombLoad.isSome && changes .tombolaReloadDone s then some .tombolaReloadDone
  else if (match c.dld with | some d => d.failed.isSome || (match d.done with | some b => decide (b ≤ s.beat) | none => false) | none => false) then some .dldCompletion
  else if c.flights.any (fun f => decide (f.due ≤ s.beat)) || !(s.stashNow c).isEmpty then some .resultDelivery
  else if (!c.a.tape.isEmpty || c.flushing) && changes .tapeSpill s then some .tapeSpill
  else if c.wantsRefill && changes .tapeRefill s then some .tapeRefill
  else if s.fenceReady c then some .fenceComplete
  else if (match c.fenceWait with | some (_, _, t, _) => decide (t + timeoutBeats ≤ s.beat) | none => false) then some .fenceTimeout
  else if (match c.trap with | some r => !s.cancelling c && c.handlerRoute r.cause && s.entryDue c r && changes .trapEntry s | none => false) then some .trapEntry
  else if c.firmwareTrap.isSome && changes .firmwareRoutedTrap s then some .firmwareRoutedTrap
  else if c.gapUrgent s.beat then some .urgentPreemption
  else if c.waits.any (s.waitOver c) then some .waitEnd
  else if s.leaveReady c then some (if c.drain.isNone then .contextSwitchOut else .urgentPreemption)
  else if (match c.run with | .armed e => decide (e ≤ s.beat) && !s.stopped c && (c.timetabled || !s.pk.throtHold) | _ => false) then some .coreEntry
  else none

/-- The event that comes next. -/
def State.nextEvent (s : State) : Option Event := s.sharedEvent.or s.coreEvent

/-! ## The turn of a core (R16, R22, R95) -/

/-- May the core issue a bundle in this beat? -/
def State.mayIssue (s : State) : Bool :=
  let c := s.core
  c.run == .running && c.trap.isNone && c.waits.isEmpty && decide (c.readyAt ≤ s.beat) && !c.switchOut && !s.stopped c

/-- The translation of a byte of a bundle: held, or walked at once (log 4); a fetch fault as R277 and R281 give it. -/
def State.fetchPage (s : State) (c : Core) (a : Nat) : Except (Nat × Word64) Tlb :=
  if a ≥ spadBase then .error (0x07, auxTrans a ⟨false, 7, 8⟩)
  else match (match c.held? a with | some t => Except.ok t | none => s.translate c.job c.rank a) with
    | .error f => .error (0x07, auxTrans a f)
    | .ok t =>
      let pa := t.out + (a - t.va)
      if t.tier == 2 && decide (pa / 2 ^ 39 % 65536 > bits c.rankid.toNat 16 16) then .error (0x07, auxTrans a ⟨false, t.level, 6⟩)
      else if !t.x then .error (0x07, auxTrans a ⟨false, t.level, 8⟩)
      else if t.tier != 2 && t.module == s.ownModule c.job && (t.bad.contains (pa / 4096) ||
          (match s.sectorAt (dieOf c.pclus) pa with | some x => x.poison | none => false)) then .error (0x07, auxTrans a ⟨false, t.level, 7⟩)
      else .ok t

/-- Where the 24 bytes of the bundle at PC lie (R15, R25): at 24 times its number from the start of the code object. -/
def State.fetchLocs (s : State) (c : Core) : Except (Nat × Word64) (List Loc) :=
  if c.pc ≥ c.ncode then .error (0x0E, 6#64)
  else
    let a := c.codeBase + 24 * c.pc
    match s.fetchPage c a, s.fetchPage c (a + 23) with
    | .error f, _ => .error f
    | .ok _, .error f => .error f
    | .ok t, .ok u =>
      let d := { c with tlb := [t, u] }
      .ok ((List.range 24).map (fun i => s.locOf d (a + i)))

/-- The fault of a fetch that another module did not serve: poison is a translation fault (R281), another failure an access that is
refused with the detail of R216 (DESIGN CHOICE, log 31). -/
def fetchFault (c : Core) (st : FStatus) : Nat × Word64 :=
  let a := c.codeBase + 24 * c.pc
  if st == 2 then (0x07, auxTrans a ⟨false, 7, 7⟩) else (0x08, auxAddr a (answerOf st - 16))

/-- Bytes of the next bundle that are still to be asked for, or to come, from other modules (R275, R276). -/
def State.fetchAway (s : State) (c : Core) : List Loc :=
  match s.fetchLocs c with
  | .error _ => []
  | .ok ls => ls.filter (fun l => l.away && !c.fetchGot.any (fun x => x.1 == l))

/-- The bundle at PC (R15, R25). -/
def State.fetch (s : State) (c : Core) : Except (Nat × Word64) Bundle :=
  match s.fetchLocs c with
  | .error f => .error f
  | .ok ls =>
    .ok (BitVec.ofNat 192 (leNat (ls.map (fun l => match l with
      | .pa a => s.seeByte (dieOf c.pclus) a c.acq false
      | l => ((c.fetchGot.find? (fun x => x.1 == l)).map Prod.snd).getD 0#8))))

/-- What a core does in its turn. -/
inductive Turn where
  | idle
  /-- It waits for bytes of its bundle from other modules. -/
  | ask (ls : List Loc)
  | trap (cause : Nat) (aux : Word64)
  | run (i : Instr)
  deriving DecidableEq, Repr

/-- Dictionary changes that the next bundle sees are made (R165). -/
def State.fresh (s : State) : State := { s with core := s.core.applyChanges s.core.bundles }
/-- The state in which the next bundle reads its operands: what its issue brings about first has taken place (R97, R233, R235). -/
def State.ready (s : State) : State :=
  let s := s.fresh
  if s.mayIssue then { s with core := s.core.begin } else s

/-- The instruction of a bundle: its one operation, or else the bundle as a whole (R16, R46). -/
def bundleInstr (c : Core) (w : Bundle) : Instr :=
  match expandBundle c.activeDict w with
  | .ok [i] => i
  | _ => .bundleIssue w

/-- The turn of the core, in a state that is ready. -/
def State.turnOf (s : State) : Turn :=
  if !s.mayIssue then .idle
  else match s.fetchAway s.core with
    | l :: ls => (match s.core.fetchBad with
      | some st => .trap (fetchFault s.core st).1 (fetchFault s.core st).2
      | none => .ask (l :: ls))
    | [] => (match s.fetch s.core with
      | .error f => .trap f.1 f.2
      | .ok w => .run (bundleInstr s.core w))

/-- The next core is in the focus. -/
def State.rotate (s : State) : State :=
  match s.others with
  | [] => s
  | d :: r => { s with core := d, others := r ++ [s.core] }

/-- Has the core had its turn in this beat? -/
def State.hadTurn (s : State) (c : Core) : Bool := s.turned.contains (coreNo c)

/-- The turn of the core is over. -/
def State.pass (s : State) : State := ({ s with turned := coreNo s.core :: s.turned } : State).rotate

/-- The core after an instruction had its turn: a bundle that issued needs no fetched bytes any more, and one that waits or traps at issue
has had no effect on the state that it found, `old` (R22, R227). -/
def Core.issued (old c : Core) : Core :=
  if c.bundles == old.bundles then { c with a := old.a }
  else { c with fetchGot := if c.tapeFill.isSome then c.fetchGot else [], fetchAsk := false, fetchBad := none }

/-- The operations of an instruction in its turn. -/
def State.opsOf (s : State) (i : Instr) : List SOp :=
  match i with
  | .bundleIssue w => (match expandBundle s.core.activeDict w with | .ok is => is.filterMap sopOf | .error _ => [])
  | i => (sopOf i).toList
/-- Collectives of the core with a shift not applied, of which the bundle reaches a guarded byte (R346, R352). -/
def State.metShifts (s : State) (i : Instr) : List Nat :=
  let ks := (List.range s.pk.colls.length).filter (fun n => match s.pk.colls[n]? with
    | some k => k.job == s.core.job && k.rank == s.core.rank && !k.pshift.isEmpty && k.failed.isNone && k.flagged.isNone | none => false)
  if ks.isEmpty then []
  else
    let ops := s.opsOf i
    if ops.any (fun x => (regWait s x).isSome) then []
    else
      let as := (runOps s (s.bundleLanes ops) 0 0 ops).filterMap (fun o => match o with | .wait 3 a => some (collAddr s.core a) | _ => none)
      ks.filter (fun n => match s.pk.colls[n]? with | some k => as.any (fun a => k.guards.any (meets a (a + 1))) | none => false)
/-- Those collectives fail with reason 5 (R352). -/
def State.failShifts (s : State) (ks : List Nat) : State := ks.foldl (fun (s : State) n => s.failColl n 5) s

/-- The core has its turn: it issues its next bundle, or none (R16, R22). -/
def runTurn (s : State) : Result :=
  let old := s.fresh
  let s := s.ready
  match s.turnOf with
  | .idle => .next old.pass
  | .ask ls =>
    .next (if old.core.fetchAsk then old else
      ({ old with core := { old.core with fetchAsk := true } } : State).askBytes old.core sysId (old.core.codeBase + 24 * old.core.pc) none ls).pass
  | .trap cause aux => .next (trapIssue { old with core := { old.core with fetchBad := none } } cause aux).pass
  | .run i =>
    match exec i s with
    | .next t => .next (({ t with core := old.core.issued t.core } : State).failShifts (s.metShifts i)).pass
    | .fault f => .fault f
    | .refused r => .refused r

/-! ## The end of a beat (R8, R99, R141) -/

def Core.before (c d : Core) : Bool := decide (c.pclus < d.pclus) || (c.pclus == d.pclus && decide (c.pcore < d.pcore))
def insertCore (c : Core) : List Core → List Core
  | [] => [c]
  | d :: r => if d.before c then d :: insertCore c r else c :: d :: r
def sortCores (l : List Core) : List Core := l.foldr insertCore []

/-- R99: YLEFT falls by one a beat while the context is on its seat. -/
def Core.age (c : Core) : Core :=
  match c.run with
  | .running => { c with yleft := c.yleft - 1 }
  | _ => c

/-- Writes at issue + 1 that every access of their beat sees: CRANGE, CTAG and CQFMT (R243, R261). -/
def Wr.quick : Wr → Bool
  | .crange _ _ _ => true
  | .ctag _ _ => true
  | .cqfmt _ _ => true
  | _ => false
/-- Those writes of one core take place as the beat begins. -/
def State.quickWrites (s : State) (c : Core) : State :=
  let ws := ((c.flights.filter (fun f => decide (f.due ≤ s.beat))).flatMap (fun f => f.ws)).filter Wr.quick
  if ws.isEmpty then s
  else
    let s := ws.foldl (fun (s : State) w => match w with
      | .cqfmt q x =>
        let b := s.banksOf c.pclus c.pcore
        s.setBanks { b with qfmt := b.qfmt.setIfInBounds q (x &&& qfmtMask) }
      | w => s.mapCore c.pclus c.pcore (fun c => c.write s.beat w)) s
    s.mapCore c.pclus c.pcore (fun c => { c with flights := c.flights.map (fun f =>
      if decide (f.due ≤ s.beat) then { f with ws := f.ws.filter (fun w => !w.quick) } else f) })

/-- Lines of 1,024 bytes that one die's L2 holds (R268). -/
def l2Lines : Nat := 393216
/-- A die's L2 holds no more lines than it has places for: the lines left untouched longest leave, their dirty bytes written back (R268,
R269; which lines leave, and that they leave as the beat ends, is not stated: DESIGN CHOICE, log 23). -/
def State.evict (s : State) : State :=
  if s.l2.length ≤ l2Lines then s
  else
    ((List.range 4).foldl (fun (s : State) die =>
      let lines := ((s.l2.filter (fun x => x.die == die)).map (fun x => x.sector / 8)).eraseDups
      (lines.drop l2Lines).foldl (fun (s : State) n =>
        (List.range 8).foldl (fun (s : State) k => (s.writeBack die (8 * n + k)).dropSector die (8 * n + k)) s) s) s).settleStores

/-- The beat ends: engine steps take place, YLEFT falls, failures and copy events of the beat are recorded, and the lowest core is next
(R8, R99, R141, R202, R212, R255, R265, R328). -/
def State.tick (s : State) : State :=
  let s := if s.pk.alarmDue then s.alarmTwo else s
  let s := s.mapCores (fun c => (s.engineCore c).age.takeFsw.takeEvents)
  let s := s.noteGm.evict.sendSvcs
  let s : State := { s with beat := s.beat + 1, turned := [], windows := s.windows.filter (fun w => !decide (w.first + 2 ≤ s.beat)) }
  let s := (s.allCores.foldl (fun (s : State) c => s.quickWrites c) s).landTransfers
  match sortCores s.allCores with
  | [] => s
  | c :: r => { s with core := c, others := r }

/-- What happens when no input and no event is due: the core in the focus has its turn, another core comes into the focus, a
bank that is quiet from the next beat on switches its mode, or the beat ends. -/
def runBeat (s : State) : Result :=
  if !s.hadTurn s.core then runTurn s
  else if s.others.any (fun c => !s.hadTurn c) then .next s.rotate
  else if (s.bankDue s.core).isSome then Event.bankModeSwitch.run s
  else if s.others.any (fun c => (s.bankDue c).isSome) then .next s.rotate
  else .next s.tick

/-! ## An instruction placed where it is fetched -/

/-- The bundle whose slot at the position of a direct opcode holds `w`, its other slots empty (R15, R36); an opcode that wants a
literal finds one of value zero in position 7. -/
def wordBundle (w : Nat) : Nat :=
  let op := bits w 16 6
  let pos := if op < 0x20 then 0 else 6
  (List.range 8).foldl (fun n k =>
    n + (if k == pos then w % 2 ^ 24 else if k == 7 && (op == 2 || op == 3) then 0x800000 else 0xC00000) * 2 ^ (24 * k)) 0

/-- The state in which the core in the focus runs, and fetches its next bundle from the 24 bytes `n` at physical address 0. -/
def State.withBundle (s : State) (n : Nat) : State :=
  { s with
    inputs := []
    turned := []
    mem := (List.range 24).foldl (fun m i => m.put i (BitVec.ofNat 8 (n / 256 ^ i))) s.mem
    l2 := s.l2.filter (fun x => x.sector != 0)
    poison := s.poison.filter (fun x => x != 0)
    core := { s.core with
      run := .running, trap := none, waits := [], switchOut := false, readyAt := 0
      codeBase := 0, ncode := 2 ^ 20, pc := 0, yleft := 65536, yrun := 65536
      tlb := [⟨0, 4096, 0, s.ownModule s.core.job, 0, 0, 0, false, false, false, true, false, true, [], 0⟩] } }

end Sys2Proof.Machine
end

