-- ==== Sys2Proof/Machine/Step.lean ====
section
/-! DEFINITION. One step of the module. -/
namespace Sys2Proof.Machine

/-- A step: the input that is due, else the event that is due, else what a beat without events does (log 9). -/
def step (s : State) : Host.Outcome State Fault Refusal :=
  match s.nextInput with
  | some (some i, t) => exec i t
  | some (none, t) => .next t
  | none =>
    match s.nextEvent with
    | some e => e.run s
    | none => runBeat s

/-- The state with an instruction word placed where the next step fetches it (log 6). -/
def State.withFetchWord (s : State) (_nbits w : Nat) : State := s.withBundle (wordBundle w)

end Sys2Proof.Machine
end

