-- ==== Sys2Proof/Safety.lean ====
section
/-! DEFINITION. What counts as a safe run, and the words in which statements speak of an instruction that issues: the conditions
of the issue rules, and the state after an issue with given effects. -/
namespace Sys2Proof.Machine

/-- The invariant of the memory's form (R6): addresses strictly rising, no cell equal to what its unlisted address reads as. -/
def State.Canonical (s : State) : Prop := s.mem.wf = true

/-- The step answers a next state. -/
def Goes (s : State) : Prop := ∃ t, step s = .next t

/-- `n` steps without a stop. -/
def SafeRun (n : Nat) (s : State) : Prop := ∃ t, Host.Core.run Sys2Proof.core n s = .next t

/-! ## An operation that issues alone in its bundle -/

/-- The operation as the issue rules see it: its meaning plays no part in them. -/
def bare (opc : Nat) (o : TOp) : SOp := ⟨opc, o, fun _ => .hold⟩

/-- The operation may issue in this beat: no wait for a register, a draw or the dictionary (R22, R26, R166), registers within the
budget (R17), no write collision (R28 to R30), beats left (R99), no transfer at a loop's end (R98). `dict` tells that the bundle
expanded a dictionary entry. -/
def issues (opc : Nat) (o : TOp) (dict : Bool) (s : State) : Bool :=
  (regWait s (bare opc o)).isNone && !dictWait s dict &&
  (budgetFault s.core [bare opc o]).isNone && (stageCollision s).isNone && (collision s [] [bare opc o]).isNone &&
  (drawCollision [bare opc o] (if drawsS opc o then 1 else 0) (if drawsC opc then 1 else 0)).isNone &&
  (s.core.yleft != 0 || opc == 0xDB) && (loopEndFault s.core [bare opc o]).isNone

/-- What it sees: the state, the lanes of its draw (R77, R79), and no tape bytes of lower slots. -/
def seen (opc : Nat) (o : TOp) (s : State) : Env :=
  ⟨s, if drawsC opc then drawLanes s.core.tomb s.core.a.rngc
    else if drawsS opc o then drawLanes s.core.tomb s.core.a.rngs else lanes0, 0⟩

/-- The state after it issued with these effects. -/
def issued (opc : Nat) (o : TOp) (s : State) (e : Eff) : State :=
  commit s [e] (if drawsS opc o then 1 else 0) (if drawsC opc then 1 else 0)

/-- The effects of an operation that only delivers one result, `L` beats after its issue (R20). -/
def oneResult (s : State) (o : TOp) (cls : Option LatClass) (L : Nat) (ws : List Wr) (fl : Flags8) : Eff :=
  { flights := [⟨s.beat + L, s.beat, o.slot, cls, ws, fl, none, none⟩] }

/-- The beats of a latency class in use (R26). -/
def beatsOf (s : State) (l : LatClass) : Nat := latInUse s.core.lath.toNat l

/-- The state after a trap of kind issue was found: nothing of the bundle takes effect (R227, R228). -/
def trapped (s : State) (cause : Nat) (aux : Word64) : State := trapIssue s cause aux

/-! ## Results in the words of the manual -/

/-- In every state in which the operation may issue, the instruction answers the next state `f o s`. -/
def Does (mk : TOp → Instr) (opc : Nat) (f : TOp → State → State) : Prop :=
  ∀ (o : TOp) (s : State), issues opc o true s = true → exec (mk o) s = .next (f o s)
/-- The same for a direct form, which is the template operation `o` (R36, R37) and uses no dictionary. -/
def DirectDoes (i : Instr) (opc : Nat) (o : TOp) (f : TOp → State → State) : Prop :=
  ∀ s : State, issues opc o false s = true → exec i s = .next (f o s)

/-- The value of a scalar source as the type reads it (R80). -/
def readInt (t : Ty) (x : Word64) : Int := if t.signed then (x.setWidth t.width).toInt else (x.setWidth t.width).toNat
/-- A value of the type's width, extended as the type says (R80). -/
def regBits (t : Ty) (x : BitVec t.width) : Word64 := if t.signed then x.signExtend 64 else x.setWidth 64
/-- An integer reduced and extended by the type (R80). -/
def regInt (t : Ty) (x : Int) : Word64 := regBits t (BitVec.ofInt t.width x)
/-- The limits of the type clamp an integer (R10, R85). -/
def clampTo (t : Ty) (x : Int) : Int := max t.lo (min x t.hi)
/-- R85: under .sat the integer is clamped first. -/
def satReg (o : TOp) (x : Int) : Word64 := regInt o.t (if o.md.getLsbD 0 then clampTo o.t x else x)
def satFlag (o : TOp) (x : Int) : Flags8 := if o.md.getLsbD 0 && clampTo o.t x != x then fSAT else 0#8

/-- Taint of a result (R206): the widest of the sources. -/
def taintAB (a : Arch) (o : TOp) : Taint := widest [taintOf a o.sa, if o.lk == 0#4 then taintOf a o.sb else 0]
def taintABD (a : Arch) (o : TOp) : Taint :=
  widest [taintOf a o.sa, if o.lk == 0#4 then taintOf a o.sb else 0, taintOf a o.dst]

/-- A scalar result with its flags, under the predicate (R20, R81). -/
def scalarIssued (opc : Nat) (l : LatClass) (o : TOp) (s : State) (x : Word64) (fl : Flags8) (tn : Taint) : State :=
  issued opc o s (oneResult s o (some l) (beatsOf s l) [wrS s.core.a o x tn] (if activeS s.core.a o then fl else 0#8))

/-- The operands of a scalar integer operation (R80). -/
def valA (o : TOp) (s : State) : Int := readInt o.t (srcA s.core.a o)
def valB (o : TOp) (s : State) : Int := readInt o.t (srcB s.core.a o)
def lowA (o : TOp) (s : State) : BitVec o.t.width := (srcA s.core.a o).setWidth o.t.width
def lowB (o : TOp) (s : State) : BitVec o.t.width := (srcB s.core.a o).setWidth o.t.width
/-- sh of R83. -/
def countB (o : TOp) (s : State) : Nat := (srcB s.core.a o).toNat % o.t.width

/-- An integer result with .sat, one without, one given by its bits, one written unreduced. -/
def satIssued (opc : Nat) (l : LatClass) (o : TOp) (s : State) (x : Int) : State :=
  scalarIssued opc l o s (satReg o x) (satFlag o x) (taintAB s.core.a o)
def intIssued (opc : Nat) (l : LatClass) (o : TOp) (s : State) (x : Int) (fl : Flags8 := 0#8) : State :=
  scalarIssued opc l o s (regInt o.t x) fl (taintAB s.core.a o)
def bitsIssued (opc : Nat) (o : TOp) (s : State) (x : BitVec o.t.width) : State :=
  scalarIssued opc .sa o s (regBits o.t x) 0#8 (taintAB s.core.a o)
def wordIssued (opc : Nat) (o : TOp) (s : State) (x : Word64) : State :=
  scalarIssued opc .sa o s x 0#8 (taintAB s.core.a o)

/-! ## Floats -/

/-- Rounding of an exact result in lane `k` of an operation (R67, R70, R88, R112). -/
def roundAt (opc : Nat) (o : TOp) (s : State) (k : Nat) (x : XVal) : Rounded := o.t.round ((seen opc o s).rnd o k) x
/-- A scalar float result: rounded once into TY; the flags of the rounding join those of the operands (R88, R74). -/
def fltIssued (opc : Nat) (o : TOp) (s : State) (x : XRes) (tn : Taint) : State :=
  scalarIssued opc .sm o s (BitVec.ofNat 64 (roundAt opc o s 0 x.v).pat) ((roundAt opc o s 0 x.v).fl ||| x.fl) tn
/-- The operands of a scalar float operation, read by its class (R70, R80). -/
def fltA (o : TOp) (s : State) : XRes := fltOf s.core.a o.t o.grad (srcA s.core.a o)
def fltSB (o : TOp) (s : State) : XRes := fltB s.core.a o o.grad
def fltD (o : TOp) (s : State) : XRes := fltOf s.core.a o.t o.grad (srcD s.core.a o)

/-! ## Vectors -/

/-- A vector result given by lanes, with the flags of the active lanes, under the predicate (R111, R112). -/
def vectorIssued (opc : Nat) (l : LatClass) (o : TOp) (s : State) (f : Nat → Word32 × Flags8) (tn : Taint) : State :=
  issued opc o s (oneResult s o (some l) (beatsOf s l) [wrV s.core.a o (regN o.dst) (fun k => (f k).1) tn]
    (laneFlags (laneMask s.core.a o) (fun k => (f k).2)))
/-- A vector result that raises no flag. -/
def lanesIssued (opc : Nat) (l : LatClass) (o : TOp) (s : State) (f : Nat → Word32) : State :=
  vectorIssued opc l o s (fun k => (f k, 0#8)) (taintAB s.core.a o)
/-- A result that writes all 32 lanes whatever the predicate. -/
def wholeIssued (opc : Nat) (l : LatClass) (o : TOp) (s : State) (f : Nat → Word32) (fl : Flags8) (tn : Taint) : State :=
  issued opc o s (oneResult s o (some l) (beatsOf s l) [.v (regN o.dst) 0xFFFFFFFF#32 (vecOf 32 f) tn] fl)

/-- Lane `k` of the sources and of the old destination (R109, R110). -/
def lnA (o : TOp) (s : State) (k : Nat) : Word32 := vecA s.core.a o k
def lnB (o : TOp) (s : State) (k : Nat) : Word32 := vecB s.core.a o k
def intA (o : TOp) (s : State) (k : Nat) : Int := readInt o.t ((lnA o s k).setWidth 64)
def intB (o : TOp) (s : State) (k : Nat) : Int := readInt o.t ((lnB o s k).setWidth 64)
/-- A float lane, read by class `g` (R70, R112). -/
def flA (g : Bool) (o : TOp) (s : State) (k : Nat) : XRes := vfltOf s.core.a o.t g (lnA o s k)
def flB (g : Bool) (o : TOp) (s : State) (k : Nat) : XRes := vfltB s.core.a o g k
def flD (o : TOp) (s : State) (k : Nat) : XRes := vfltOf s.core.a o.t o.grad (vecD s.core.a o k)
/-- Low bits of a lane, and the shift count of R116. -/
def bitsA (o : TOp) (s : State) (k : Nat) : BitVec o.t.width := (lnA o s k).setWidth o.t.width
def shB (o : TOp) (s : State) (k : Nat) : Nat := (lnB o s k).toNat % o.t.width
/-- Lane results: reduced or clamped integers, extended bits, a float rounded once. -/
def satLane (o : TOp) (x : Int) : Word32 × Flags8 := ((satReg o x).setWidth 32, satFlag o x)
def bitLane (o : TOp) (x : BitVec o.t.width) : Word32 := (regBits o.t x).setWidth 32
def fltLane (opc : Nat) (o : TOp) (s : State) (k : Nat) (x : XRes) : Word32 × Flags8 :=
  (BitVec.ofNat 32 (roundAt opc o s k x.v).pat, (roundAt opc o s k x.v).fl ||| x.fl)

/-- The product in lane `k`; under .c32 the two terms of a part of the complex product (R114). -/
def products (o : TOp) (s : State) (k : Nat) : List XRes :=
  let a := flA o.grad o s
  let b := flB o.grad o s
  if o.t = .c32 then
    (if k % 2 = 0 then [mulR (a k) (b k), (mulR (a (k + 1)) (b (k + 1))).neg] else [mulR (a (k - 1)) (b k), mulR (a k) (b (k - 1))])
  else [mulR (a k) (b k)]

/-- The class of VADD and VSUB results (R113). -/
def addClass (o : TOp) : LatClass := if o.t.isInt then .va else .vf
/-- A predicate given lane by lane (R12). -/
def predBits (f : Nat → Bool) : Word32 := (BitVec.ofBoolListLE ((List.range 32).map f)).setWidth 32
/-- A lane takes part (R111). -/
def takes (o : TOp) (s : State) (k : Nat) : Bool := (activeMask s.core.a o).getLsbD k
/-- A function of one float operand, rounded in each lane (R126). -/
def fnIssued (opc : Nat) (o : TOp) (s : State) (f : XVal → XRes) : State :=
  vectorIssued opc .vt o s (fun k => fltLane opc o s k ⟨(f (flA o.grad o s k).v).v, (f (flA o.grad o s k).v).fl ||| (flA o.grad o s k).fl⟩)
    (taintAB s.core.a o)

/-- The order of VSORT (R129): active numbers by key (equal ones by lane), then active NaNs, then inactive lanes, both by lane. -/
def sortGroup (o : TOp) (s : State) (k : Nat) : Nat :=
  if takes o s k then (if !o.t.isInt && (o.t.decode (lnA o s k).toNat).isNan then 1 else 0) else 2
def keyLess (o : TOp) (s : State) (i j : Nat) : Prop :=
  let x := if o.md.getLsbD 0 then j else i
  let y := if o.md.getLsbD 0 then i else j
  if o.t.isInt then intA o s x < intA o s y else (o.t.decode (lnA o s x).toNat).ltZ (o.t.decode (lnA o s y).toNat) = true
def sortedBefore (o : TOp) (s : State) (i j : Nat) : Prop :=
  sortGroup o s i < sortGroup o s j ∨
  (sortGroup o s i = sortGroup o s j ∧
    ((sortGroup o s i = 0 ∧ keyLess o s i j) ∨ (¬(sortGroup o s i = 0 ∧ keyLess o s j i) ∧ i < j)))

/-! ## Control transfers -/

/-- The target of a displacement (R92), and whether a bundle of the code object stands there (R95). -/
def dispOf (o : TOp) (s : State) : Int := (s.core.pc : Int) + o.lit.toInt
def InCode (s : State) (x : Int) : Prop := 0 ≤ x ∧ x < s.core.ncode
/-- The state after a transfer was taken, with what it delivers besides; after a transfer not taken (R24). -/
def jumps (opc : Nat) (o : TOp) (s : State) (target : Nat) (ends : Bool) (fs : List Flight) : State :=
  issued opc o s { flights := fs, taken := some ⟨target, ends⟩ }
def passesBy (opc : Nat) (o : TOp) (s : State) : State := issued opc o s {}

/-- A conditional transfer to a displacement: taken, taken out of the code object (R95, R106), or not. -/
def Branches (mk : TOp → Instr) (opc : Nat) (cond : TOp → State → Bool) : Prop :=
  ∀ (o : TOp) (s : State), issues opc o true s = true →
    (cond o s = true → InCode s (dispOf o s) → exec (mk o) s = .next (jumps opc o s (dispOf o s).toNat true [])) ∧
    (cond o s = true → ¬InCode s (dispOf o s) → exec (mk o) s = .next (trapped s 0x0E 6#64)) ∧
    (cond o s = false → exec (mk o) s = .next (passesBy opc o s))
def DirectBranches (i : Instr) (opc : Nat) (o : TOp) (disp : Int) (cond : State → Bool) : Prop :=
  ∀ s : State, issues opc o false s = true →
    (cond s = true → InCode s (s.core.pc + disp) → exec i s = .next (jumps opc o s ((s.core.pc : Int) + disp).toNat true [])) ∧
    (cond s = true → ¬InCode s (s.core.pc + disp) → exec i s = .next (trapped s 0x0E 6#64)) ∧
    (cond s = false → exec i s = .next (passesBy opc o s))

/-- A transfer through a register value (R95, R106). -/
def RegisterJump (i : Instr) (opc : Nat) (o : TOp) (s : State) (x : Word64) (ends : Bool) (fs : List Flight) : Prop :=
  (x.toNat < 2 ^ 32 → InCode s x.toNat → exec i s = .next (jumps opc o s x.toNat ends fs)) ∧
  (2 ^ 32 ≤ x.toNat → exec i s = .next (trapped s 0x0E 1#64)) ∧
  (x.toNat < 2 ^ 32 → ¬InCode s x.toNat → exec i s = .next (trapped s 0x0E 6#64))

/-- The stack pointer lies at or above STKLO and on a 128-byte boundary (R236). -/
def StackOk (s : State) : Prop := s.core.a.stklo.toNat ≤ (s.core.a.rs 63#6).toNat ∧ (s.core.a.rs 63#6).toNat % 128 = 0
/-- The return address that a call delivers to s62 one beat later (R21, R94), with the taint of the register that CALLR reads (R206). -/
def linkOf (o : TOp) (s : State) (taint : Taint := 0) : Flight :=
  ⟨s.beat + 1, s.beat, o.slot, none, [.s 62#6 (BitVec.ofNat 64 (s.core.pc + delayBundles s.core.lath.toNat + 1)) true taint], 0#8, none, none⟩

/-- A result that is delivered one beat after its issue (R21). -/
def nextBeat (o : TOp) (s : State) (ws : List Wr) : Eff := { flights := [⟨s.beat + 1, s.beat, o.slot, none, ws, 0#8, none, none⟩] }

/-! ## Memory operations -/

/-- An operation with an active element that passed its address checks (R192 to R202, R214, R216). -/
def Reaches (opc : Nat) (o : TOp) (s : State) (k : Checked) : Prop :=
  issues opc o true s = true ∧ activeElems opc o (memMask (seen opc o s) opc o) ≠ [] ∧
  checkMem (seen opc o s) opc o (activeElems opc o (memMask (seen opc o s) opc o)) = .ok k
/-- No watermark, guard or failed collective holds its bytes (R254, R346), and no atomic window its banks (R202). -/
def Unhindered (opc : Nat) (o : TOp) (s : State) (k : Checked) (spad atomic : Bool) (b0 b1 : Nat) : Prop :=
  fillTest (seen opc o s) (accessRanges (seen opc o s) opc o k) = none ∧
  (spad = true → windowTest (seen opc o s) o k.els atomic b0 b1 = none)
/-- The request that captures its operands at issue (R192, R194). -/
def captured (opc : Nat) (o : TOp) (s : State) (kind : ReqKind) (k : Checked) (fixed : Option (Nat × Nat)) : Req :=
  mkReq (seen opc o s) opc o kind k.addr k.els fixed

/-- What an accumulation to adjoint cells, or a read-and-clear of them, captures (R181 to R183): values in F32 where the type is BF16, a
window of three beats where the cells lie in the scratchpad; in guarded mode it is held (R191). -/
def cellRequest (opc : Nat) (o : TOp) (s : State) (kind : ReqKind) (addr : Nat) (cells : List Elem) : Req :=
  let add := if whereOf s.core cells = .clus then 4 else 0
  let spad := decide (whereOf s.core cells ≠ .memory)
  let b := captured opc o s kind ⟨addr, cells, true⟩ (if spad then some (s.beat + 4 + add, s.beat + 4 + add) else none)
  { b with
    d := if o.t = .bf16 then b.d <<< 16 else b.d
    vd := if o.t = .bf16 then vecOf 32 (fun k => laneAt b.vd k <<< 16) else b.vd
    o := if o.t = .bf16 then { o with ty := 0x10#6 } else o
    held := s.core.guarded
    diff := true }
/-- The effects of its issue: the request with its windows, or a held entry. -/
def cellEffects (opc : Nat) (o : TOp) (s : State) (kind : ReqKind) (addr : Nat) (cells : List Elem) : Eff :=
  let r := cellRequest opc o s kind addr cells
  let add := if whereOf s.core cells = .clus then 4 else 0
  let spad := decide (whereOf s.core cells ≠ .memory)
  { reqs := [r]
    spost := if leaves r && !s.core.guarded then sendReq r .atomic else id
    perfs := if s.core.guarded then [mkPerf (seen opc o s) o (s.beat + 4) (some r) [] none cells.length] else []
    wins := if spad && !s.core.guarded then (banksTouched cells).map (fun b => ⟨s.beat + 2 + add, b.1, b.2.1, b.2.2, s.beat⟩) else [] }
/-- Nothing holds up the bytes of an access that adjoint mode adds to: watermarks, guards, windows, the withholding buffer (R183, R191, R202). -/
def CellsFree (opc : Nat) (o : TOp) (s : State) (addr : Nat) (cells : List Elem) : Prop :=
  let add := if whereOf s.core cells = .clus then 4 else 0
  fillTest (seen opc o s) (accessRanges (seen opc o s) opc o ⟨addr, cells, true⟩) = none ∧
  (whereOf s.core cells ≠ .memory → s.core.guarded = false →
    windowTest (seen opc o s) o cells true (s.beat + 2 + add) (s.beat + 4 + add) = none)

/-- The loads with their opcodes, the plain stores, the atomics. -/
def loadTable : List ((TOp → Instr) × Nat) :=
  [(.ld, 0xB0), (.vld, 0xB2), (.vgath, 0xB4), (.ldc, 0xB6), (.vldc, 0xB7), (.ldacq, 0xC6)]
def storeTable : List ((TOp → Instr) × Nat) := [(.st, 0xB1), (.vst, 0xB3), (.vscat, 0xB5)]
def atomicTable : List ((TOp → Instr) × Nat) :=
  [(.amadd, 0xB8), (.amfadd, 0xB9), (.ammin, 0xBA), (.ammax, 0xBB), (.amand, 0xBC), (.amor, 0xBD), (.amxor, 0xBE), (.amswap, 0xBF),
   (.amcas, 0xC0), (.amcasgt, 0xC1), (.amcasv, 0xC2), (.amcasp, 0xC3), (.vamadd, 0xC4)]

/-- The stores that may be differentiable (R175). -/
def diffStores : List ((TOp → Instr) × Nat) := [(.st, 0xB1), (.vst, 0xB3), (.stg, 0xC9), (.vstg, 0xCA)]
/-- The data and the duplicate of a guarded store agree, in the active lanes (R214). -/
def Agrees (opc : Nat) (o : TOp) (s : State) : Prop :=
  (opc = 0xC9 → s.core.a.rs (regN o.dst) = s.core.a.rs (regN o.sb)) ∧
  (opc = 0xCA → ∀ j < 32, (laneMask s.core.a o).getLsbD j = true →
    laneAt (s.core.a.rv (regN o.dst)) j = laneAt (s.core.a.rv (regN o.sb)) j)

/-- The core's own scratchpad byte range from `a` on is plain 64-bit data: an aligned RAW word inside the window of the core, in a
SPAD-mode bank whose quarter has its data base at 0, which no store in flight, window, watermark or collective touches (R192,
R196, R242). -/
def OwnRaw64 (s : State) (a : Nat) : Prop :=
  let b := s.banksOf s.core.pclus s.core.pcore
  let off := a - spadBase - s.core.pcore * 0x40000
  s.core.pcore < 128 ∧ spadBase + s.core.pcore * 0x40000 ≤ a ∧ a < spadBase + (s.core.pcore + 1) * 0x40000 ∧ a % 8 = 0 ∧
  b.mode (off / 0x10000) = 0 ∧ qFmt (b.qf (off / 0x4000)) = 0 ∧ qGeom (b.qf (off / 0x4000)) = 0 ∧ qDbase (b.qf (off / 0x4000)) = 0 ∧
  s.perfs = [] ∧ s.core.held = [] ∧ s.windows = [] ∧ s.pk.colls = [] ∧ s.blocks = [] ∧
  (∀ c ∈ s.allCores, c.chan0.rhi ≤ c.chan0.wm ∧ c.chan1.rhi ≤ c.chan1.wm)
/-- The key of the first of its bytes. -/
def ownKey (s : State) (a : Nat) : Nat := spadKey s.core.pclus s.core.pcore (a - spadBase - s.core.pcore * 0x40000)

/-! ## Frames -/

/-- What an operation without memory or engine effects may change when it issues: results in flight, the trap found, the
sequencer with its loops, the stage enables of a loop boundary (R233), the waits and counters of issue. -/
def IssueFrame (s t : State) : Prop :=
  t = { s with core := { s.core with
    flights := t.core.flights, trap := t.core.trap, pc := t.core.pc, bundles := t.core.bundles, readyAt := t.core.readyAt
    waits := t.core.waits, switchOut := t.core.switchOut, drain := t.core.drain, ffenced := t.core.ffenced
    a := { s.core.a with
      lc := t.core.a.lc, lstg := t.core.a.lstg, pend := t.core.a.pend, loops := t.core.a.loops, leave := t.core.a.leave
      stage := t.core.a.stage } } } ∧
  (∃ fs, t.core.flights = s.core.flights ++ fs) ∧
  ((∀ l ∈ s.core.a.loops.toList, l.active = false) → t.core.a.lc = s.core.a.lc ∧
    t.core.a.lstg = s.core.a.lstg ∧ t.core.a.loops = s.core.a.loops)

/-- A result that is delivered as it is: no fault with it, no enabled flag among those it raises (R74, R217). -/
def Plain (c : Core) (f : Flight) : Prop := f.fault = none ∧ c.trapping f.fl = false

/-! ## Host packets and queues -/

/-- The packet may start: it stands at the front of the fetched ones of its queue, is well formed and carries the PASID of its
interface (R314, R318, R320). -/
def Starts (op : Nat) (s : State) (p : Packet) (f : Fetched) (rest : List Fetched) : Prop :=
  p.q < 4096 ∧ pOp p = op ∧ f.p = p ∧ (s.queueOf p.q).fetched = f :: rest ∧ s.mayStart (s.queueOf p.q) = true ∧
  packetOk p = true ∧ pPasid p = qifPasid (s.qif (ifOf p.q))
/-- The state in which it has started. -/
def opened (s : State) (p : Packet) (f : Fetched) (rest : List Fetched) : State :=
  s.setQueue { s.queueOf p.q with fetched := rest, open_ := (s.queueOf p.q).open_ ++ [f.seq] }
/-- The completion record that a queue writes next (R321). -/
def completionOf (s : State) (q status qtag seq : Nat) (w1 w2 : Word64) : OutMsg :=
  let x := s.queueOf q
  .host (qifPasid (s.qif (ifOf q))) (ringBase x.cmpl + 32 * (x.written % ringSize x.cmpl))
    (leBytes 8 ((if x.phase then 2 ^ 63 else 0) + status % 256 * 2 ^ 48 + qtag % 65536 * 2 ^ 32 + seq % 2 ^ 32) ++
      leBytes 8 w1.toNat ++ leBytes 8 w2.toNat ++ leBytes 8 s.beat)
/-- The packets that start and complete, with their opcodes (R318). -/
def PacketOp (mk : Packet → Instr) (op : Nat) : Prop :=
  (mk = .launch ∧ op = 0x01) ∨ (mk = .inval ∧ op = 0x02) ∨ (mk = .kill ∧ op = 0x03) ∨ (mk = .park ∧ op = 0x04) ∨
  (mk = .resume ∧ op = 0x05) ∨ (mk = .cold ∧ op = 0x06) ∨ (mk = .recallRank ∧ op = 0x07) ∨ (mk = .copyin ∧ op = 0x08) ∨
  (mk = .copyout ∧ op = 0x09) ∨ (mk = .dbgread ∧ op = 0x0A) ∨ (mk = .attest ∧ op = 0x0B) ∨ (mk = .svc ∧ op = 0x0C) ∨
  (mk = .join ∧ op = 0x0D) ∨ (mk = .ranknew ∧ op = 0x0E) ∨ (mk = .leave ∧ op = 0x0F)
/-- Those of them that name a rank (R318, R321). -/
def RankPacketOp (mk : Packet → Instr) (op : Nat) : Prop :=
  PacketOp mk op ∧ op ≠ 0x0B ∧ op ≠ 0x0C ∧ op ≠ 0x0D ∧ op ≠ 0x0E ∧ op ≠ 0x0F

/-! ## The copy engine -/

/-- Channel `j` of the focus core, by its number in the package (R246). -/
def OwnChan (s : State) (j ch : Nat) : Prop := j < 2 ∧ s.core.pclus < 32 ∧ s.core.pcore < 128 ∧ ch = chanNo s.core j
/-- The channel ends its record with a status (R255): idle after a stop, else failed; its range released; an entry due. -/
def RecordEnds (s t : State) (j stat : Nat) : Prop :=
  let x := s.core.chan j
  let y := t.core.chan j
  t.mem = s.mem ∧ t.core.a = s.core.a ∧ y.st = (if stat = 1 then 0 else 3) ∧ y.cur = none ∧ y.fetchAt = none ∧ y.wm = y.rhi ∧
  y.lastStat = (if stat = 1 then x.lastStat else stat) ∧
  t.core.events = s.core.events ∧ (x.quiet = true → t.core.evDue = s.core.evDue) ∧
  (x.quiet = false → t.core.evDue = s.core.evDue ++ [(stat, j, x.addr)])

/-! ## The fabric -/

/-- A flit that a live port of a module that has booted receives (R325, R330, R332); the state with its arrival noted. -/
def Arrives (kind : Nat) (s : State) (f : Flit) : Prop :=
  flitOk f = true ∧ fKind f = kind ∧ (s.portOf f.port).alive = true ∧ s.pk.booted = true
/-- The flit instructions with their kinds (R330, R331). -/
def FlitKind (mk : Flit → Instr) (kind : Nat) : Prop :=
  (mk = .writeRequestFlit ∧ kind = 1) ∨ (mk = .readRequestFlit ∧ kind = 2) ∨ (mk = .atomicRequestFlit ∧ kind = 3) ∨ (mk = .replyFlit ∧ kind = 4) ∨
  (mk = .collectiveDataFlit ∧ kind = 5) ∨ (mk = .abortFlit ∧ kind = 6) ∨ (mk = .shiftFlit ∧ kind = 7) ∨ (mk = .beatFlit ∧ kind = 8) ∨
  (mk = .migrationFlit ∧ kind = 9)
def noted (s : State) (f : Flit) : State := s.setPort { s.portOf f.port with last := s.beat, retries := 0 }

end Sys2Proof.Machine
end

