-- ==== Sys2Proof/WellFormed.lean ====
section
/-! DEFINITION. Well-formed instructions: template operations that pass the checks of R44 in an expanded template, stand in
a position of their class (R15) and carry a literal exactly when they want one; direct forms whose fields R37 allows;
steps whose arguments lie in the ranges of the units they name. -/
namespace Sys2Proof

/-- R42: H3 meaning 2 names the scopes 0 to 3 only. -/
def h3Reach (o : TOp) : Bool := Machine.hdH3 o.hd != 2 || decide (o.mdN < 4)

/-- A template operation of an opcode, served a literal that its kind allows. -/
def TOp.wf (opc : Nat) (i : Instr) (o : TOp) : Bool :=
  decide (o.slot < 8) && classOf o.slot == clsOf opc &&
  Machine.checkExpanded opc (clsOf opc) o == 0 && h3Reach o &&
  (if o.lk == 0#4 then o.lit == 0#22 else i.litOk o.lit) &&
  Instr.ofTmpl opc o == some i

/-- Ranges of step arguments: port (R330), channel of a core of the package (R246), die (R267), queue (R316), interface (R313),
BAR0 offset (R311), function (R323), page (R267), throttle level (R329), module (R331). -/
def stepWf : Instr → Bool
  | .movhiDirect _ q l => (q == 1#2 || q == 2#2) && !(q == 2#2 && l.extractLsb' 20 2 != 0#2)
  | .l2Fill d k _ => decide (d < 4 ∧ (k < 0x18000000 ∨ (0x400000000 ≤ k ∧ k < 0x800000000)))
  | .l2Writeback d k _ => decide (d < 4 ∧ (k < 0x18000000 ∨ (0x400000000 ≤ k ∧ k < 0x800000000)))
  | .recordFetch ch _ => decide (ch < 8192)
  | .chunkRead ch _ => decide (ch < 8192)
  | .chunkWrite ch => decide (ch < 8192)
  | .recordComplete ch => decide (ch < 8192)
  | .copyRecordTimeout ch => decide (ch < 8192)
  | .cstopEffect ch => decide (ch < 8192)
  | .fifoChunkRelease ch => decide (ch < 8192)
  | .launch p => decide (p.q < 4096)
  | .inval p => decide (p.q < 4096)
  | .pad p => decide (p.q < 4096)
  | .kill p => decide (p.q < 4096)
  | .park p => decide (p.q < 4096)
  | .resume p => decide (p.q < 4096)
  | .cold p => decide (p.q < 4096)
  | .recallRank p => decide (p.q < 4096)
  | .copyin p => decide (p.q < 4096)
  | .copyout p => decide (p.q < 4096)
  | .dbgread p => decide (p.q < 4096)
  | .attest p => decide (p.q < 4096)
  | .svc p => decide (p.q < 4096)
  | .join p => decide (p.q < 4096)
  | .ranknew p => decide (p.q < 4096)
  | .leave p => decide (p.q < 4096)
  | .packetFetch p => decide (p.q < 4096 ∧ p.words.length = 8 * (bits (p.words.getD 0 0#64).toNat 8 2 + 1))
  | .hostDmaCompletion p _ => decide (p.q < 4096)
  | .bar0RegisterWrite off _ => decide (off < 2 ^ 20 ∧ off % 8 = 0)
  | .serviceRequest f _ _ => decide (f < 6)
  | .poisonScrub page _ => decide (page < 2 ^ 30)
  | .throttleChange level => decide (level < 4)
  | .migration _ _ target => decide (target < 4096)
  | .notifyTail q _ => decide (q < 4096)
  | .notifyCompletionHead q _ => decide (q < 4096)
  | .qcfgEnable q v => decide (q < 4096) && v.getLsbD 63
  | .qcfgDisable q v => decide (q < 4096) && !v.getLsbD 63
  | .qifctlEnable i v => decide (i < 64) && v.getLsbD 0
  | .qifctlClose i v => decide (i < 64) && !v.getLsbD 0
  | .qifctlRevoke i v => decide (i < 64) && v.getLsbD 0 && v.getLsbD 2
  | .writeRequestFlit f => decide (f.port < 144 ∧ f.payload.length = 56 ∧ f.count ≤ 48)
  | .readRequestFlit f => decide (f.port < 144 ∧ f.payload.length = 56)
  | .atomicRequestFlit f => decide (f.port < 144 ∧ f.payload.length = 56)
  | .replyFlit f => decide (f.port < 144 ∧ f.payload.length = 56)
  | .collectiveDataFlit f => decide (f.port < 144 ∧ f.payload.length = 56 ∧ f.count ≤ 48)
  | .abortFlit f => decide (f.port < 144 ∧ f.payload.length = 56)
  | .shiftFlit f => decide (f.port < 144 ∧ f.payload.length = 56)
  | .beatFlit f => decide (f.port < 144 ∧ f.payload.length = 56)
  | .migrationFlit f => decide (f.port < 144 ∧ f.payload.length = 56)
  | .linkRetry p => decide (p < 144)
  | .linkSilenceTimeout p => decide (p < 144)
  | .linkBringUp p _ => decide (p < 144)
  | _ => true

/-- A well-formed instruction. -/
def Instr.wf (i : Instr) : Bool :=
  match i.tmpl with
  | some (opc, o) => TOp.wf opc i o
  | none => stepWf i

end Sys2Proof
end

