-- ==== Sys2Proof/Certificates/Slice0/Obligations.lean ====
section
/-! DEFINITION. The statements for the provers. -/
open Sys2Proof Sys2Proof.Machine

/-! ## Scalar integer operations -/

/-- R83, R84, R85: sums, products, quotients, absolute values, smaller and larger values, with `.sat` clamping. -/
def Obligations.ScalarArithmetic : Prop :=
  Does .add 0x00 (fun o s => satIssued 0x00 .sa o s (valA o s + valB o s)) ∧
  Does .sub 0x01 (fun o s => satIssued 0x01 .sa o s (valA o s - valB o s)) ∧
  Does .addsh 0x02 (fun o s => intIssued 0x02 .sa o s (valA o s + valB o s * 2 ^ (o.md.toNat % 8))) ∧
  Does .mul 0x03 (fun o s => satIssued 0x03 .sm o s (valA o s * valB o s)) ∧
  Does .mulh 0x04 (fun o s => intIssued 0x04 .sm o s ((valA o s * valB o s) >>> o.t.width)) ∧
  Does .div 0x05 (fun o s =>
    if valB o s = 0 then intIssued 0x05 .sm o s (-1) fDZ else intIssued 0x05 .sm o s ((valA o s).tdiv (valB o s))) ∧
  Does .rem 0x06 (fun o s =>
    if valB o s = 0 then intIssued 0x06 .sm o s (valA o s) fDZ
    else intIssued 0x06 .sm o s (valA o s - valB o s * (valA o s).tdiv (valB o s))) ∧
  Does .abs 0x07 (fun o s => satIssued 0x07 .sa o s ((valA o s).natAbs : Int)) ∧
  Does .min 0x10 (fun o s => intIssued 0x10 .sa o s (min (valA o s) (valB o s))) ∧
  Does .max 0x11 (fun o s => intIssued 0x11 .sa o s (max (valA o s) (valB o s))) ∧
  Does .minu 0x12 (fun o s => wordIssued 0x12 o s (BitVec.ofNat 64 (min (srcA s.core.a o).toNat (srcB s.core.a o).toNat))) ∧
  Does .maxu 0x13 (fun o s => wordIssued 0x13 o s (BitVec.ofNat 64 (max (srcA s.core.a o).toNat (srcB s.core.a o).toNat)))

/-- R83: logic, shifts and rotation on the low bits of the sources, bit counts and reversals. -/
def Claims.ScalarLogicShiftsCounts : Prop :=
  Does .and 0x08 (fun o s => bitsIssued 0x08 o s (lowA o s &&& lowB o s)) ∧
  Does .or 0x09 (fun o s => bitsIssued 0x09 o s (lowA o s ||| lowB o s)) ∧
  Does .xor 0x0A (fun o s => bitsIssued 0x0A o s (lowA o s ^^^ lowB o s)) ∧
  Does .andn 0x0B (fun o s => bitsIssued 0x0B o s (lowA o s &&& ~~~(lowB o s))) ∧
  Does .shl 0x0C (fun o s => bitsIssued 0x0C o s (lowA o s <<< countB o s)) ∧
  Does .shr 0x0D (fun o s => bitsIssued 0x0D o s (lowA o s >>> countB o s)) ∧
  Does .sar 0x0E (fun o s => bitsIssued 0x0E o s ((lowA o s).sshiftRight (countB o s))) ∧
  Does .rol 0x0F (fun o s => bitsIssued 0x0F o s ((lowA o s).rotateLeft (countB o s))) ∧
  Does .clz 0x18 (fun o s => wordIssued 0x18 o s (BitVec.ofNat 64 (lowA o s).clz.toNat)) ∧
  Does .ctz 0x19 (fun o s => wordIssued 0x19 o s (BitVec.ofNat 64 (lowA o s).ctz.toNat)) ∧
  Does .popc 0x1A (fun o s => wordIssued 0x1A o s (BitVec.ofNat 64 (lowA o s).cpop.toNat)) ∧
  Does .brev 0x1B (fun o s => bitsIssued 0x1B o s (lowA o s).reverse) ∧
  Does .bswap 0x1C (fun o s => bitsIssued 0x1C o s
    (BitVec.ofNat o.t.width (leNat (leBytes (o.t.width / 8) (lowA o s).toNat).reverse)))

/-- R85, R86, R87: compare and select, moves of registers and literals, bit fields. -/
def Claims.ScalarCompareMovesFields : Prop :=
  Does .cmp 0x14 (fun o s => issued 0x14 o s (oneResult s o (some .sa) (beatsOf s .sa)
    [wrS s.core.a o (regInt o.t (if valA o s < valB o s then -1 else if valA o s = valB o s then 0 else 1)) (taintAB s.core.a o),
     .cond (activeS s.core.a o) (condBits (valA o s = valB o s) (valA o s < valB o s) (lowA o s < lowB o s) false)] 0#8)) ∧
  Does .sel 0x15 (fun o s => wordIssued 0x15 o s
    (if selTest (o.md.toNat % 8) s.core.a.cond then srcA s.core.a o else srcB s.core.a o)) ∧
  Does .mov 0x16 (fun o s => scalarIssued 0x16 .sa o s
    (regBits o.t (if o.lk = 0#4 then lowA o s else lowB o s)) 0#8 (if o.lk = 0#4 then taintOf s.core.a o.sa else 0)) ∧
  Does .movhi 0x17 (fun o s => scalarIssued 0x17 .sa o s
    (if o.md.toNat % 4 = 1 then (srcD s.core.a o).extractLsb' 44 20 ++ o.lit ++ (srcD s.core.a o).extractLsb' 0 22
     else o.lit.extractLsb' 0 20 ++ (srcD s.core.a o).extractLsb' 0 44) 0#8 (taintOf s.core.a o.dst)) ∧
  Does .bext 0x1D (fun o s => wordIssued 0x1D o s
    (if o.t.signed then ((srcA s.core.a o >>> descPos o).setWidth (descLen o)).signExtend 64
     else ((srcA s.core.a o >>> descPos o).setWidth (descLen o)).setWidth 64)) ∧
  Does .bins 0x1E (fun o s =>
    let m : Word64 := (BitVec.allOnes (descLen o)).setWidth 64 <<< descPos o
    scalarIssued 0x1E .sa o s ((srcD s.core.a o &&& ~~~m) ||| ((srcA s.core.a o <<< descPos o) &&& m)) 0#8
      (widest [taintOf s.core.a o.sa, taintOf s.core.a o.dst])) ∧
  Does .ext 0x1F (fun o s =>
    let m := (srcB s.core.a o).toNat % 64 + 1
    intIssued 0x1F .sa o s (if o.t.signed then ((srcA s.core.a o).setWidth m).toInt else ((srcA s.core.a o).setWidth m).toNat))

/-- R36, R37: each direct form does what its template form does with the operands that R37 gives it. -/
def Obligations.ScalarDirectForms : Prop :=
  ∀ (d a : BitVec 6) (imm : BitVec 10) (im6 : BitVec 6) (lit : BitVec 22) (q : BitVec 2),
  DirectDoes (.addDirectReg d a) 0x00 (dirS d d a 0#4 0#22 0#5 4#6) (fun o s => satIssued 0x00 .sa o s (valA o s + valB o s)) ∧
  DirectDoes (.addDirectImm d imm) 0x00 (dirS d d 0#6 1#4 (imm.signExtend 22) 0#5 4#6)
    (fun o s => satIssued 0x00 .sa o s (valA o s + imm.toInt)) ∧
  DirectDoes (.subDirect d a) 0x01 (dirS d d a 0#4 0#22 0#5 4#6) (fun o s => satIssued 0x01 .sa o s (valA o s - valB o s)) ∧
  DirectDoes (.andDirect d a) 0x08 (dirS d d a 0#4 0#22 0#5 4#6) (fun o s => bitsIssued 0x08 o s (lowA o s &&& lowB o s)) ∧
  DirectDoes (.orDirect d a) 0x09 (dirS d d a 0#4 0#22 0#5 4#6) (fun o s => bitsIssued 0x09 o s (lowA o s ||| lowB o s)) ∧
  DirectDoes (.xorDirect d a) 0x0A (dirS d d a 0#4 0#22 0#5 4#6) (fun o s => bitsIssued 0x0A o s (lowA o s ^^^ lowB o s)) ∧
  DirectDoes (.shlDirect d im6) 0x0C (dirS d d 0#6 2#4 (im6.setWidth 22) 0#5 4#6)
    (fun o s => wordIssued 0x0C o s (s.core.a.rs d <<< im6.toNat)) ∧
  DirectDoes (.shrDirect d im6) 0x0D (dirS d d 0#6 2#4 (im6.setWidth 22) 0#5 4#6)
    (fun o s => wordIssued 0x0D o s (s.core.a.rs d >>> im6.toNat)) ∧
  DirectDoes (.movDirectImm d imm) 0x16 (dirS d 0#6 0#6 1#4 (imm.signExtend 22) 0#5 4#6)
    (fun o s => scalarIssued 0x16 .sa o s (imm.signExtend 64) 0#8 0) ∧
  DirectDoes (.movDirectLit d lit) 0x16 (dirS d 0#6 0#6 2#4 lit 0#5 4#6)
    (fun o s => scalarIssued 0x16 .sa o s (lit.setWidth 64) 0#8 0) ∧
  DirectDoes (.movhiDirect d q lit) 0x17 (dirS d 0#6 0#6 2#4 lit (q.setWidth 5) 0#6)
    (fun o s => scalarIssued 0x17 .sa o s
      (if q = 1#2 then (s.core.a.rs d).extractLsb' 44 20 ++ lit ++ (s.core.a.rs d).extractLsb' 0 22
       else lit.extractLsb' 0 20 ++ (s.core.a.rs d).extractLsb' 0 44) 0#8 (s.core.a.ts.get d.toFin))

/-! ## Scalar float operations -/

/-- R88, R89, R90, R91: the exact result of the sources, rounded once, with the flags of the operands and of the rounding;
minimum, maximum, compare, class and sign on the bits. -/
def Claims.ScalarFloatResults : Prop :=
  Does .fadd 0x20 (fun o s => fltIssued 0x20 o s (xsumR [fltA o s, fltSB o s]) (taintAB s.core.a o)) ∧
  Does .fsub 0x21 (fun o s => fltIssued 0x21 o s (xsumR [fltA o s, (fltSB o s).neg]) (taintAB s.core.a o)) ∧
  Does .fmul 0x22 (fun o s => fltIssued 0x22 o s (mulR (fltA o s) (fltSB o s)) (taintAB s.core.a o)) ∧
  Does .fma 0x23 (fun o s => fltIssued 0x23 o s (xsumR [mulR (fltA o s) (fltSB o s), fltD o s]) (taintABD s.core.a o)) ∧
  Does .fdiv 0x24 (fun o s =>
    let q := xdiv (fltA o s).v (fltSB o s).v
    fltIssued 0x24 o s ⟨q.v, q.fl ||| (fltA o s).fl ||| (fltSB o s).fl⟩ (taintAB s.core.a o)) ∧
  Does .fsqrt 0x25 (fun o s =>
    let q := xsqrt (fltA o s).v
    fltIssued 0x25 o s ⟨q.v, q.fl ||| (fltA o s).fl⟩ (taintOf s.core.a o.sa)) ∧
  Does .fmin 0x26 (fun o s =>
    let r := fminmax o.t false (fltA o s) (fltSB o s) (pickBits o.t (fltA o s) (srcA s.core.a o).toNat) (bitsB (seen 0x26 o s) o)
    scalarIssued 0x26 .sm o s (BitVec.ofNat 64 r.1) r.2 (taintAB s.core.a o)) ∧
  Does .fmax 0x27 (fun o s =>
    let r := fminmax o.t true (fltA o s) (fltSB o s) (pickBits o.t (fltA o s) (srcA s.core.a o).toNat) (bitsB (seen 0x27 o s) o)
    scalarIssued 0x27 .sm o s (BitVec.ofNat 64 r.1) r.2 (taintAB s.core.a o)) ∧
  Does .fcmp 0x28 (fun o s =>
    let c := (fltA o s).v.cmp (fltSB o s).v
    issued 0x28 o s (oneResult s o (some .sm) (beatsOf s .sm)
      [wrS s.core.a o (match c with | none => 2#64 | some .lt => -1#64 | some .eq => 0#64 | some .gt => 1#64) (taintAB s.core.a o),
       .cond (activeS s.core.a o) (condBits (c = some .eq) (c = some .lt) (c = some .lt) c.isNone)]
      (if activeS s.core.a o then (fltA o s).fl ||| (fltSB o s).fl ||| sigFlag [(fltA o s).v, (fltSB o s).v] else 0#8))) ∧
  Does .fclass 0x29 (fun o s => scalarIssued 0x29 .sm o s
    (1#64 <<< classBit (binOf o.t) (lowA o s).toNat) 0#8 (taintAB s.core.a o)) ∧
  Does .fcvt 0x2B (fun o s => fltIssued 0x2B o s ((srcTy o).decodeDaz (dazOn s.core.a o.grad) (srcA s.core.a o).toNat)
    (taintOf s.core.a o.sa))

/-- R90, R91: FSGN takes the sign of b, its inverse or the product of the signs and keeps the other bits of a; conversions
between floats and integers round the value of the source once and clamp integers to their type. -/
def Claims.ScalarSignAndIntegerConversions : Prop :=
  (∀ (o : TOp) (s : State), issues 0x2A o true s = true → 0 < o.t.width → ∃ r : BitVec o.t.width,
    exec (.fsgn o) s = .next (scalarIssued 0x2A .sm o s (r.setWidth 64) 0#8 (taintAB s.core.a o)) ∧
    (∀ j, j + 1 < o.t.width → r.getLsbD j = (lowA o s).getLsbD j) ∧
    r.msb = (let b := if o.lk = 0#4 then (lowB o s).msb else litSign o
      match o.md.toNat % 4 with | 0 => b | 1 => !b | _ => (lowA o s).msb != b)) ∧
  (∀ (o : TOp) (s : State), issues 0x2C o true s = true → o.t.isInt = true → ∃ (x : Int) (fl : Flags8),
    roundInt ((seen 0x2C o s).rnd o 0) o.t.lo o.t.hi ((srcTy o).decodeDaz (dazOn s.core.a o.grad) (srcA s.core.a o).toNat).v = (x, fl) ∧
    o.t.lo ≤ x ∧ x ≤ o.t.hi ∧
    exec (.fcvti o) s = .next (scalarIssued 0x2C .sm o s (regInt o.t x)
      (fl ||| ((srcTy o).decodeDaz (dazOn s.core.a o.grad) (srcA s.core.a o).toNat).fl) (taintOf s.core.a o.sa))) ∧
  (∀ (o : TOp) (s : State), issues 0x2D o true s = true → o.t.isFloat = true → (srcTy o).isInt = true →
    exec (.icvtf o) s = .next (fltIssued 0x2D o s ⟨XVal.ofInt (readInt (srcTy o) (srcA s.core.a o)), 0#8⟩ (taintOf s.core.a o.sa)))

/-! ## Vector operations -/

/-- R113, R114: sums, differences, products, fused products, smaller and larger values, absolute values and negations, lane by
lane, on integers (clamped under `.sat`) and on floats rounded once; complex products under `.c32`. -/
def Claims.VectorArithmetic : Prop :=
  Does .vadd 0x40 (fun o s => vectorIssued 0x40 (addClass o) o s (fun k => if o.t.isInt then satLane o (intA o s k + intB o s k)
    else fltLane 0x40 o s k (xsumR [flA o.grad o s k, flB o.grad o s k])) (taintAB s.core.a o)) ∧
  Does .vsub 0x41 (fun o s => vectorIssued 0x41 (addClass o) o s (fun k => if o.t.isInt then satLane o (intA o s k - intB o s k)
    else fltLane 0x41 o s k (xsumR [flA o.grad o s k, (flB o.grad o s k).neg])) (taintAB s.core.a o)) ∧
  Does .vmul 0x42 (fun o s => vectorIssued 0x42 .vf o s (fun k => if o.t.isInt then satLane o (intA o s k * intB o s k)
    else fltLane 0x42 o s k (xsumR (products o s k))) (taintAB s.core.a o)) ∧
  Does .vfma 0x43 (fun o s => vectorIssued 0x43 .vf o s (fun k => fltLane 0x43 o s k (xsumR (products o s k ++ [flD o s k])))
    (taintABD s.core.a o)) ∧
  Does .vfms 0x44 (fun o s => vectorIssued 0x44 .vf o s
    (fun k => fltLane 0x44 o s k (xsumR (flD o s k :: (products o s k).map XRes.neg))) (taintABD s.core.a o)) ∧
  Does .vabs 0x47 (fun o s => vectorIssued 0x47 .va o s (fun k => if o.t.isInt then satLane o ((intA o s k).natAbs : Int)
    else (((bitsA o s k) &&& (BitVec.allOnes o.t.width >>> 1)).setWidth 32, 0#8)) (taintAB s.core.a o)) ∧
  Does .vneg 0x48 (fun o s => vectorIssued 0x48 .va o s (fun k => if o.t.isInt then satLane o (-(intA o s k))
    else (((bitsA o s k) ^^^ (BitVec.allOnes o.t.width - BitVec.allOnes o.t.width >>> 1)).setWidth 32, 0#8)) (taintAB s.core.a o)) ∧
  Does .vmulh 0x57 (fun o s => lanesIssued 0x57 .vf o s (fun k => (regInt o.t ((intA o s k * intB o s k) >>> o.t.width)).setWidth 32))

/-- R114, R117: smaller and larger values of two lanes: integers by the type, floats by their values with zeros ordered and a
NaN giving way to a number. -/
def Claims.VectorMinMax : Prop :=
  Does .vmin 0x45 (fun o s => vectorIssued 0x45 .va o s (fun k =>
    if o.t.isInt then ((regInt o.t (min (intA o s k) (intB o s k))).setWidth 32, 0#8)
    else
      let r := fminmax o.t false (flA false o s k) (flB false o s k) (pickBits o.t (flA false o s k) (lnA o s k).toNat)
        (patB (seen 0x45 o s) o k)
      (BitVec.ofNat 32 r.1, r.2)) (taintAB s.core.a o)) ∧
  Does .vmax 0x46 (fun o s => vectorIssued 0x46 .va o s (fun k =>
    if o.t.isInt then ((regInt o.t (max (intA o s k) (intB o s k))).setWidth 32, 0#8)
    else
      let r := fminmax o.t true (flA false o s k) (flB false o s k) (pickBits o.t (flA false o s k) (lnA o s k).toNat)
        (patB (seen 0x46 o s) o k)
      (BitVec.ofNat 32 r.1, r.2)) (taintAB s.core.a o))

/-- R116: logic, shifts, rotation and counts of each lane. -/
def Obligations.VectorLogicShiftsCounts : Prop :=
  Does .vand 0x49 (fun o s => lanesIssued 0x49 .va o s (fun k => lnA o s k &&& lnB o s k)) ∧
  Does .vor 0x4A (fun o s => lanesIssued 0x4A .va o s (fun k => lnA o s k ||| lnB o s k)) ∧
  Does .vxor 0x4B (fun o s => lanesIssued 0x4B .va o s (fun k => lnA o s k ^^^ lnB o s k)) ∧
  Does .vandn 0x4C (fun o s => lanesIssued 0x4C .va o s (fun k => lnA o s k &&& ~~~(lnB o s k))) ∧
  Does .vnot 0x4D (fun o s => lanesIssued 0x4D .va o s (fun k => ~~~(lnA o s k))) ∧
  Does .vshl 0x4E (fun o s => lanesIssued 0x4E .va o s (fun k => bitLane o (bitsA o s k <<< shB o s k))) ∧
  Does .vshr 0x4F (fun o s => lanesIssued 0x4F .va o s (fun k => bitLane o (bitsA o s k >>> shB o s k))) ∧
  Does .vsar 0x50 (fun o s => lanesIssued 0x50 .va o s (fun k => bitLane o ((bitsA o s k).sshiftRight (shB o s k)))) ∧
  Does .vrol 0x51 (fun o s => lanesIssued 0x51 .va o s (fun k => bitLane o ((bitsA o s k).rotateLeft (shB o s k)))) ∧
  Does .vclz 0x5E (fun o s => lanesIssued 0x5E .va o s (fun k => BitVec.ofNat 32 (bitsA o s k).clz.toNat)) ∧
  Does .vpopc 0x5F (fun o s => lanesIssued 0x5F .va o s (fun k => BitVec.ofNat 32 (bitsA o s k).cpop.toNat))

/-- R117, R118: a compare writes one predicate bit a lane and flags only what its active lanes read; a select takes a lane of the
first source where its predicate is set, of the second elsewhere. -/
def Claims.VectorCompareSelect : Prop :=
  Does .vcmp 0x52 (fun o s =>
    let m := activeMask s.core.a o
    let r := predBits (fun k => if o.t.isInt then vcmpInt (o.md.toNat % 8) (intA o s k) (intB o s k)
      else vcmpFlt (o.md.toNat % 8) (flA false o s k).v (flB false o s k).v)
    issued 0x52 o s (oneResult s o (some .va) (beatsOf s .va)
      [if predZero o then .p (predN o.dst) 0xFFFFFFFF#32 (r &&& m) else .p (predN o.dst) m r]
      (if o.t.isInt then 0#8 else laneFlags m (fun k =>
        (flA false o s k).fl ||| (flB false o s k).fl ||| sigFlag [(flA false o s k).v, (flB false o s k).v])))) ∧
  Does .vsel 0x53 (fun o s => wholeIssued 0x53 .va o s (fun k => if takes o s k then lnA o s k else lnB o s k) 0#8
    (taintAB s.core.a o))

/-- R119, R120, R121: moves, broadcasts, permutation, rotation, extraction and insertion of lanes. -/
def Claims.VectorMovesPermutes : Prop :=
  Does .vmov 0x54 (fun o s => lanesIssued 0x54 .va o s (fun k => if o.lk = 0#4 then lnA o s k else lnB o s k)) ∧
  Does .vbcast 0x55 (fun o s => lanesIssued 0x55 .va o s (fun _ => (srcA s.core.a o).setWidth 32)) ∧
  Does .vbcastLane 0x55 (fun o s => lanesIssued 0x55 .va o s (fun _ => lnA o s ((srcB s.core.a o).toNat % 32))) ∧
  Does .vbcastIota 0x55 (fun o s => lanesIssued 0x55 .va o s (fun k => (srcA s.core.a o).setWidth 32 + BitVec.ofNat 32 k)) ∧
  Does .vperm 0x65 (fun o s => lanesIssued 0x65 .va o s (fun k => lnA o s ((lnB o s k).toNat % 32))) ∧
  Does .vrot 0x66 (fun o s => lanesIssued 0x66 .va o s
    (fun k => lnA o s (((k : Int) - (srcB s.core.a o).toNat % 32) % 32).toNat)) ∧
  Does .vextr 0x67 (fun o s => scalarIssued 0x67 .va o s
    (regInt o.t (intA o s ((srcB s.core.a o).toNat % 32))) 0#8 (taintAB s.core.a o)) ∧
  Does .vins 0x68 (fun o s => wholeIssued 0x68 .va o s
    (fun k => if k = (srcB s.core.a o).toNat % 32 then (srcA s.core.a o).setWidth 32 else vecD s.core.a o k) 0#8
    (taintABD s.core.a o))

/-- R122 to R125: conversions round once into TY, VRND gives the rounded value as F32, VSCL scales by a power of two, VSAT clamps
a 32-bit integer. -/
def Claims.VectorConversions : Prop :=
  Does .vcvt 0x56 (fun o s => vectorIssued 0x56 .vf o s (fun k =>
    let x := (srcTy o).decodeDaz (dazOn s.core.a o.grad) (lnA o s k).toNat
    let r := roundAt 0x56 o s k x.v
    (if o.t.isInt then (regInt o.t r.pat).setWidth 32 else BitVec.ofNat 32 r.pat, r.fl ||| x.fl)) (taintOf s.core.a o.sa)) ∧
  Does .vrnd 0x70 (fun o s => vectorIssued 0x70 .vf o s (fun k =>
    let x := Ty.f32.decodeDaz (dazOn s.core.a o.grad) (lnA o s k).toNat
    let r := gridLane o.t ((seen 0x70 o s).rnd o k) x.v
    (r.1, r.2 ||| x.fl)) (taintAB s.core.a o)) ∧
  Does .vscl 0x71 (fun o s => vectorIssued 0x71 .vf o s (fun k => fltLane 0x71 o s k (match flA o.grad o s k with
    | ⟨.fin d, fl⟩ => ⟨.fin (d.scale (max (-2000) (min (lnB o s k).toInt 2000))), fl⟩
    | x => x)) (taintAB s.core.a o)) ∧
  Does .vsat 0x6F (fun o s => vectorIssued 0x6F .va o s (fun k =>
    let x : Int := if o.md.getLsbD 0 then (lnA o s k).toNat else (lnA o s k).toInt
    ((regInt o.t (clampTo o.t x)).setWidth 32, flagIf (clampTo o.t x != x) fSAT)) (taintAB s.core.a o))

/-- R126: reciprocals, roots, exponential, logarithm and hyperbolic tangent of each lane, rounded once. -/
def Claims.VectorTranscendentals : Prop :=
  Does .vrcp 0x58 (fun o s => fnIssued 0x58 o s (fun a => xdiv (.fin ⟨false, 1, 0⟩) a)) ∧
  Does .vrsqrt 0x59 (fun o s => fnIssued 0x59 o s xrsqrt) ∧
  Does .vsqrt 0x5A (fun o s => fnIssued 0x5A o s xsqrt) ∧
  Does .vexp2 0x5B (fun o s => fnIssued 0x5B o s xexp2) ∧
  Does .vlog2 0x5C (fun o s => fnIssued 0x5C o s xlog2) ∧
  Does .vtanh 0x5D (fun o s => fnIssued 0x5D o s xtanh)

/-- R127, R128: sums of the active lanes (integers exactly; floats by a tree of rounded sums of neighbours), extremes, running
sums. -/
def Claims.VectorReductions : Prop :=
  Does .vrsum 0x60 (fun o s =>
    if o.t.isInt then
      let x := ((List.range 32).map (fun k => if takes o s k then intA o s k else 0)).sum
      wholeIssued 0x60 .vt o s (fun _ => (satLane o x).1) (satLane o x).2 (taintAB s.core.a o)
    else
      let e := seen 0x60 o s
      let r := treeSum e o 5 (contrib e o o.grad (.fin ⟨true, 0, 0⟩))
      wholeIssued 0x60 .vt o s
        (fun _ => BitVec.ofNat 32 (o.t.round ((seen 0x60 o s).rnd o 0 |> fun r => ⟨.rz, r.grad, r.lane, r.ftz⟩) (r.1.headD .zero)).pat)
        (r.2 ||| contribFl e o o.grad) (taintAB s.core.a o)) ∧
  (∀ (o : TOp) (s : State), o.t.isInt = true → ∃ x y : Int,
    ((∀ k < 32, takes o s k = true → intA o s k ≤ x) ∧ o.t.lo ≤ x ∧
      (x = o.t.lo ∨ ∃ k < 32, takes o s k = true ∧ intA o s k = x)) ∧
    ((∀ k < 32, takes o s k = true → y ≤ intA o s k) ∧ y ≤ o.t.hi ∧
      (y = o.t.hi ∨ ∃ k < 32, takes o s k = true ∧ intA o s k = y)) ∧
    (issues 0x61 o true s = true → exec (.vrmax o) s =
      .next (wholeIssued 0x61 .vt o s (fun _ => (regInt o.t x).setWidth 32) 0#8 (taintAB s.core.a o))) ∧
    (issues 0x62 o true s = true → exec (.vrmin o) s =
      .next (wholeIssued 0x62 .vt o s (fun _ => (regInt o.t y).setWidth 32) 0#8 (taintAB s.core.a o)))) ∧
  Does .vscan 0x63 (fun o s =>
    let excl := o.md.getLsbD 0
    if o.t.isInt then
      let r := iscan o excl (o.md.getLsbD 1) 0 ((List.range 32).map (fun k => if takes o s k then intA o s k else 0))
      wholeIssued 0x63 .vt o s (fun k => (regInt o.t (r.1.getD k 0)).setWidth 32) r.2 (taintAB s.core.a o)
    else
      let e := seen 0x63 o s
      let r := fscan e o excl (.fin ⟨true, 0, 0⟩) (contrib e o o.grad (.fin ⟨true, 0, 0⟩))
      wholeIssued 0x63 .vt o s
        (fun k => BitVec.ofNat 32 (o.t.round ((seen 0x63 o s).rnd o 0 |> fun r => ⟨.rz, r.grad, r.lane, r.ftz⟩) (r.1.getD k .zero)).pat)
        (r.2 ||| contribFl e o o.grad) (taintAB s.core.a o))

/-- R127 on floats: the extreme of an empty set is an infinity; else some active lane delivers its bits, and no active number is
beyond it; NaNs give way to numbers. -/
def Claims.VectorFloatExtremes : Prop :=
  ∀ (mx : Bool) (o : TOp) (s : State), o.t.isInt = false →
  issues (if mx then 0x61 else 0x62) o true s = true →
  ∃ (b : Word32) (fl : Flags8),
    exec (if mx then .vrmax o else .vrmin o) s =
      .next (wholeIssued (if mx then 0x61 else 0x62) .vt o s (fun _ => b) fl (taintAB s.core.a o)) ∧
    ((∀ k < 32, takes o s k = false) → b = BitVec.ofNat 32 ((binOf o.t).withSign mx (binOf o.t).infPat)) ∧
    ((∃ k < 32, takes o s k = true) → (∀ k < 32, takes o s k = true → (flA false o s k).v.isNan = true) →
      b = BitVec.ofNat 32 (binOf o.t).nanPat) ∧
    ((∃ k < 32, takes o s k = true ∧ (flA false o s k).v.isNan = false) →
      ∃ k < 32, takes o s k = true ∧ (flA false o s k).v.isNan = false ∧
        b = BitVec.ofNat 32 (pickBits o.t (flA false o s k) (lnA o s k).toNat) ∧
        ∀ j < 32, takes o s j = true → (flA false o s j).v.isNan = false →
          (if mx then (flA false o s k).v.ltZ (flA false o s j).v else (flA false o s j).v.ltZ (flA false o s k).v) = false)

/-- R129: VSORT writes keys and companions in one order: active numbers sorted, equal ones in lane order, then active NaNs, then
inactive lanes, both in lane order. -/
def Obligations.VectorSortIsStable : Prop :=
  ∀ (o : TOp) (s : State), issues 0x64 o true s = true → ∃ ord : List Nat,
    ord.Perm (List.range 32) ∧
    ord.Pairwise (sortedBefore o s) ∧
    exec (.vsort o) s = .next (issued 0x64 o s (oneResult s o (some .vt) (beatsOf s .vt)
      [.v (regN o.dst) 0xFFFFFFFF#32 (vecOf 32 (fun i => lnA o s (ord.getD i 0))) (taintAB s.core.a o),
       .v (regN o.dst + 1#6) 0xFFFFFFFF#32 (vecOf 32 (fun i => lnB o s (ord.getD i 0))) (taintAB s.core.a o)] 0#8))

/-- R130, R131, R132: predicates packed, unpacked, combined and counted; random lanes of the draw. -/
def Claims.VectorPredicatesAndRandom : Prop :=
  Does .ppack 0x6A (fun o s => wholeIssued 0x6A .va o s (fun k => if k < 16 then s.core.a.rp (BitVec.ofNat 4 k) else 0#32) 0#8 0) ∧
  Does .punpack 0x6B (fun o s =>
    let d := (predN o.dst).toNat
    issued 0x6B o s (oneResult s o (some .va) (beatsOf s .va)
      ((List.range (16 - d)).map (fun i => .p (BitVec.ofNat 4 (d + i)) 0xFFFFFFFF#32 (lnA o s (d + i)))) 0#8)) ∧
  Does .plog 0x6C (fun o s =>
    let a := s.core.a.rp (predN o.sa)
    let b := s.core.a.rp (predN o.sb)
    issued 0x6C o s (oneResult s o (some .va) (beatsOf s .va)
      [.p (predN o.dst) 0xFFFFFFFF#32 (if o.md.toNat % 8 = 0 then a &&& b else if o.md.toNat % 8 = 1 then a ||| b
        else if o.md.toNat % 8 = 2 then a ^^^ b else if o.md.toNat % 8 = 3 then a &&& ~~~b else ~~~a)] 0#8)) ∧
  Does .pcnt 0x6D (fun o s => issued 0x6D o s (oneResult s o (some .va) (beatsOf s .va)
    [.s (regN o.dst) ((s.core.a.rp (predN o.sa)).cpop.setWidth 64) true 0] 0#8)) ∧
  Does .pfirst 0x6E (fun o s =>
    let p := s.core.a.rp (predN o.sa)
    issued 0x6E o s (oneResult s o (some .va) (beatsOf s .va)
      [.s (regN o.dst) (if p = 0#32 then 32#64 else if o.md.getLsbD 0 then (31#32 - p.clz).setWidth 64 else p.ctz.setWidth 64)
        true 0] 0#8)) ∧
  Does .vrand 0x69 (fun o s => issued 0x69 o s (oneResult s o (some .vf) (beatsOf s .vf)
    [wrV s.core.a o (regN o.dst) (fun k =>
      let r := laneAt (drawLanes s.core.tomb s.core.a.rngc) k
      if o.md.getLsbD 0 then unifLane r else r) 0] 0#8))

/-! ## Control -/

/-- R92, R93, R95: jumps and conditional branches are taken to PC plus displacement, fall through, or trap beyond the code. -/
def Claims.BranchesTakenOrNot : Prop :=
  Branches .jmp 0xD0 (fun _ _ => true) ∧
  Branches .bcmp 0xD1 (fun o s => bcmpTest (o.md.toNat % 8) o.t (srcA s.core.a o) (s.core.a.rs (regN o.sb))) ∧
  Branches .beqz 0xD2 (fun o s => srcA s.core.a o == 0#64) ∧
  Branches .bnez 0xD2 (fun o s => srcA s.core.a o != 0#64) ∧
  Branches .bpred 0xD3 (fun o s => predTest (o.md.toNat % 4) (s.core.a.rp (predN o.sa))) ∧
  (∀ (disp : BitVec 16) (a : BitVec 6) (d10 : BitVec 10),
    DirectBranches (.jmpDirect disp) 0xD0 (dirX 0#8 0#8 0#8 3#4 (disp.signExtend 22) 0#5) disp.toInt (fun _ => true) ∧
    DirectBranches (.beqzDirect a d10) 0xD2 (dirX 0#8 (sreg a) 0#8 3#4 (d10.signExtend 22) 0#5) d10.toInt
      (fun s => s.core.a.rs a == 0#64) ∧
    DirectBranches (.bnezDirect a d10) 0xD2 (dirX 0#8 (sreg a) 0#8 3#4 (d10.signExtend 22) 1#5) d10.toInt
      (fun s => s.core.a.rs a != 0#64))

/-- R93, R95, R106: BRG branches when its two predicates agree, and traps with both of them when they differ, or when its target lies out of the
code object. -/
def Claims.GuardedBranchComparesPredicates : Prop :=
  ∀ (o : TOp) (s : State), issues 0xD4 o true s = true →
    let a := s.core.a.rp (predN o.sa)
    let b := s.core.a.rp (predN o.sb)
    (a = b → predTest (o.md.toNat % 4) a = true → InCode s (dispOf o s) →
      exec (.brg o) s = .next (jumps 0xD4 o s (dispOf o s).toNat true [])) ∧
    (a = b → predTest (o.md.toNat % 4) a = true → ¬InCode s (dispOf o s) → exec (.brg o) s = .next (trapped s 0x0E 6#64)) ∧
    (a = b → predTest (o.md.toNat % 4) a = false → exec (.brg o) s = .next (passesBy 0xD4 o s)) ∧
    (a ≠ b → exec (.brg o) s = .next (trapped s 0x0A (b ++ a)))

/-- R94, R95, R236: calls deliver the return address and transfer, after the stack test; returns and register jumps transfer
through a register. -/
def Claims.CallsAndReturns : Prop :=
  (∀ (o : TOp) (s : State), issues 0xD5 o true s = true → StackOk s → InCode s (dispOf o s) →
    exec (.call o) s = .next (jumps 0xD5 o s (dispOf o s).toNat false [linkOf o s])) ∧
  (∀ (o : TOp) (s : State), issues 0xD5 o true s = true → StackOk s → ¬InCode s (dispOf o s) →
    exec (.call o) s = .next (trapped s 0x0E 6#64)) ∧
  (∀ (o : TOp) (s : State), issues 0xD6 o true s = true → StackOk s →
    RegisterJump (.callr o) 0xD6 o s (srcA s.core.a o) false [linkOf o s (taintOf s.core.a o.sa)]) ∧
  (∀ (o : TOp) (s : State), issues 0xD7 o true s = true → RegisterJump (.ret o) 0xD7 o s (s.core.a.rs 62#6) false []) ∧
  (∀ (o : TOp) (s : State), issues 0xD8 o true s = true → RegisterJump (.jmpr o) 0xD8 o s (srcA s.core.a o) true []) ∧
  (∀ (disp : BitVec 16) (s : State), let o := dirX 0#8 0#8 0#8 3#4 (disp.signExtend 22) 0#5
    issues 0xD5 o false s = true → StackOk s → InCode s (s.core.pc + disp.toInt) →
    exec (.callDirect disp) s = .next (jumps 0xD5 o s ((s.core.pc : Int) + disp.toInt).toNat false [linkOf o s])) ∧
  (∀ (disp : BitVec 16) (s : State), issues 0xD5 (dirX 0#8 0#8 0#8 3#4 (disp.signExtend 22) 0#5) false s = true → StackOk s →
    ¬InCode s (s.core.pc + disp.toInt) → exec (.callDirect disp) s = .next (trapped s 0x0E 6#64)) ∧
  (∀ s : State, let o := dirX 0#8 0#8 0#8 0#4 0#22 0#5
    issues 0xD7 o false s = true → RegisterJump .retDirect 0xD7 o s (s.core.a.rs 62#6) false []) ∧
  (∀ (a : BitVec 6) (s : State), let o := dirX 0#8 (sreg a) 0#8 0#4 0#22 0#5
    issues 0xD8 o false s = true → RegisterJump (.jmprDirect a) 0xD8 o s (s.core.a.rs a) true [])

/-- R236: a call whose stack pointer is below STKLO, or not on a 128-byte boundary, is a stack fault, and nothing of it happens. -/
def Claims.CallStackFaults : Prop :=
  ∀ (o : TOp) (disp : BitVec 16) (s : State),
    let direct := dirX 0#8 0#8 0#8 3#4 (disp.signExtend 22) 0#5
    let sp := s.core.a.rs 63#6
    let aux := fun (d : Nat) => BitVec.ofNat 64 (sp.toNat % 2 ^ 56 * 256 + d)
    (sp.toNat < s.core.a.stklo.toNat →
      (issues 0xD5 o true s = true → exec (.call o) s = .next (trapped s 0x0D (aux 2))) ∧
      (issues 0xD5 direct false s = true → exec (.callDirect disp) s = .next (trapped s 0x0D (aux 2))) ∧
      (issues 0xD6 o true s = true → exec (.callr o) s = .next (trapped s 0x0D (aux 2)))) ∧
    (s.core.a.stklo.toNat ≤ sp.toNat → sp.toNat % 128 ≠ 0 →
      (issues 0xD5 o true s = true → exec (.call o) s = .next (trapped s 0x0D (aux 3))) ∧
      (issues 0xD5 direct false s = true → exec (.callDirect disp) s = .next (trapped s 0x0D (aux 3))) ∧
      (issues 0xD6 o true s = true → exec (.callr o) s = .next (trapped s 0x0D (aux 3))))

/-- R96, R233: LOOP and LOOPX take the loop bounds and the number of passes, and deliver it to LCk one beat later; no pass when the
count is zero. -/
def Obligations.LoopSetUp : Prop :=
  ∀ (x : Bool) (o : TOp) (s : State),
    let k := o.md.toNat % 4
    let ns := if x then o.md.toNat / 4 + 1 else 1
    let n := (srcA s.core.a o).toNat
    let passes := if n = 0 then 0 else min (n + ns - 1) (2 ^ 64 - 1)
    let opc := if x then 0xDA else 0xD9
    issues opc o true s = true → s.core.a.pend = [] → (s.core.pc : Int) + 1 ≤ dispOf o s →
    (∀ j < k, (loopAt s.core.a j).active = true →
      (loopAt s.core.a j).start ≤ s.core.pc + 1 ∧ dispOf o s ≤ (loopAt s.core.a j).stop) →
    (x = true → ¬(lstgAct s.core.a.lstg = true ∧ lstgLoop s.core.a.lstg < k) ∧
      (lstgPb s.core.a.lstg ≠ 0 → lstgPb s.core.a.lstg + ns - 1 ≤ 15)) →
    exec (if x then .loopx o else .loop o) s = .next (issued opc o s
      { loop := some ⟨k, passes, s.core.pc + 1, (dispOf o s).toNat, if x then some ns else none⟩
        flights := if passes = 0 then [] else
          [⟨s.beat + 1, s.beat, o.slot, none, [.spec (BitVec.ofNat 6 (0x1B + k)) (BitVec.ofNat 64 passes)], 0#8, none, none⟩] })

/-- R24, R26, R96, R232: where the sequencer goes: a redirect that is due, the start of the innermost loop that ends here and has
passes left (LCk falls by one a beat later), or the next bundle; a taken transfer waits for its delay bundles. -/
def Obligations.SequencerAdvances : Prop :=
  ∀ (c : Core) (t : Nat) (taken : Option Taken) (s c' : Word64),
    (∀ e es, c.a.pend = e :: es → e.left ≤ 1 → es = [] →
      (c.advance t taken none s c').pc = e.target) ∧
    (∀ k, taken = some k → (c.advance t taken none s c').a.pend.getLast? =
      some ⟨delayBundles c.lath.toNat, k.target, k.ends, t⟩) ∧
    (c.a.pend = [] → c.hm = false → (∀ j < 4, (loopAt c.a j).active = true → (loopAt c.a j).stop ≠ c.pc) →
      (c.advance t taken none s c').pc = c.pc + 1) ∧
    (∀ k < 4, c.a.pend = [] → c.hm = false → lstgAct c.a.lstg = false →
      (loopAt c.a k).active = true → (loopAt c.a k).stop = c.pc →
      (∀ j < 4, k < j → (loopAt c.a j).active = true → (loopAt c.a j).stop ≠ c.pc) →
      1 < (c.a.lc.toList.getD k 0#64).toNat →
      (c.advance t taken none s c').pc = (loopAt c.a k).start ∧
      (c.advance t taken none s c').flights = c.flights ++ [⟨t + 1, t, 0, none,
        [.lc (BitVec.ofNat 2 k) (BitVec.ofNat 64 ((c.a.lc.toList.getD k 0#64).toNat - 1))], 0#8, none, none⟩])

/-- R99 to R102, R223: YIELD grants a run, and switches out when the arbiter decides for it; WAITB waits for its beat; TRAP is taken
after its bundle; HALT stops the context. -/
def Obligations.YieldWaitTrapHalt : Prop :=
  ∀ (d : Bool) (o : TOp) (s : State) (imm : BitVec 16) (a : BitVec 6) (code : BitVec 8),
    (let o := if d then dirX 0#8 0#8 0#8 2#4 (imm.setWidth 22) 0#5 else o
     issues 0xDB o (!d) s = true →
     (s.yields s.core = true → s.core.guarded = true → s.core.drained = true ∧ heldClash s o.slot = none) →
      ∃ t, exec (if d then .yieldDirect imm else .yield o) s = .next t ∧
        t.core.yleft = (if o.lit = 0#22 then 65536 else o.lit.toNat) ∧ t.core.yrun = t.core.yleft ∧
        (s.yields s.core = true → t.core.switchOut = true)) ∧
    (let o := if d then dirX 0#8 (sreg a) 0#8 0#4 0#22 0#5 else o
     issues 0xDC o (!d) s = true →
      let b := (srcA s.core.a o).toNat
      ((s.core.timetabled = true → s.beat ≤ b) → exec (if d then .waitbDirect a else .waitb o) s =
        .next (issued 0xDC o s { waits := if b ≤ s.beat then [] else [.beat b] })) ∧
      (s.core.timetabled = true → b < s.beat → exec (if d then .waitbDirect a else .waitb o) s =
        .next (trapped s 0x06 (BitVec.ofNat 64 (b % 2 ^ 56 * 256 + o.slot * 16 + 1))))) ∧
    (let o := if d then dirX 0#8 code 0#8 0#4 0#22 0#5 else o
     issues 0xDF o (!d) s = true → s.core.trap = none →
      ∃ t, exec (if d then .trapDirect code else .trap o) s = .next t ∧
        t.core.trap = some ⟨0x18, 2, s.core.pc, o.sa.setWidth 64, s.beat, false⟩) ∧
    (let o := if d then dirX 0#8 0#8 0#8 0#4 0#22 0#5 else o
     issues 0xEB o (!d) s = true → (s.core.guarded = true → s.core.drained = true ∧ heldClash s o.slot = none) →
      ∃ t, exec (if d then .haltDirect else .halt o) s = .next t ∧ t.core.run = .stopping ∧ t.core.a.pend = [] ∧
        ∀ l ∈ t.core.a.loops.toList, l.active = false) ∧
    (issues 0xEC o true s = true → s.core.trap = none →
      ∃ t, exec (.bkpt o) s = .next t ∧ t.core.trap = some ⟨0x16, 2, s.core.pc, 0#64, s.beat, false⟩)

/-! ## Special registers -/

/-- R103, R104, R106: GETS delivers the listed register at issue + 1; beyond index 0x1F it is a privilege trap. -/
def Claims.GetsReadsSpecialRegisters : Prop :=
  ∀ (o : TOp) (s : State),
    (issues 0xDD o true s = true → o.sa.toNat < 0x20 →
      exec (.gets o) s = .next (issued 0xDD o s (nextBeat o s [.s (regN o.dst) (s.core.special s.beat o.sa.toNat) true 0]))) ∧
    (issues 0xDD o true s = true → 0x20 ≤ o.sa.toNat →
      exec (.gets o) s = .next (trapped s 0x13 (BitVec.ofNat 64 ((if o.sa.toNat = 0x20 then 2 else 0) * 512 + o.sa.toNat)))) ∧
    (∀ d idx : BitVec 6, let o := dirX (sreg d) (sreg idx) 0#8 0#4 0#22 0#5
      issues 0xDD o false s = true → idx.toNat < 0x20 →
      exec (.getsDirect d idx) s = .next (issued 0xDD o s (nextBeat o s [.s d (s.core.special s.beat idx.toNat) true 0]))) ∧
    (∀ d idx : BitVec 6, issues 0xDD (dirX (sreg d) (sreg idx) 0#8 0#4 0#22 0#5) false s = true → 0x20 ≤ idx.toNat →
      exec (.getsDirect d idx) s = .next (trapped s 0x13 (BitVec.ofNat 64 ((if idx.toNat = 0x20 then 2 else 0) * 512 + idx.toNat))))

/-- R104: what the special registers read as. -/
def Claims.SpecialRegistersReadTheirFields : Prop :=
  ∀ (c : Core) (t : Nat),
    c.special t 0x00 = BitVec.ofNat 64 t ∧ c.special t 0x01 = c.rankid ∧ c.special t 0x02 = BitVec.ofNat 64 c.coreid ∧
    c.special t 0x04 = c.a.fctl ∧ c.special t 0x05 = c.a.mxc ∧ c.special t 0x07 = BitVec.ofNat 64 c.trappc ∧
    c.special t 0x08 = c.trapaux ∧ c.special t 0x09 = c.a.fsw ∧ c.special t 0x0A = c.a.stklo ∧ c.special t 0x0B = c.a.rngt ∧
    c.special t 0x0C = c.a.rngc ∧ c.special t 0x0D = c.a.rngs ∧ c.special t 0x0F = c.dictv ∧ c.special t 0x11 = c.a.adjoff ∧
    c.special t 0x12 = c.a.tapeb ∧ c.special t 0x13 = c.a.tapel ∧ c.special t 0x14 = c.a.tapep ∧ c.special t 0x15 = c.lath ∧
    c.special t 0x18 = BitVec.ofNat 64 c.yleft ∧ c.special t 0x19 = c.phase ∧ c.special t 0x1A = c.step ∧
    c.special t 0x1F = c.a.lstg ∧
    (∀ k : Fin 4, c.special t (0x1B + k.val) = c.a.lc.get k) ∧
    (c.special t 0x03).getLsbD 0 = c.sticky.getLsbD 0 ∧
    (∀ j < 8, (c.special t 0x03).getLsbD j = c.sticky.getLsbD j) ∧
    (∀ j < 4, (c.special t 0x03).getLsbD (8 + j) = c.a.cond.getLsbD j) ∧
    (∀ j < 2, (c.special t 0x10).getLsbD j = c.a.adjmode.getLsbD j) ∧
    (c.cause < 256 → c.kind < 4 → c.hvec < 2 ^ 32 →
      (c.special t 0x06).toNat % 256 = c.cause ∧ (c.special t 0x06).toNat / 256 % 4 = c.kind ∧
      (c.special t 0x06).toNat / 2 ^ 32 = c.hvec ∧ (c.special t 0x06).getLsbD 15 = c.hm)

/-- R103, R104, R106: SETS delivers the source at issue + 1; to a read-only, unlisted or firmware register it is a privilege trap. -/
def Claims.SetsWritesSpecialRegisters : Prop :=
  ∀ (o : TOp) (s : State), issues 0xDE o true s = true →
    let write := issued 0xDE o s (nextBeat o s [.spec (regN o.dst) (srcA s.core.a o)])
    let deny := fun (why : Nat) => trapped s 0x13 (BitVec.ofNat 64 (why * 512 + 256 + o.dst.toNat))
    (∀ mk ∈ [Instr.sets, Instr.setsLc, Instr.setsTrappc, Instr.setsTapel],
      ¬(o.dst ∈ [0x0B#8, 0x11#8, 0x12#8, 0x17#8]) →
      (o.dst.toNat < 0x20 → readOnly o.dst.toNat = false → exec (mk o) s = .next write) ∧
      (o.dst.toNat < 0x20 → readOnly o.dst.toNat = true → exec (mk o) s = .next (deny 1)) ∧
      (o.dst.toNat = 0x20 → exec (mk o) s = .next (deny 2)) ∧
      (0x20 < o.dst.toNat → exec (mk o) s = .next (deny 0))) ∧
    (o.dst = 0x0B#8 → ∀ mk ∈ [Instr.sets, Instr.setsRngt], exec (mk o) s =
      .next (issued 0xDE o s { nextBeat o s [.spec 0x0B#6 (srcA s.core.a o)] with
        post := fun c => { c with tombPc := s.core.pc } })) ∧
    (o.dst = 0x11#8 → s.core.a.adjmode = 0#2 → ∀ mk ∈ [Instr.sets, Instr.setsAdjoff], exec (mk o) s = .next write) ∧
    (o.dst = 0x12#8 → s.core.a.adjmode = 0#2 → s.core.a.tapeFlushed = true →
      ∀ mk ∈ [Instr.sets, Instr.setsTapeb], exec (mk o) s = .next write) ∧
    (o.dst ∈ [0x11#8, 0x12#8] → s.core.a.adjmode ≠ 0#2 →
      ∀ mk ∈ [Instr.sets, if o.dst = 0x11#8 then Instr.setsAdjoff else Instr.setsTapeb],
        exec (mk o) s = .next (trapped s 0x0C 4#64)) ∧
    (o.dst = 0x12#8 → s.core.a.adjmode = 0#2 → s.core.a.tapeFlushed = false →
      ∀ mk ∈ [Instr.sets, Instr.setsTapeb], exec (mk o) s = .next (trapped s 0x0C 5#64)) ∧
    (o.dst = 0x17#8 → s.core.drained = true → heldClash s o.slot = none → ∀ mk ∈ [Instr.sets, Instr.setsCkpts], exec (mk o) s =
      .next (issued 0xDE o s { nextBeat o s [.spec 0x17#6 (srcA s.core.a o)] with ckpt := true })) ∧
    (o.dst = 0x17#8 → s.core.drained = false → ∀ mk ∈ [Instr.sets, Instr.setsCkpts], exec (mk o) s = .next s)

/-- R189: the tape counts as flushed when it is empty, or when a TAPEFL came after its last push. -/
def Claims.TapeFlushed : Prop :=
  ∀ a : Arch, a.tapeFlushed = true ↔ (a.tapep = 0#64 ∨ a.tapeFl = true)

/-- R36, R78, R104, R189, R219: the direct SETS is the template SETS of its operands, for the registers with rules of their own too. -/
def Claims.DirectSetsWritesSpecialRegisters : Prop :=
  ∀ (a idx : BitVec 6) (s : State), let o := dirX (sreg idx) (sreg a) 0#8 0#4 0#22 0#5
    issues 0xDE o false s = true →
    (idx.toNat < 0x20 → readOnly idx.toNat = false → idx ≠ 0x0B#6 → idx ≠ 0x11#6 → idx ≠ 0x12#6 → idx ≠ 0x17#6 →
      exec (.setsDirect a idx) s = .next (issued 0xDE o s (nextBeat o s [.spec idx (s.core.a.rs a)]))) ∧
    (idx.toNat < 0x20 → readOnly idx.toNat = true →
      exec (.setsDirect a idx) s = .next (trapped s 0x13 (BitVec.ofNat 64 (512 + 256 + idx.toNat)))) ∧
    (0x20 ≤ idx.toNat → exec (.setsDirect a idx) s =
      .next (trapped s 0x13 (BitVec.ofNat 64 ((if idx.toNat = 0x20 then 2 else 0) * 512 + 256 + idx.toNat)))) ∧
    (idx = 0x0B#6 → exec (.setsDirect a idx) s = .next (issued 0xDE o s { nextBeat o s [.spec idx (s.core.a.rs a)] with
      post := fun c => { c with tombPc := s.core.pc } })) ∧
    (idx = 0x11#6 ∨ idx = 0x12#6 → s.core.a.adjmode ≠ 0#2 → exec (.setsDirect a idx) s = .next (trapped s 0x0C 4#64)) ∧
    (idx = 0x12#6 → s.core.a.adjmode = 0#2 → s.core.a.tapeFlushed = false → exec (.setsDirect a idx) s = .next (trapped s 0x0C 5#64)) ∧
    (idx = 0x11#6 ∨ (idx = 0x12#6 ∧ s.core.a.tapeFlushed = true) → s.core.a.adjmode = 0#2 →
      exec (.setsDirect a idx) s = .next (issued 0xDE o s (nextBeat o s [.spec idx (s.core.a.rs a)]))) ∧
    (idx = 0x17#6 → s.core.drained = true → heldClash s o.slot = none → exec (.setsDirect a idx) s =
      .next (issued 0xDE o s { nextBeat o s [.spec idx (s.core.a.rs a)] with ckpt := true })) ∧
    (idx = 0x17#6 → s.core.drained = false → exec (.setsDirect a idx) s = .next s)

/-! ## Dictionary, adjoint, checkpoint -/

/-- R36, R165, R168 to R173: DSET stores a template that passes its checks and reports the code, DGET reads an entry, DSEL selects the
bank of later bundles, FFENCE makes changes visible to the next bundle; template and direct forms alike. -/
def Claims.DictionaryOperations : Prop :=
  ∀ (d : Bool) (o0 : TOp) (s : State) (a : BitVec 6) (bank : BitVec 1) (n8 : BitVec 8),
    let pickN := fun (o : TOp) (imm : BitVec 8) => if o.md.getLsbD 1 then (s.core.a.rs (regN o.sb)).setWidth 8 else imm
    (let o := if d then dirX n8 (sreg a) 0#8 0#4 0#22 (bankMd bank) else o0
     let n := pickN o o.dst
     let code := if n = 0#8 then 10 else checkTemplate (srcA s.core.a o)
     let entry := if code = 0 then some (srcA s.core.a o) else none
     issues 0xE1 o (!d) s = true → exec (if d then .dsetDirect a bank n8 else .dset o) s =
      .next (issued 0xE1 o s { nextBeat o s [.dset (o.md.getLsbD 0) n entry code] with changes := [.entry (o.md.getLsbD 0) n entry] })) ∧
    (let o := if d then dirX (sreg a) n8 0#8 0#4 0#22 (bankMd bank) else o0
     let n := pickN o o.sa
     let x : Word64 := if n = 0#8 then 0#64 else (s.core.dict.toList.getD (dictIx (o.md.getLsbD 0) n.toNat) none).getD (BitVec.allOnes 64)
     issues 0xE2 o (!d) s = true → exec (if d then .dgetDirect a bank n8 else .dget o) s =
      .next (issued 0xE2 o s (oneResult s o (some .sl) (beatsOf s .sl)
        [.s (regN o.dst) x true (if o.md.getLsbD 1 then taintOf s.core.a o.sb else 0)] 0#8))) ∧
    (let o := if d then dirX 0#8 0#8 0#8 0#4 0#22 (bankMd bank) else o0
     issues 0xE3 o (!d) s = true → exec (if d then .dselDirect bank else .dsel o) s =
      .next (issued 0xE3 o s { nextBeat o s [.dsel (o.md.getLsbD 0)] with changes := [.bank (o.md.getLsbD 0)] })) ∧
    (let o := if d then dirX 0#8 0#8 0#8 0#4 0#22 0#5 else o0
     issues 0xE4 o (!d) s = true → exec (if d then .ffenceDirect else .ffence o) s =
      .next (issued 0xE4 o s { ffence := true }))

/-- R169: DLD of an aligned, readable image starts the load into the bank that is not selected: in memory and in the flat space it asks other
modules for what they hold of it; in the own scratchpad it reads the image at issue and completes at issue + 64, in another core's it reads
at issue + 4 and completes at issue + 68. -/
def Claims.DictionaryLoadStarts : Prop :=
  ∀ (d : Bool) (o0 : TOp) (s : State) (r : BitVec 6),
    let o := if d then dirX 0#8 (sreg r) 0#8 0#4 0#22 0#5 else o0
    let i := if d then .dldDirect r else .dld o
    let a := (srcA s.core.a o).toNat
    let at_ := (List.range 2048).map (fun i => s.locOf s.core (a + i))
    let start := fun (readAt done : Option Nat) (ls : List Loc) (bs : List Byte) (bad : Bool) => issued 0xE0 o s
      { post := fun c => { c with dld := some ⟨!s.core.sel, s.beat, readAt, done, a, ls, bs, bad, [], none,
          if memAt a then (match s.core.held? a with | some t => t.bad | none => []) else [], taintOf s.core.a o.sa⟩ }
        spost := fun t => t.askBytes t.core dldId a none (ls.filter Loc.away) }
    issues 0xE0 o (!d) s = true → stackTest s.core.a o.sa a = none → a % 2048 = 0 →
    (∀ ls, s.core.timetabled = false → pathOf s.core a = .priv → imageLocs s s.core a = .ok ls →
      exec i s = .next (start none none ls [] false)) ∧
    (s.core.timetabled = false → pathOf s.core a = .flat → a / 2 ^ 39 % 65536 ≤ bits s.core.rankid.toNat 16 16 →
      exec i s = .next (start none none at_ [] false)) ∧
    ((s.banksOf s.core.pclus (winCore a)).mode (winIn a / 0x10000) = 0 → fillTest (seen 0xE0 o s) [(a, 2048)] = none →
      (pathOf s.core a = .own → s.windowHit s.core.pclus (winCore a) (winIn a / 0x10000) s.beat s.beat = false →
        exec i s = .next (start (some s.beat) (some (s.beat + 64)) [] (at_.map (fun l => s.spadSee s.core s.beat l))
          ((List.range 16).any (fun k => s.blockPoisoned s.core.pclus (winCore a) (winIn a + 128 * k))))) ∧
      (∀ n, pathOf s.core a = .clus n →
        s.windowHit s.core.pclus (winCore a) (winIn a / 0x10000) (s.beat + 4) (s.beat + 4) = false →
        exec i s = .next (start (some (s.beat + 4)) (some (s.beat + 68)) at_ [] false)))

/-- R158, R159, R169, R236: what stops a DLD: a stack address below STKLO, a memory image in timetabled code, an address outside the address
space or unmapped, a failed translation or permission, a bank that is not in SPAD mode, an address that is no multiple of 2,048. -/
def Claims.DictionaryLoadFaults : Prop :=
  ∀ (d : Bool) (o0 : TOp) (s : State) (r : BitVec 6),
    let o := if d then dirX 0#8 (sreg r) 0#8 0#4 0#22 0#5 else o0
    let i := if d then .dldDirect r else .dld o
    let a := (srcA s.core.a o).toNat
    let aux := fun (b d : Nat) => BitVec.ofNat 64 (b % 2 ^ 56 * 256 + d)
    let window := pathOf s.core a = .own ∨ ∃ n, pathOf s.core a = .clus n
    let mode := (s.banksOf s.core.pclus (winCore a)).mode (winIn a / 0x10000)
    issues 0xE0 o (!d) s = true →
    (s.core.timetabled = true → pathOf s.core a = .priv ∨ pathOf s.core a = .flat → exec i s = .next (trapped s 0x10 (aux a 1))) ∧
    ((s.core.timetabled = false ∨ window) → (o.sa = 61#8 ∨ o.sa = 63#8) → a < s.core.a.stklo.toNat → a < 2 ^ 56 →
      exec i s = .next (trapped s 0x0D (aux a 1))) ∧
    (stackTest s.core.a o.sa a = none →
      (pathOf s.core a = .out → exec i s = .next (trapped s 0x07 (aux a 0x71))) ∧
      (pathOf s.core a = .unmapped → exec i s = .next (trapped s 0x08 (aux a 9))) ∧
      (window → mode ≠ 0 → exec i s = .next (trapped s 0x08 (aux a 2))) ∧
      (window → mode = 0 → a % 2048 ≠ 0 → exec i s = .next (trapped s 0x0E (aux a 7))) ∧
      (s.core.timetabled = false → pathOf s.core a = .priv →
        (∀ c k b, imageLocs s s.core a = .error (.fault c k b) → exec i s = .next (trapped s c (aux b k))) ∧
        (∀ b f, imageLocs s s.core a = .error (.trans b f) → exec i s = .next (trapped s 0x07 (auxTrans b f))) ∧
        (∀ b, imageLocs s s.core a = .error (.miss b) → exec i s = .next s) ∧
        (∀ ls, imageLocs s s.core a = .ok ls → a % 2048 ≠ 0 → exec i s = .next (trapped s 0x0E (aux a 7)))) ∧
      (s.core.timetabled = false → pathOf s.core a = .flat →
        (bits s.core.rankid.toNat 16 16 < a / 2 ^ 39 % 65536 → exec i s = .next (trapped s 0x07 (aux a 0x76))) ∧
        (a / 2 ^ 39 % 65536 ≤ bits s.core.rankid.toNat 16 16 → a % 2048 ≠ 0 → exec i s = .next (trapped s 0x0E (aux a 7)))))

/-- R169: when the last byte of an image in memory is there the DLD completes 64 beats later; the image in another core's scratchpad is read
after the stores of its read beat; at the completion entries replace the bank and the report is written, poison making every word
refused. -/
def Claims.DictionaryLoad : Prop :=
  (∀ (s : State) (d : Dld) (u : Bool), s.core.dld = some d → d.whole = true →
    s.core.pclus < 32 → s.core.pcore < 128 → (∀ r ∈ s.core.reqs, r.id ≠ dldId) →
    ∃ t d', exec (.variableLoadReply (dldId * 4096 + coreNo s.core) u) s = .next t ∧
      (t.core.dld = some d' ∧ d'.bank = d.bank ∧ d'.done = some (s.beat + 64) ∧
        d'.bytes.length = d.locs.length ∧ (u = true → d'.poisoned = true)) ∧ t.mem = s.mem) ∧
  (∀ (s : State) (d : Dld), s.core.dld = some d → d.readsAt s.beat = true → s.duePerfs = [] → s.dueReqs = [] → s.others = [] →
    ∃ t, exec .storePerform s = .next t ∧ t.mem = s.mem ∧ t.core.dld = some { d with
      bytes := d.locs.map (fun l => (s.ownByte s.core d.taint d.psn d.got (s.ownEarlier s.core d.issue) l).1)
      poisoned := d.locs.any (fun l => (s.ownByte s.core d.taint d.psn d.got (s.ownEarlier s.core d.issue) l).2) }) ∧
  (∀ (s : State) (d : Dld) (b : Nat), s.core.pclus < 32 → s.core.pcore < 128 → s.core.dld = some d → d.done = some b → d.failed = none →
    b ≤ s.beat →
    ∃ t, exec .dldCompletion s = .next t ∧ t.core.dld = none ∧ t.core.lbank = d.bank ∧
      (∀ i < 512, ¬(dictIx d.bank 1 ≤ i ∧ i < dictIx d.bank 256) → t.core.dict.toList.getD i none = s.core.dict.toList.getD i none) ∧
      (d.poisoned = true → t.core.ldref = 255 ∧ t.core.ldidx = 1 ∧ t.core.ldcode = 15 ∧
        ∀ i, dictIx d.bank 1 ≤ i → i < dictIx d.bank 256 → t.core.dict.toList.getD i none = none) ∧
      (d.poisoned = false → ∀ n, 1 ≤ n → n ≤ 255 →
        let w : Template := BitVec.ofNat 64 (leNat ((d.bytes.drop (8 * n)).take 8))
        t.core.dict.toList.getD (dictIx d.bank n) none = if w = 0#64 then none else if checkTemplate w = 0 then some w else none))

/-- R184 to R189: ADJM sets the mode and waits for earlier accesses; ADJLD delivers the address of an adjoint cell; ADJCLR empties the
tape when the mode is off, and faults otherwise; TAPEFL sends the tape bytes that are not home. (That they go as stores of the core,
performed three beats later, and which accesses ADJM counts, are log 32; a differentiable page behind a TIER 2 leaf is log 31.) -/
def Claims.AdjointInstructions : Prop :=
  ∀ (o : TOp) (s : State),
    (issues 0xE5 o true s = true → (s.core.timetabled = true → s.adjBusy s.core (s.beat + 1) = false) →
      ∃ t, exec (.adjm o) s = .next t ∧ t.core.a.adjmode = o.md.setWidth 2 ∧ t.core.waits = [.adj]) ∧
    (∀ g : Reg, let x := if o.lk = 1#4 then addrOf (srcA s.core.a o) (litS o) else addrOf (srcA s.core.a o) 0#64
      issues 0xE6 o true s = true → pathOf s.core x = .priv → s.regionOf s.core (wrap 56 x) = .ok g → g.d = true →
      exec (.adjld o) s = .next (issued 0xE6 o s (oneResult s o (some .sl) (beatsOf s .sl)
        [.s (regN o.dst) (BitVec.ofNat 64 ((s.core.a.adjoff.toNat + (if g.fmt = 2 then 2 else 1) * wrap 56 x) % 2 ^ 56)) true
          (taintOf s.core.a o.sa)] 0#8))) ∧
    (∀ t : Tlb, let x := if o.lk = 1#4 then addrOf (srcA s.core.a o) (litS o) else addrOf (srcA s.core.a o) 0#64
      issues 0xE6 o true s = true → pathOf s.core x = .priv → s.core.held? (wrap 56 x) = some t → t.tier = 2 →
      (t.d = true → exec (.adjld o) s = .next (issued 0xE6 o s (oneResult s o (some .sl) (beatsOf s .sl)
        [.s (regN o.dst) (BitVec.ofNat 64 ((s.core.a.adjoff.toNat + (if t.fmt = 2 then 2 else 1) * wrap 56 x) % 2 ^ 56)) true
          (taintOf s.core.a o.sa)] 0#8))) ∧
      (t.d = false → exec (.adjld o) s = .next (trapped s 0x0C (BitVec.ofNat 64 (wrap 56 x % 2 ^ 56 * 256 + 7))))) ∧
    (issues 0xE7 o true s = true → s.core.a.adjmode = 0#2 → exec (.adjclr o) s = .next (issued 0xE7 o s
      (nextBeat o s [.tapeClear]))) ∧
    (issues 0xE7 o true s = true → s.core.a.adjmode ≠ 0#2 → exec (.adjclr o) s = .next (trapped s 0x0C 6#64)) ∧
    (∀ ls : List Loc, issues 0xE8 o true s = true → s.core.timetabled = false → s.core.a.tape.length ≤ s.core.a.tapep.toNat →
      s.core.a.tapeHome ≤ s.core.a.tapep.toNat → s.tapeLocs s.core true s.core.a.unhomed.1 s.core.a.tapep.toNat = .ok ls →
      ∃ t, exec (.tapefl o) s = .next t ∧ t.core.waits = [.tapefl] ∧ t.core.a.tapeFl = true ∧
        (ls = [] → t.perfs = s.perfs ∧ t.core.a.tapeHome = s.core.a.tapeHome) ∧
        (ls ≠ [] → t.core.a.tapeHome = s.core.a.tapep.toNat ∧
          ∃ p, t.perfs = s.perfs ++ [p] ∧ p.due = s.beat + 3 ∧ p.ws = wholeBytes ls s.core.a.unhomed.2))

/-- R178: the record of a forward store: a scalar one holds the old bytes, zero-extended, and the header; a vector one the old bytes of the span
with those of inactive lanes zero, the lane mask and the header. -/
def Claims.TapeRecords : Prop :=
  ∀ (r : Req) (old : Nat → Byte), r.addr < 2 ^ 56 →
    let x := recordOf r old
    (isVecMem r.opc = false → x.length = 16 ∧
      leNat (x.drop 8) = (if r.o.t = .bf16 then 1 else if r.o.t = .c32 then 3 else 2) * 2 ^ 60 + 2 ^ 56 + r.addr ∧
      ∀ i < 8, x[i]? = some (if i < r.o.t.width / 8 then old (r.addr + i) else 0#8)) ∧
    (isVecMem r.opc = true → x.length = 144 ∧
      leNat (x.drop 136) = (if r.o.t = .bf16 then 6 else 7) * 2 ^ 60 + 2 * 2 ^ 56 + r.addr ∧
      leNat ((x.drop 128).take 8) = r.mask.toNat ∧
      ∀ i < 128, x[i]? = some (if ∃ el ∈ r.elems, el.addr ≤ r.addr + i ∧ r.addr + i < el.addr + el.locs.length then old (r.addr + i) else 0#8))

/-- R176: the cell of the element at address x stands at (ADJOFF + f x) mod 2^56, with f = 2 for BF16 and 1 otherwise, and is F32, or C32 for a C32
element. -/
def Claims.AdjointCells : Prop :=
  ∀ (e : Env) (o : TOp) (els cells : List Elem), (o.t = .f32 ∨ o.t = .bf16 ∨ o.t = .c32) → cellsOf e o els = .ok cells →
    cells.map (fun c => (c.lane, c.addr)) =
      els.map (fun el => (el.lane, (e.a.adjoff.toNat + (if o.t = .bf16 then 2 else 1) * el.addr) % 2 ^ 56)) ∧
    ∀ c ∈ cells, c.width = (if o.t = .c32 then 64 else 32)

/-- R178, R179, R180, R191: a differentiable store in forward mode that passed its checks pushes its record and waits for its perform beat; a push
past TAPEL is a tape overflow and nothing is pushed; with no room in the tape bank it waits. -/
def Claims.ForwardStoresPush : Prop :=
  ∀ p ∈ diffStores, ∀ (o : TOp) (s : State) (k : Checked), Reaches p.2 o s k → Agrees p.2 o s → k.diff = true →
    s.core.a.adjmode = 1#2 → whereOf s.core k.els = .memory →
    fillTest (seen p.2 o s) (accessRanges (seen p.2 o s) p.2 o k) = none →
    let e := seen p.2 o s
    let off := s.core.a.tapep.toNat
    let r := captured p.2 o s .store k none
    let x := recordOf r (s.oldBytes s.core r (s.ownEarlier s.core s.beat))
    (s.core.a.tapel.toNat < s.core.a.tapeb.toNat + off + x.length → (s.core.guarded = true → heldCount s.core.held < 64) →
      exec (p.1 o) s = .next (trapped s 0x0B (BitVec.ofNat 64 (k.addr % 2 ^ 56 * 256 + x.length / 16 * 16)))) ∧
    (s.core.a.tapeb.toNat + off + x.length ≤ s.core.a.tapel.toNat →
      (s.tapeBank s.core = true ∨ ∃ ls, s.tapeLocs s.core true off (off + x.length) = .ok ls) →
      (s.tapeBank s.core = true → s.core.a.tape.length + x.length ≤ 65536) →
      (s.core.guarded = true → heldCount s.core.held + entries k ≤ 64) →
      let q := { r with diff := true, tape := some off }
      exec (p.1 o) s = .next (issued p.2 o s
        { perfs := [mkPerf e o (storeBeat e p.2 k.els) (some q) [] none (entries k)]
          tape := x.length
          post := fun c => { c with
            outst := c.outst ++ [outstOf e o q]
            a := { c.a with tape := c.a.tape ++ x, tapep := c.a.tapep + BitVec.ofNat 64 x.length, tapeFl := false } }
          spost := fun t => t.askOld r off })) ∧
    (s.core.a.tapeb.toNat + off + x.length ≤ s.core.a.tapel.toNat → s.tapeBank s.core = true → 65536 < s.core.a.tape.length + x.length →
      s.core.timetabled = false →
      ∀ ls, s.tapeLocs s.core true (off - s.core.a.tape.length) (off - s.core.a.tape.length + 4096) = .ok ls → exec (p.1 o) s = .next s)

/-- R181, R191: a differentiable load in reverse mode that passed its checks reads its destination register at issue and accumulates it into the
cells of its active elements; it writes no register; a refused cell traps. -/
def Claims.ReverseLoadsAccumulate : Prop :=
  ∀ p ∈ [((.ld : TOp → Instr), 0xB0), (.vld, 0xB2)], ∀ (o : TOp) (s : State) (k : Checked), Reaches p.2 o s k → k.diff = true →
    s.core.a.adjmode = 2#2 → s.core.owed o.dst.toNat = false → s.core.awaiting o.dst.toNat = false →
    (∀ cells, cellsOf (seen p.2 o s) o k.els = .ok cells → CellsFree p.2 o s k.addr cells →
      (s.core.guarded = true → heldCount s.core.held + cells.length ≤ 64) →
      exec (p.1 o) s = .next (issued p.2 o s (cellEffects p.2 o s .accum k.addr cells))) ∧
    (∀ c d b, cellsOf (seen p.2 o s) o k.els = .error (.fault c d b) →
      exec (p.1 o) s = .next (trapped s c (BitVec.ofNat 64 (b % 2 ^ 56 * 256 + d)))) ∧
    (∀ b f, cellsOf (seen p.2 o s) o k.els = .error (.trans b f) → exec (p.1 o) s = .next (trapped s 0x07 (auxTrans b f)))

/-- R182, R190, R191: a differentiable store in reverse mode that passed its checks: with an empty tape it traps with 0x0C, detail 2; where the top
record is not its own, with detail 1; else it pops the record, reads and clears the cells into its data register, and its old bytes go back
to the primal addresses as a store of the same width. -/
def Claims.ReverseStoresPop : Prop :=
  (∀ p ∈ diffStores, ∀ (o : TOp) (s : State) (k : Checked), Reaches p.2 o s k → Agrees p.2 o s → k.diff = true →
    s.core.a.adjmode = 2#2 → (s.core.guarded = true → heldCount s.core.held < 64) →
    (∀ c d b, cellsOf (seen p.2 o s) o k.els = .error (.fault c d b) →
      exec (p.1 o) s = .next (trapped s c (BitVec.ofNat 64 (b % 2 ^ 56 * 256 + d)))) ∧
    (∀ b f, cellsOf (seen p.2 o s) o k.els = .error (.trans b f) → exec (p.1 o) s = .next (trapped s 0x07 (auxTrans b f)))) ∧
  ∀ p ∈ diffStores, ∀ (o : TOp) (s : State) (k : Checked) (cells : List Elem), Reaches p.2 o s k → Agrees p.2 o s → k.diff = true →
    s.core.a.adjmode = 2#2 → cellsOf (seen p.2 o s) o k.els = .ok cells →
    let e := seen p.2 o s
    let vec := isVecMem p.2
    let n := if vec then 144 else 16
    let tape := s.core.a.tape
    let p0 := s.core.a.tapep.toNat
    let top := tape.drop (tape.length - n)
    let own := top.drop (n - 8) = leBytes 8 ((if o.t = .bf16 then (if vec then 6 else 1) else if vec then 7 else if o.t = .c32 then 3 else 2) * 2 ^ 60 +
        (if vec then 2 else 1) * 2 ^ 56 + k.addr % 2 ^ 56) ∧
      (vec = true → leNat ((top.drop 128).take 8) = (laneMask s.core.a o).toNat)
    let deny := fun (d : Nat) => trapped s 0x0C (BitVec.ofNat 64 (k.addr % 2 ^ 56 * 256 + d))
    fillTest e (accessRanges e p.2 o { k with els := k.els ++ cells }) = none →
    ((s.core.guarded = true → heldCount s.core.held < 64) →
      (p0 = 0 → exec (p.1 o) s = .next (deny 2)) ∧
      (0 < p0 → p0 < n → exec (p.1 o) s = .next (deny 1)) ∧
      (n ≤ p0 → n ≤ tape.length → ¬own → exec (p.1 o) s = .next (deny 1))) ∧
    (n ≤ p0 → tape.length < n → s.core.timetabled = false → ∀ ls, s.tapeLocs s.core false (p0 - n) (p0 - tape.length) = .ok ls →
      exec (p.1 o) s = .next s) ∧
    (n ≤ p0 → n ≤ tape.length → own → fillTest e (accessRanges e p.2 o k) = none → CellsFree p.2 o s k.addr cells →
      let x := cellEffects p.2 o s .clear k.addr cells
      let r := { captured p.2 o s .store k none with diff := true }
      let ws := k.els.flatMap (fun el => el.locs.mapIdx (fun i l => (⟨l, 0xFF#8, top.getD (el.addr - k.addr + i) 0#8⟩ : ByteW)))
      (s.core.guarded = true → heldCount s.core.held + cells.length + k.els.length ≤ 64) →
      exec (p.1 o) s = .next (issued p.2 o s { x with
        tape := n
        perfs := x.perfs ++ [{ mkPerf e o (storeBeat e p.2 k.els) none ws none k.els.length with psn := some r.psn }]
        post := fun c => { c with
          outst := c.outst ++ [outstOf e o r]
          a := { c.a with
            tape := c.a.tape.take (c.a.tape.length - n), tapep := BitVec.ofNat 64 (c.a.tapep.toNat - n)
            tapeHome := min c.a.tapeHome (c.a.tapep.toNat - n) } } }))

/-- R176, R178, R180, R181, R182, R184, R185, R186, R187, R188, R189, R191: the adjoint instructions, and differentiable accesses in forward and
reverse mode: the record that a store pushes, the overflow of the tape, the accumulation of a load, the pop, read-and-clear and restore of a
store. (The beats of tape writes and what ADJM waits for are log 32; a differentiable page behind a TIER 2 leaf is log 31.) -/
def Obligations.AdjointOperations : Prop :=
  Claims.AdjointInstructions ∧ Claims.TapeRecords ∧ Claims.AdjointCells ∧ Claims.ForwardStoresPush ∧ Claims.ReverseLoadsAccumulate ∧
    Claims.ReverseStoresPop

/-- R218, R219: a checkpoint, by CKPT or by a SETS to CKPTS, once earlier operations are done: the shadow set takes the state, CPC the
bundle, and the held stores are released, to perform three beats later; nothing else of the core's registers changes. -/
def Claims.CheckpointTakesTheState : Prop :=
  ∀ (d : Bool) (o0 : TOp) (s : State), let o := if d then dirX 0#8 0#8 0#8 0#4 0#22 0#5 else o0
    issues 0xE9 o (!d) s = true →
    (s.core.drained = true → heldClash s o.slot = none → ∃ t, exec (if d then .ckptDirect else .ckpt o) s = .next t ∧
      t.core.shadow = { s.core.a with leave := t.core.a.leave, stage := false } ∧ t.core.cpc = s.core.pc ∧ t.core.held = [] ∧
      t.core.ckNext = ⟨t.core.pc, t.core.a.pend, []⟩ ∧
      t.perfs = s.perfs ++ s.core.held.map (fun p => { p with due := s.beat + 3, own := some p.due }) ∧
      t.core.a.s = s.core.a.s ∧ t.core.a.v = s.core.a.v ∧ t.core.a.fsw = s.core.a.fsw ∧ t.core.gm = s.core.gm ∧ t.mem = s.mem) ∧
    (s.core.drained = false → exec (if d then .ckptDirect else .ckpt o) s = .next s)

/-- R230: RTE in the handler waits for the handler's results and then returns, to the wait that the trap interrupted (R101); outside it is a
privilege trap. -/
def Claims.ReturnFromTrap : Prop :=
  ∀ (o : TOp) (s : State),
    (issues 0xEA o true s = true → s.core.hm = true →
      exec (.rte o) s = .next (issued 0xEA o s { waits := [.rte (s.beat + 1)] })) ∧
    (issues 0xEA o true s = true → s.core.hm = false → exec (.rte o) s = .next (trapped s 0x13 (BitVec.ofNat 64 (3 * 512)))) ∧
    (∀ b : Nat, s.core.waits = [.rte b] → s.waitOver s.core (.rte b) = true →
      ∃ t, exec .waitEnd s = .next t ∧ t.core.hm = false ∧ t.core.waits = s.core.frame.waits ∧
        t.core.pc = (if s.core.pcWritten then s.core.trappc else s.core.frame.npc) ∧
        t.core.a.pend = (if s.core.pcWritten then [] else s.core.frame.pend) ∧
        t.core.a.s = s.core.a.s ∧ t.core.cause = s.core.cause ∧ t.mem = s.mem)

/-! ## Memory -/

/-- R193, R194, R199, R200, R201, R209: a load with active elements that passed its checks, and is no differentiable one in reverse mode: from
the core's own scratchpad its result is in flight at once, with the bytes as the core sees them; from another core's it reads four beats
later, its own lanes at issue; in memory it becomes a request, which leaves when a byte lies outside the module. -/
def Claims.LoadsIssue : Prop :=
  ∀ p ∈ loadTable, ∀ (o : TOp) (s : State) (k : Checked), Reaches p.2 o s k → ¬(k.diff = true ∧ s.core.a.adjmode = 2#2) →
    let L := match latOf p.2 o with | some l => beatsOf s l | none => 0
    let kind : ReqKind := if p.2 = 0xC6 then .acquire (o.md.toNat % 8) else .load
    (whereOf s.core k.els = .own → Unhindered p.2 o s k true false s.beat s.beat →
      exec (p.1 o) s = .next (issued p.2 o s { flights := [loadFlight (captured p.2 o s kind k none) k.els
        (s.reqSee s.core (captured p.2 o s kind k none) (s.heldView s.core s.beat)) (s.beat + L + if p.2 = 0xB4 then 7 else 0) (latOf p.2 o)] })) ∧
    (whereOf s.core k.els = .clus → fillTest (seen p.2 o s) (accessRanges (seen p.2 o s) p.2 o k) = none →
      windowTest (seen p.2 o s) o (k.els.filter (fun el => winCore el.addr == s.core.pcore)) false s.beat s.beat = none →
      windowTest (seen p.2 o s) o (k.els.filter (fun el => winCore el.addr != s.core.pcore)) false (s.beat + 4) (s.beat + 4) = none →
      let r := captured p.2 o s kind k (some (s.beat + 4, s.beat + L + if p.2 = 0xB4 then 7 else 4))
      let own := (k.els.filter (fun el => winCore el.addr == s.core.pcore)).flatMap (fun el => el.places.map Prod.snd)
      let see := s.reqSee s.core r (s.heldView s.core s.beat)
      exec (p.1 o) s = .next (issued p.2 o s { reqs :=
        [{ r with got := own.map (fun l => (l, (see l).1)), gotBad := own.filter (fun l => (see l).2) }] })) ∧
    (whereOf s.core k.els = .memory → Unhindered p.2 o s k false false 0 0 →
      let r := { captured p.2 o s kind k none with diff := k.diff }
      exec (p.1 o) s = .next (issued p.2 o s { reqs := [r], spost := if leaves r then sendReq r .read else id }))

/-- R192, R195, R199, R201, R208, R220: a store with active elements that passed its checks and is no differentiable one under an adjoint
mode waits for its perform beat with its operands captured; one to memory is recorded as outstanding. -/
def Claims.StoresIssue : Prop :=
  ∀ p ∈ storeTable, ∀ (o : TOp) (s : State) (k : Checked), Reaches p.2 o s k →
    ¬(k.diff = true ∧ (s.core.a.adjmode = 1#2 ∨ s.core.a.adjmode = 2#2)) →
    (s.core.guarded = true → heldCount s.core.held + entries k ≤ 64) →
    let e := seen p.2 o s
    let spad := decide (whereOf s.core k.els ≠ .memory)
    let due := storeBeat e p.2 k.els
    Unhindered p.2 o s k (spad && !s.core.guarded) false due due →
    let r := { captured p.2 o s .store k (if spad then some (due, due) else none) with diff := k.diff }
    exec (p.1 o) s = .next (issued p.2 o s
      { perfs := [mkPerf e o due (some r) [] none (entries k)]
        post := if spad then id else fun c => { c with outst := c.outst ++ [outstOf e o r] } })

/-- R210, R221: STREL with its operand checked waits for its release, with the failures it covers (that one failed store which no FENCE has
reported fails every later STREL is log 13); in guarded mode it is a checkpoint fault. -/
def Claims.StoreReleaseIssues : Prop :=
  ∀ (o : TOp) (s : State) (k : Checked), Reaches 0xC7 o s k → s.core.timetabled = false →
    (s.core.guarded = true → exec (.strel o) s = .next (trapped s 0x1A 2#64)) ∧
    (s.core.guarded = false → let e := seen 0xC7 o s
    let spad := decide (whereOf s.core k.els ≠ .memory)
    let due := storeBeat e 0xC7 k.els
    Unhindered 0xC7 o s k spad false due due → ¬(k.diff = true ∧ (s.core.a.adjmode = 1#2 ∨ s.core.a.adjmode = 2#2)) →
    let r := { captured 0xC7 o s .store k (if spad then some (due, due) else none) with diff := k.diff }
    exec (.strel o) s = .next (issued 0xC7 o s
      { perfs := [{ mkPerf e o due (some r) [] (some (o.md.toNat % 8)) (entries k) with bad := s.core.failedBits }]
        post := if spad then id else fun c => { c with outst := c.outst ++ [outstOf e o r] } }))

/-- R202, R203, R205, R221: an atomic with active elements that passed its checks: in guarded mode it is a checkpoint fault; in a scratchpad it reserves its window of three beats and
performs four beats after issue (eight in another core's); in memory it is a request to its home. -/
def Claims.AtomicsIssue : Prop :=
  ∀ p ∈ atomicTable, ∀ (o : TOp) (s : State) (k : Checked), Reaches p.2 o s k →
    (s.core.guarded = true → exec (p.1 o) s = .next (trapped s 0x1A 2#64)) ∧
    (s.core.guarded = false → let L := beatsOf s .at
    let add := if whereOf s.core k.els = .clus then 4 else 0
    let spad := decide (whereOf s.core k.els ≠ .memory)
    Unhindered p.2 o s k spad true (s.beat + 2 + add) (s.beat + 4 + add) →
    let r := captured p.2 o s .atomic k (if spad then some (s.beat + 4 + add, s.beat + L + add) else none)
    exec (p.1 o) s = .next (issued p.2 o s
      { reqs := [r]
        wins := if spad then (banksTouched k.els).map (fun b => ⟨s.beat + 2 + add, b.1, b.2.1, b.2.2, s.beat⟩) else []
        spost := if !spad && leaves r then sendReq r .atomic else id }))

/-- R21, R199, R201: an access with no active element touches no memory: a store does nothing; a load or an atomic only delivers to its
inactive lanes, at the beat of its path, or, where its address lies in the memory class and it is no gather, when the reply to a request
without elements comes. Guarded mode refuses its atomics and releases all the same (R221). -/
def Claims.InactiveAccessesTouchNoMemory : Prop :=
  ∀ p ∈ loadTable ++ storeTable ++ atomicTable ++ [(Instr.strel, 0xC7)], ∀ (o : TOp) (s : State), issues p.2 o true s = true →
    activeElems p.2 o (memMask (seen p.2 o s) p.2 o) = [] →
    (s.core.guarded = true → isAtomicOp p.2 = true ∨ p.2 = 0xC7 → exec (p.1 o) s = .next (trapped s 0x1A 2#64)) ∧
    (s.core.guarded = false ∨ (isAtomicOp p.2 = false ∧ p.2 ≠ 0xC7) →
      let a := memAddr s.core.a p.2 o
      let late := (pathOf s.core a = .priv ∨ pathOf s.core a = .flat) ∧ isStoreOp p.2 = false ∧ isGather p.2 = false
      ∃ t, exec (p.1 o) s = .next t ∧ t.mem = s.mem ∧ t.perfs = s.perfs ∧ t.core.outst = s.core.outst ∧
        t.core.trap = s.core.trap ∧ t.core.a.s = s.core.a.s ∧ t.core.a.v = s.core.a.v ∧
        (¬late → t.core.reqs = s.core.reqs) ∧
        (late → t.core.reqs = s.core.reqs ++ [captured p.2 o s .load ⟨wrap 56 a, [], false⟩ none]))

/-- R192, R195, R216, R236, R392: an access with an active element whose address is refused traps at issue, in this order: a load or an atomic of
the memory class in timetabled code (0x10), a byte below STKLO through fp or sp (0x0D, detail 1), an address outside the address space
(0x07) or a failed translation, then a refusal with its detail (0x08) or a misaligned address (0x0E, detail 7); TRAPAUX holds the address of
the access, of its lowest active lane, or of the lowest byte below LO. (Where no region tells how elements count, they count by the size of
the type: log 31.) -/
def Claims.RefusedAccessesTrap : Prop :=
  ∀ p ∈ loadTable ++ storeTable ++ atomicTable ++ [(Instr.strel, 0xC7)], ∀ (o : TOp) (s : State), issues p.2 o true s = true →
    let ls := activeElems p.2 o (memMask (seen p.2 o s) p.2 o)
    let ai := memAddr s.core.a p.2 o
    let a := wrap 56 ai
    let x := accessAt p.2 o a ls (s.core.a.rv (regN o.sb))
    let at_ := s.laneAddrs s.core x
    let low := (lowest at_).getD a
    let aux := fun (b d : Nat) => BitVec.ofNat 64 (b % 2 ^ 56 * 256 + d)
    let stack := o.sa = 61#8 ∨ o.sa = 63#8
    let reads := s.core.timetabled = true ∧ readsMem p.2 = true
    ls ≠ [] → ¬(s.core.guarded = true ∧ (isAtomicOp p.2 = true ∨ p.2 = 0xC7)) → (s.core.guarded = true → heldCount s.core.held < 64) →
    (0 ≤ ai → ai < 2 ^ 56 →
      (reads → isGather p.2 = false → memAt a = true → ∀ b, at_.head? = some b → exec (p.1 o) s = .next (trapped s 0x10 (aux b 1))) ∧
      (reads → isGather p.2 = true → a < 2 ^ 55 → ∀ b, at_.find? memAt = some b → exec (p.1 o) s = .next (trapped s 0x10 (aux b 1))) ∧
      (¬reads →
        (stack → low < s.core.a.stklo.toNat →
          (∀ f, s.accessOf s.core x = .error f → (∀ b, f ≠ .miss b) → exec (p.1 o) s = .next (trapped s 0x0D (aux (low % 2 ^ 56) 1))) ∧
          (∀ xs, s.accessOf s.core x = .ok xs → fillTest (seen p.2 o s) (elemRanges (xs.map Prod.fst)) = none →
            exec (p.1 o) s = .next (trapped s 0x0D (aux (low % 2 ^ 56) 1)))) ∧
        (¬(stack ∧ low < s.core.a.stklo.toNat) →
          (∀ b f, s.accessOf s.core x = .error (.trans b f) → exec (p.1 o) s = .next (trapped s 0x07 (auxTrans b f))) ∧
          (∀ c d b, s.accessOf s.core x = .error (.fault c d b) → exec (p.1 o) s = .next (trapped s c (aux b d))) ∧
          (s.accessOf s.core x = .error .flat →
            (bits s.core.rankid.toNat 16 16 < (flatTarget s s.core a).1 → exec (p.1 o) s = .next (trapped s 0x07 (auxTrans a (s.core.rankFault a)))) ∧
            ((flatTarget s s.core a).1 ≤ bits s.core.rankid.toNat 16 16 → ∀ t, s.core.held? a = some t →
              ((readsMem p.2 = true ∧ t.r = false) ∨ (writesMem p.2 = true ∧ t.w = false) → exec (p.1 o) s = .next (trapped s 0x08 (aux a 6))) ∧
              (¬((readsMem p.2 = true ∧ t.r = false) ∨ (writesMem p.2 = true ∧ t.w = false)) → t.tier = 2 → t.d = true →
                exec (p.1 o) s = .next (trapped s 0x0C (aux a 3))))) ∧
          (∀ xs y, s.accessOf s.core x = .ok xs → xs.find? (fun z => z.2.d && !diffOk p.2 o.t z.2 z.1.addr) = some y →
            fillTest (seen p.2 o s) (elemRanges (xs.map Prod.fst)) = none → exec (p.1 o) s = .next (trapped s 0x0C (aux y.1.addr 3))) ∧
          (∀ b, s.core.timetabled = false → s.accessOf s.core x = .error (.miss b) → exec (p.1 o) s = .next s)))) ∧
    (ai < 0 ∨ 2 ^ 56 ≤ ai → ¬stack → exec (p.1 o) s = .next (trapped s 0x07 (aux a 0x71)))

/-- R192, R196, R198, R216, R242: which fault a scalar access to a region of plain data meets: an unmapped address is refused with detail 9, a bank
of the own window that is not in SPAD mode with detail 2, and in one that is an address that is no multiple of the size is misaligned. -/
def Claims.ScalarAddressFaults : Prop :=
  ∀ (s : State) (a : Nat) (t : Ty) (rd wr : Bool), a < 2 ^ 56 →
    let x : Access := ⟨a, t, rd, wr, false, [0], fun k => k, fun _ => true, false⟩
    let n := t.width / 8
    let b := s.banksOf s.core.pclus (winCore a)
    let q := b.qf (winIn a / 0x4000)
    (pathOf s.core a = .unmapped → s.accessOf s.core x = .error (.fault 0x08 9 a)) ∧
    (pathOf s.core a = .own → qFmt q = 0 → qGeom q = 0 → qDbase q = 0 → t ≠ .t6 → (t.width = 8 ∨ t.width = 16 ∨ t.width = 32 ∨ t.width = 64) →
      (b.mode (winIn a / 0x10000) ≠ 0 → a % n = 0 → s.accessOf s.core x = .error (.fault 0x08 2 a)) ∧
      (b.mode (winIn a / 0x10000) = 0 → a % n ≠ 0 → s.accessOf s.core x = .error (.fault 0x0E 7 a)) ∧
      (b.mode (winIn a / 0x10000) = 0 → a % n = 0 → ∃ xs, s.accessOf s.core x = .ok xs ∧
        xs.flatMap (fun y => y.1.locs) = (List.range n).map (fun i => .spad s.core.pclus s.core.pcore (winIn a + i))))

/-- R254, R346: an access whose checks pass but whose bytes a channel has yet to fill or a collective guards waits in free-running code and is a
timing fault of reason 3 in timetabled code; one that touches the flag of a failed collective traps with cause 0x14 and its value. -/
def Claims.UnfilledAccessesWait : Prop :=
  ∀ p ∈ loadTable ++ storeTable ++ atomicTable ++ [(Instr.strel, 0xC7)], ∀ (o : TOp) (s : State) (k : Checked), Reaches p.2 o s k →
    k.diff = false → ¬(s.core.guarded = true ∧ (isAtomicOp p.2 = true ∨ p.2 = 0xC7)) →
    (∀ r d, fillTest (seen p.2 o s) (accessRanges (seen p.2 o s) p.2 o k) = some (.wait r d) →
      (s.core.timetabled = false → exec (p.1 o) s = .next s) ∧
      (s.core.timetabled = true → s.core.guarded = false →
        exec (p.1 o) s = .next (trapped s 0x06 (BitVec.ofNat 64 (d % 2 ^ 56 * 256 + o.slot * 16 + r))))) ∧
    (∀ w, s.core.guarded = false → fillTest (seen p.2 o s) (accessRanges (seen p.2 o s) p.2 o k) = some (.fault 0x14 w) →
      exec (p.1 o) s = .next (trapped s 0x14 w))

/-- R192, R195, R196, R202, R203, R205, R216, R221, R236, R254, R346, R392: atomics issue; and what stops an atomic, a load or a store whose
address is refused, or whose bytes are not there yet. -/
def Obligations.AtomicsIssue : Prop :=
  Claims.AtomicsIssue ∧ Claims.RefusedAccessesTrap ∧ Claims.ScalarAddressFaults ∧ Claims.UnfilledAccessesWait

/-- R6, R192, R193, R198: LD.n64 of an aligned RAW word of the core's own scratchpad delivers its eight bytes, the lowest address
first; ST.n64 performs two beats later with the register of its issue. -/
def Obligations.OwnScratchpadWords : Prop :=
  ∀ (d a : BitVec 6) (off : BitVec 4) (s : State), let o := dirMem d a off
    let addr := (s.core.a.rs a).toNat + 8 * off.toNat
    OwnRaw64 s addr → (a = 61#6 ∨ a = 63#6 → s.core.a.stklo.toNat ≤ addr) →
    (issues 0xB0 o false s = true → exec (.ldDirect d a off) s = .next (issued 0xB0 o s (oneResult s o (some .sl) (beatsOf s .sl)
      [.s d (BitVec.ofNat 64 (leNat ((List.range 8).map (fun i => s.mem.get (ownKey s addr + i))))) true 0] 0#8))) ∧
    (issues 0xB1 o false s = true → s.core.guarded = false → ∃ t p r, exec (.stDirect d a off) s = .next t ∧ t.perfs = [p] ∧
      p.due = s.beat + 2 ∧ p.req = some r ∧ r.kind = .store ∧ r.d = s.core.a.rs d ∧ t.mem = s.mem ∧
      r.elems.flatMap (fun el => el.locs.map Loc.key) = (List.range 8).map (fun i => ownKey s addr + i))

/-- R213, R214, R215: CHK of equal operands has no effect; one of different operands, STG whose data and duplicate differ, and VSTG whose
active lanes differ, is a compare mismatch that reports the lowest pair of 32-bit lanes that differ, second operand above the first, and
nothing of it takes effect; it ranks before the address checks. -/
def Obligations.ComparesMismatch : Prop :=
  ∀ (o : TOp) (s : State),
    (issues 0xC8 o true s = true →
      let x : List Word32 × List Word32 := if isS o.sa then (halves (s.core.a.rs (regN o.sa)), halves (s.core.a.rs (regN o.sb)))
        else if isV o.sa then ((s.core.a.rv (regN o.sa)).toList, (s.core.a.rv (regN o.sb)).toList)
        else ([s.core.a.rp (predN o.sa)], [s.core.a.rp (predN o.sb)])
      (x.1 = x.2 → exec (.chk o) s = .next (passesBy 0xC8 o s)) ∧
      (∀ (k : Nat) (a b : Word32), x.1[k]? = some a → x.2[k]? = some b → a ≠ b → (∀ j < k, x.1[j]? = x.2[j]?) →
        exec (.chk o) s = .next (trapped s 0x0A (b ++ a)))) ∧
    (∀ (k : Nat) (a b : Word32), issues 0xC9 o true s = true → activeS s.core.a o = true →
      (halves (s.core.a.rs (regN o.dst)))[k]? = some a → (halves (s.core.a.rs (regN o.sb)))[k]? = some b → a ≠ b →
      (∀ j < k, (halves (s.core.a.rs (regN o.dst)))[j]? = (halves (s.core.a.rs (regN o.sb)))[j]?) →
      exec (.stg o) s = .next (trapped s 0x0A (b ++ a))) ∧
    (∀ k, issues 0xCA o true s = true → k < 32 → (laneMask s.core.a o).getLsbD k = true →
      laneAt (s.core.a.rv (regN o.dst)) k ≠ laneAt (s.core.a.rv (regN o.sb)) k →
      (∀ j < k, (laneMask s.core.a o).getLsbD j = true → laneAt (s.core.a.rv (regN o.dst)) j = laneAt (s.core.a.rv (regN o.sb)) j) →
      exec (.vstg o) s = .next (trapped s 0x0A (laneAt (s.core.a.rv (regN o.sb)) k ++ laneAt (s.core.a.rv (regN o.dst)) k)))

/-- R98: at the end of an active loop a bundle of one operation that is a control transfer, or that is a delay bundle of a taken one, traps
with cause 0x0E, detail 5, where the operation itself meets neither a wait nor a fault. -/
def Obligations.LoopEndFaults : Prop :=
  ∀ (i : Instr) (x : SOp) (s : State) (e : Eff) (d : Bool), sopOf i = some x → d = i.tmpl.isSome →
    s.core.timetabled = false → s.core.hm = false → s.core.guarded = false → x.o.slot ≤ 6 → (s.core.yleft ≠ 0 ∨ x.opc = 0xDB) →
    regWait s x = none → dictWait s d = false → budgetFault s.core [x] = none → stageCollision s = none →
    collision s [] [x] = none → drawCollision [x] (if drawsS x.opc x.o then 1 else 0) (if drawsC x.opc then 1 else 0) = none →
    x.run (seen x.opc x.o s) = .ok e → e.late e.perfs = none → (e.ckpt = true → heldClash s x.o.slot = none) →
    (∃ l ∈ s.core.a.loops.toList, l.active = true ∧ l.stop = s.core.pc) →
    (s.core.a.pend ≠ [] ∨ (0xD0 ≤ x.opc ∧ x.opc ≤ 0xD8)) →
    exec i s = .next (trapped s 0x0E 5#64)

/-- R192, R214, R220: STG and VSTG whose data agree (in the active lanes) and whose operand passed its checks wait for their perform beat, as
ST and VST do. -/
def Claims.GuardedStoresIssue : Prop :=
  ∀ (v : Bool) (o : TOp) (s : State) (k : Checked), let opc := if v then 0xCA else 0xC9
    Reaches opc o s k → ¬(k.diff = true ∧ (s.core.a.adjmode = 1#2 ∨ s.core.a.adjmode = 2#2)) →
    (s.core.guarded = true → heldCount s.core.held + entries k ≤ 64) →
    (if v then (∀ j < 32, (laneMask s.core.a o).getLsbD j = true →
        laneAt (s.core.a.rv (regN o.dst)) j = laneAt (s.core.a.rv (regN o.sb)) j)
      else s.core.a.rs (regN o.dst) = s.core.a.rs (regN o.sb)) →
    let e := seen opc o s
    let spad := decide (whereOf s.core k.els ≠ .memory)
    let due := storeBeat e opc k.els
    Unhindered opc o s k (spad && !s.core.guarded) false due due →
    let r := { captured opc o s .store k (if spad then some (due, due) else none) with diff := k.diff }
    exec (if v then .vstg o else .stg o) s = .next (issued opc o s
      { perfs := [mkPerf e o due (some r) [] none (entries k)]
        post := if spad then id else fun c => { c with outst := c.outst ++ [outstOf e o r] } })

/-- R211, R212, R221, R337: a FENCE with nothing outstanding completes at once: its status word is in flight to its register and FSW keeps
only its completion bit, failed copy writes counted first at scope 4; otherwise it waits; in guarded mode it is a checkpoint fault. -/
def Obligations.FenceIssues : Prop :=
  ∀ (o : TOp) (s : State), issues 0xC5 o true s = true →
    let sc := o.md.toNat % 8
    let c := if sc = 4 then (s.core.takeFails s.beat).1 else s.core
    (s.core.guarded = true → exec (.fence o) s = .next (trapped s 0x1A 2#64)) ∧
    (s.core.guarded = false → s.core.timetabled = false → s.fenceFree s.core sc s.beat = false →
      exec (.fence o) s = .next (issued 0xC5 o s { waits := [.fence sc (regN o.dst) s.beat o.slot] })) ∧
    (s.core.guarded = false → s.core.timetabled = true → s.core.uncovered s.perfs sc s.beat true = true →
      exec (.fence o) s = .next (trapped s 0x06 (BitVec.ofNat 64 (o.slot * 16 + 8)))) ∧
    (s.core.guarded = false → s.fenceFree s.core sc s.beat = true → ∃ t, exec (.fence o) s = .next t ∧
      t.core.a.fsw = c.a.fsw &&& 1#64 ∧ (s.core.fswDue = [] → t.core.failed = []) ∧
      ⟨s.beat + 1, s.beat, o.slot, none,
        [.s (regN o.dst) (fenceStatus c.a.fsw (c.failed.any (fun f => decide (f.1 < s.beat))) false) true 0], 0#8, none, none⟩ ∈ t.core.flights ∧
      (1 ≤ sc → t.core.l1 = []) ∧ (3 ≤ sc → s.beat ≤ t.core.acq))

/-! ## Events of the core and of memory -/

/-- R12, R20, R29, R73, R74: when one result is due, and the engine reads no tile, its delivery writes it and ORs its flags; s0 and p0
take no write; with a delivery fault, or an enabled flag among those it raises, nothing of it is written and the core has a trap of kind
delivery, cause 0x0F for the flag. (DIST has 8 bits: what it holds of a distance of 256 beats or more, R74 does not say.) -/
def Claims.DeliveryWritesOneResult : Prop :=
  ∀ (s : State) (f : Flight), s.core.flights = [f] → f.due ≤ s.beat → s.core.steps = [] → f.acq = none → s.core.trap = none →
    (∀ n x tn, f.ws = [.s n x true tn] → Plain s.core f → ∃ t, exec .resultDelivery s = .next t ∧ t.core.flights = [] ∧
      (∀ m, t.core.a.rs m = if m = n ∧ n ≠ 0#6 then x else s.core.a.rs m) ∧ t.core.a.v = s.core.a.v ∧ t.core.a.p = s.core.a.p ∧
      t.core.sticky = s.core.sticky ||| f.fl ∧ t.core.trap = none ∧ t.mem = s.mem) ∧
    (∀ n m x tn, f.ws = [.v n m x tn] → Plain s.core f → ∃ t, exec .resultDelivery s = .next t ∧
      (∀ k, ∀ j < 32, laneAt (t.core.a.rv k) j = if k = n ∧ m.getLsbD j = true then laneAt x j else laneAt (s.core.a.rv k) j) ∧
      t.core.a.s = s.core.a.s ∧ t.core.sticky = s.core.sticky ||| f.fl) ∧
    (∀ n m x, f.ws = [.p n m x] → Plain s.core f → ∃ t, exec .resultDelivery s = .next t ∧
      (∀ k, t.core.a.rp k = if k = n ∧ n ≠ 0#4 then (x &&& m) ||| (s.core.a.rp k &&& ~~~m) else s.core.a.rp k)) ∧
    (∀ n x on cc tn, f.ws = [.s n x on tn, .cond true cc] → Plain s.core f → ∃ t, exec .resultDelivery s = .next t ∧ t.core.a.cond = cc) ∧
    (f.fault = none → s.core.trapping f.fl = true → (∀ w ∈ f.ws, w.early = false) → (∀ w ∈ f.ws, ∀ q x, w ≠ .cqfmt q x) →
      ∃ t, exec .resultDelivery s = .next t ∧ t.core.a = s.core.a ∧ t.core.flights = [] ∧
      t.core.sticky = s.core.sticky ||| f.fl ∧
      ∃ dist < 256, (s.beat - f.issue < 256 → dist = s.beat - f.issue) ∧
        t.core.trap = some ⟨0x0F, 1, s.core.pc, BitVec.ofNat 64 (dist * 2 ^ 16 + f.slot * 2 ^ 12 + f.fl.toNat), s.beat, false⟩) ∧
    (∀ cause aux, f.fault = some (cause, aux) → (∀ w ∈ f.ws, w.early = false) → (∀ w ∈ f.ws, ∀ q x, w ≠ .cqfmt q x) →
      ∃ t, exec .resultDelivery s = .next t ∧ t.core.a = s.core.a ∧
      t.core.sticky = s.core.sticky ∧ t.core.trap = some ⟨cause, 1, s.core.pc, aux, s.beat, false⟩)

/-- R20, R103: the delivery of SETS writes its register: the bits that may be written, others kept as R72 to R75 and R233 say. -/
def Claims.DeliveryOfSets : Prop :=
  ∀ (c : Core) (t : Nat) (x : Word64),
    (c.setSpecial t 0x03 x).sticky = x.setWidth 8 ∧ (c.setSpecial t 0x03 x).a.cond = x.extractLsb' 8 4 ∧
    (c.setSpecial t 0x04 x).a.fctl = x &&& 0x3FF#64 ∧ (c.setSpecial t 0x05 x).a.mxc = x ∧
    (c.setSpecial t 0x06 x).hvec = x.toNat / 2 ^ 32 ∧ (c.setSpecial t 0x06 x).cause = c.cause ∧ (c.setSpecial t 0x06 x).hm = c.hm ∧
    ((c.setSpecial t 0x07 x).trappc = x.toNat % 2 ^ 32 ∧ (c.setSpecial t 0x07 x).pcWritten = true) ∧
    (c.setSpecial t 0x08 x).trapaux = x ∧
    (c.setSpecial t 0x0A x).a.stklo = x &&& 0x00FFFFFFFFFFFF80#64 ∧
    ((c.setSpecial t 0x0B x).a.rngt = x &&& 0x00FFFFFFFFFFF000#64 ∧ (c.setSpecial t 0x0B x).tombLoad = some (t + 32)) ∧
    (c.setSpecial t 0x0C x).a.rngc = x ∧ (c.setSpecial t 0x0D x).a.rngs = x ∧
    (c.setSpecial t 0x17 x).gm = x.getLsbD 0 ∧
    (∀ k : Fin 4, (c.setSpecial t (0x1B + k.val) x).a.lc.get k = x) ∧
    (∀ k : Fin 4, (c.setSpecial t (0x1B + k.val) 0#64).a.loops[k.val]?.map Loop.active = some false) ∧
    (c.setSpecial t 0x1F x).a.lstg = (c.a.lstg &&& ~~~(0xF#64)) ||| (x &&& 0xF#64) ∧
    (∀ idx, idx ∈ [0, 1, 2, 0x0E, 0x0F, 0x10, 0x14, 0x15, 0x16, 0x18, 0x19, 0x1A] → c.setSpecial t idx x = c)

/-- R20: the frame of delivery: a register that no due result names keeps its value, memory and the other cores keep theirs, results
not yet due stay in flight. -/
def Claims.DeliveryFrame : Prop :=
  ∀ s t : State, exec .resultDelivery s = .next t →
    let due := (s.core.flights.filter (fun f => decide (f.due ≤ s.beat))).flatMap Flight.targets
    (∀ n : BitVec 6, n.toNat ∉ due → t.core.a.rs n = s.core.a.rs n) ∧
    (∀ n : BitVec 6, 0x40 + n.toNat ∉ due → t.core.a.rv n = s.core.a.rv n) ∧
    (∀ n : BitVec 4, 0x80 + n.toNat ∉ due → t.core.a.rp n = s.core.a.rp n) ∧
    t.core.a.rs 0#6 = 0#64 ∧ t.core.a.rp 0#4 = 0xFFFFFFFF#32 ∧
    (∀ f ∈ s.core.flights, s.beat < f.due → f ∈ t.core.flights) ∧ (∀ f ∈ t.core.flights, s.beat < f.due) ∧
    t.mem = s.mem ∧ t.others = s.others ∧ t.l2 = s.l2 ∧ t.core.pc = s.core.pc ∧ t.core.shadow = s.core.shadow

/-- R192, R267, R269: STORE_PERFORM writes no home: every byte of physical memory is as before, since a store of a core to memory goes to
the L2 of its die. -/
def Claims.StoresPerformInTheL2 : Prop :=
  ∀ s t : State, s.Canonical → exec .storePerform s = .next t → ∀ k < 2 ^ 42, t.mem.get k = s.mem.get k

/-- R192, R193: one due store of a core to scratchpad writes the bytes that its operands encode and no other byte of memory, unless it raises
an enabled flag; when no store is due, a due load of the scratchpad reads, and its result is in flight. -/
def Claims.StorePerformsItsBytes : Prop :=
  (∀ (s : State) (p : Perf) (r : Req), s.Canonical → s.duePerfs = [p] → p.req = some r → r.kind = .store → p.ws = [] →
    p.release = none → p.sent = false → (∃ b, r.fixed = some b) →
    let c := s.coreAt p.clus p.core
    let els := (s.refresh c r).filter (fun el => el.fmt != fmtFlat)
    let e := encodeStore r els
    ((c.fctlNow s.beat).trapping e.2 = false) →
    (∀ el ∈ els, ∀ l ∈ el.locs, ∃ k n o, l = .spad k n o) →
    ∃ t, exec .storePerform s = .next t ∧ t.mem = (s.spadWrite e.1).mem ∧
      (∀ k, (∀ el ∈ els, ∀ l ∈ el.locs, l.key ≠ k) → t.mem.get k = s.mem.get k) ∧
      p ∉ t.perfs ∧ t.core.a.s = s.core.a.s) ∧
  (∀ (s : State) (r : Req), s.duePerfs = [] → s.dueReqs = [(s.core, r)] → r.kind = .load → s.others = [] → s.core.dld = none →
    ∃ t f, exec .storePerform s = .next t ∧ t.mem = s.mem ∧ t.core.flights = s.core.flights ++ [f] ∧ f.issue = r.issue ∧ r ∉ t.core.reqs)

/-- R195, R210, R212, R337: a STREL to memory is sent at its beat and, when it is ready, performs as a store if no failure is covered by
it; with one, it fails instead: FSW counts it and the value is not written. At scope 4 the failed copy writes that it covers are taken
first. One to the scratchpad performs among the stores of its beat, or of the next one as long as it must wait (log 32, DEDUCED). -/
def Claims.StoreReleasePerforms : Prop :=
  ∀ (s : State) (p : Perf) (sc : Nat), p.release = some sc →
    let x := if sc = 4 then (s.coreAt p.clus p.core).takeFails p.issue else (s.coreAt p.clus p.core, 0)
    let u := s.mapCore p.clus p.core (fun c => { x.1 with failed := c.failed ++ if x.2 = 0 then [] else [(0, x.2)] })
    let fails := fun (i : Instr) => ∃ t, exec i s = .next t ∧ t.mem = s.mem ∧ t.perfs.length < s.perfs.length ∧
      t = ({ u with perfs := u.perfs.filter (fun q => q != p) } : State).failStore p.clus p.core p.issue p.id (p.bad ||| x.2) 0xFFFF
        (match p.req with | some r => r.addr | none => 0)
    (s.strelDue = some p → p.locs.any Loc.isSpad = false →
      (p.bad ||| x.2 = 0 → exec .strelPerform s = .next (u.performOne p)) ∧ (p.bad ||| x.2 ≠ 0 → fails .strelPerform)) ∧
    (s.duePerfs = [p] → p.sent = false → p ∈ s.perfs →
      (p.locs.any Loc.isSpad = false → exec .storePerform s = .next (s.performOne p)) ∧
      (p.locs.any Loc.isSpad = true → s.strelReady p = false →
        exec .storePerform s = .next { s with perfs := s.perfs.map (fun q => if q = p then { p with due := s.beat + 1 } else q) }) ∧
      (p.locs.any Loc.isSpad = true → s.strelReady p = true →
        (∀ b ∈ p.banks, s.windowHit b.1 b.2.1 b.2.2 s.beat s.beat = false) →
        (p.bad ||| x.2 = 0 → exec .storePerform s = .next (u.performOne p)) ∧ (p.bad ||| x.2 ≠ 0 → fails .storePerform)))

/-- R211, R217, R336: a waiting FENCE completes when nothing that it covers is outstanding; at its time limit the rest counts as failed
and FSW says so; a load at its time limit answers with detail 13 (cause 0x08: the model's reading, log 13, DEDUCED). -/
def Claims.FenceAndLoadOutcomes : Prop :=
  (∀ (s : State) (sc : Nat) (d : BitVec 6) (t0 : Nat) (k : Nat), s.core.fenceWait = some (sc, d, t0, k) →
    (s.fenceReady s.core = true → ∃ t, exec .fenceComplete s = .next t ∧ t.core.fenceWait = none ∧
      (let c := if sc = 4 then (s.core.takeFails t0).1 else s.core
       t.core.a.fsw = c.a.fsw &&& 1#64 ∧
       ⟨s.beat + 1, t0, k, none, [.s d (fenceStatus c.a.fsw (c.failed.any (fun f => decide (f.1 < t0))) false) true 0], 0#8, none, none⟩ ∈
         t.core.flights) ∧ t.mem = s.mem) ∧
    (s.fenceReady s.core = false → exec .fenceComplete s = .next s) ∧
    (t0 + timeoutBeats ≤ s.beat → ∃ t x, exec .fenceTimeout s = .next t ∧ t.core.fenceWait = none ∧ x.getLsbD 6 = true ∧
      ⟨s.beat + 1, t0, k, none, [.s d x true 0], 0#8, none, none⟩ ∈ t.core.flights ∧
      (∀ y ∈ t.core.outst, ¬(y.issue < t0 ∧ y.owes sc = true)) ∧ t.mem = s.mem)) ∧
  (∀ (s : State) (id : Nat) (r : Req), let c := inputCore s id
    c.reqs.find? (fun r => r.id == id / 4096 && r.mayTimeOut) = some r →
    r.issue + timeoutBeats ≤ s.beat →
    exec (.loadTimeout id) s = .next (s.reply c r
      (failFlight s r 0x08 (auxAddr ((r.elems.head?.map (fun el => el.addr)).getD r.addr) 13))))

/-- R208, R212: the report of a store's outcome: success ends it; a failure sets the status bit, counts one more failed store, and keeps
port and page of the first, as the beat ends. -/
def Claims.StoreOutcomesReported : Prop :=
  (∀ (s : State) (id port : Nat) (x : Outst), (inputCore s id).outst.find? (fun x => x.id == id / 4096) = some x →
    exec (.storeFailureReport id 0 port) s = .next (s.mapCore (inputCore s id).pclus (inputCore s id).pcore
      (fun c => { c with outst := c.outst.filter (fun y => y.id != x.id) })) ∧
    (∀ status, status ≠ 0 → exec (.storeFailureReport id status port) s =
      .next (s.failStore (inputCore s id).pclus (inputCore s id).pcore x.issue x.id (fswOf status) port x.addr))) ∧
  (∀ (c : Core) (issue id b port addr : Nat), c.fswDue = [] → b < 128 → port < 2 ^ 16 →
    let f := (c.storeFailed issue id b port addr).takeFsw.a.fsw.toNat
    f % 128 = (c.a.fsw.toNat % 128) ||| b ∧
    f / 256 % 256 = min 255 (c.a.fsw.toNat / 256 % 256 + 1) ∧
    (c.a.fsw.toNat / 256 % 256 = 0 → f / 2 ^ 16 % 2 ^ 16 = port ∧ f / 2 ^ 32 = addr / 4096 % 2 ^ 32) ∧
    (c.a.fsw.toNat / 256 % 256 ≠ 0 → f / 2 ^ 16 = c.a.fsw.toNat / 2 ^ 16))

/-- R277, R278, R279: the walk of a miss leaves the core with a held translation that covers the address, or with the record of its
failure; an uncorrectable error in a table sets the bit of its page first. -/
def Claims.WalksHoldTranslations : Prop :=
  ∀ (s : State) (addr : Nat), let c := inputCore s addr
    let a := walkAddr addr
    let table := walkTable addr
    let s1 := if table = 0 then s else s.poisonPage ((table - 1) * 4096)
    (∀ t, s1.translate c.job c.rank a = .ok t → t.va ≤ a → a < t.va + t.size →
      ∃ u, exec (.translationWalk addr) s = .next u ∧ u.mem = s.mem ∧
        ((c.pclus = s.core.pclus ∧ c.pcore = s.core.pcore) → u.core.held? a = some t)) ∧
    (∀ f, s1.translate c.job c.rank a = .error f →
      ∃ u, exec (.translationWalk addr) s = .next u ∧ u.mem = s.mem ∧
        ((c.pclus = s.core.pclus ∧ c.pcore = s.core.pcore) → u.core.walkFault = some (a / 4096, f)))

/-- R269, R270, R280: a fill takes clean bytes of a sector from their homes and keeps dirty ones; a write-back takes dirty bytes home, and
touches no other byte of memory. -/
def Claims.L2FillAndWriteback : Prop :=
  ∀ (s : State) (die sector : Nat) (u : Bool), s.Canonical → die < 4 → sectorExists sector = true →
    (∃ t x, exec (.l2Fill die sector u) s = .next t ∧ t.sectorAt die (sector * 128) = some x ∧ x.valid = true ∧ t.mem = s.mem ∧
      (∀ i < 128, x.byte i = (match s.sectorAt die (sector * 128) with
        | some y => if y.dirty.getLsbD i then y.byte i else s.homeByte (sector * 128 + i)
        | none => s.homeByte (sector * 128 + i)))) ∧
    (∃ t, exec (.l2Writeback die sector u) s = .next t ∧
      (∀ x, s.sectorAt die (sector * 128) = some x → ∀ i < 128, x.dirty.getLsbD i = true →
        t.mem.get (sector * 128 + i) = x.byte i) ∧
      (∀ k, (∀ x, s.sectorAt die (sector * 128) = some x → ∀ i < 128, x.dirty.getLsbD i = true → k ≠ sector * 128 + i) →
        t.mem.get k = s.mem.get k))

/-- R183, R203, R269, R271: an atomic takes place at its home as one step: the dirty bytes of its sectors are home first, then its bytes are
read, changed and written; no byte outside the sectors changes. (Elements that lie in another module change at their own homes.) -/
def Claims.HomeAtomicIsOneStep : Prop :=
  ∀ (s : State) (id : Nat) (r : Req), let c := inputCore s id
    c.reqs.find? (fun r => r.id == id / 4096 && r.fixed.isNone && !r.held && r.isRmw && r.homed.isNone && decide (r.answer ≤ 1) &&
      !r.local_.isEmpty) = some r →
    s.Canonical → s.homeBlocked c r = false →
    ∃ t, exec (.homeAtomic id false) s = .next t ∧
      (∀ k, (∀ l ∈ r.locs, ∀ a, l = .pa a → k / 128 ≠ a / 128) → t.mem.get k = s.mem.get k) ∧
      (s.l2 = [] → r.psn = [] → (r.kind = .atomic → (c.fctlNow s.beat).trapping (rmwOf r r.local_ (fun l => match l with
          | .pa a => s.homeByte a | _ => 0#8)).2.2 = false) →
        t.mem = (s.homeWrites (rmwOf r r.local_ (fun l => match l with | .pa a => s.homeByte a | _ => 0#8)).1).mem)

/-- R204: the new word of each atomic on 64-bit and 32-bit integers. -/
def Claims.AtomicNewWords : Prop :=
  ∀ (r : Req) (el : Elem) (k m : Nat), (r.o.t = .n64 ∨ r.o.t = .i64) → el.width = 64 → m < 2 ^ 64 → r.opc ≠ 0xC4 →
    let b := r.b.toNat
    let d := r.d.toNat
    let new := (atomicNew r el k m).1
    (r.opc = 0xB8 → new = (m + b) % 2 ^ 64) ∧
    (r.opc = 0xBA → BitVec.ofNat 64 new = regInt r.o.t (min (readInt r.o.t (BitVec.ofNat 64 m)) (readInt r.o.t r.b))) ∧
    (r.opc = 0xBB → BitVec.ofNat 64 new = regInt r.o.t (max (readInt r.o.t (BitVec.ofNat 64 m)) (readInt r.o.t r.b))) ∧
    (r.opc = 0xBC → BitVec.ofNat 64 new = BitVec.ofNat 64 m &&& r.b) ∧ (r.opc = 0xBD → BitVec.ofNat 64 new = BitVec.ofNat 64 m ||| r.b) ∧
    (r.opc = 0xBE → BitVec.ofNat 64 new = BitVec.ofNat 64 m ^^^ r.b) ∧ (r.opc = 0xBF → new = b) ∧
    (r.opc = 0xC0 → new = if m = d then b else m) ∧
    (r.opc = 0xC1 → new = if b / 2 ^ 32 > m / 2 ^ 32 then b else m) ∧
    (r.opc = 0xC2 → new = if m / 2 ^ 48 = d / 2 ^ 48 then (m / 2 ^ 48 + 1) % 2 ^ 16 * 2 ^ 48 + b % 2 ^ 48 else m) ∧
    (r.opc = 0xC3 → new = if m = d then (m / 2 ^ 56 + 1) % 2 ^ 8 * 2 ^ 56 + b % 2 ^ 56 else m)

/-- R194, R199, R217: the reply of a load in memory delivers its bytes, not before an earlier atomic of the core to them has taken effect; a
poisoned answer faults with cause 0x09, a refused one with cause 0x08 and its detail (the model's reading of details 10 to 13: log 13,
DEDUCED); an atomic that every home has performed delivers its old word. -/
def Claims.RepliesDeliver : Prop :=
  ∀ (s : State) (id : Nat) (r : Req) (u : Bool), let c := inputCore s id
    c.reqs.find? (fun r => r.id == id / 4096 && r.fixed.isNone && !r.held) = some r →
    let a0 := r.failAddr
    (r.answer = 9 → exec (.variableLoadReply id u) s = .next (s.reply c r (failFlight s r 0x09 (auxAddr a0 0)))) ∧
    (16 < r.answer → exec (.variableLoadReply id u) s = .next (s.reply c r (failFlight s r 0x08 (auxAddr a0 (r.answer - 16))))) ∧
    (r.answer ≤ 1 → leaves r = false → r.kind = .load → homeOwed c r = true → exec (.variableLoadReply id u) s = .next s) ∧
    (r.answer ≤ 1 → leaves r = false → r.kind = .load → homeOwed c r = false →
      ∃ t f, exec (.variableLoadReply id u) s = .next t ∧ t.mem = s.mem ∧ f.due = s.beat ∧ f.issue = r.issue ∧ f.slot = r.o.slot ∧
        ((c.pclus = s.core.pclus ∧ c.pcore = s.core.pcore) → f ∈ t.core.flights ∧ r ∉ t.core.reqs)) ∧
    (r.answer ≤ 1 → r.kind = .atomic → r.owesHome = true → exec (.variableLoadReply id u) s = .next s) ∧
    (r.answer ≤ 1 → r.kind = .atomic → r.owesHome = false →
      ∃ t f, exec (.variableLoadReply id u) s = .next t ∧ f.due = s.beat ∧ t.mem = s.mem ∧
        ((c.pclus = s.core.pclus ∧ c.pcore = s.core.pcore) → f ∈ t.core.flights ∧ r ∉ t.core.reqs))

/-- R78, R101, R173, R184, R283: waits end when what they wait for is there; the Tombola table is loaded when its beat has come; a full
Turnstile tile fires four beats later and starts its send. -/
def Claims.WaitsReloadsAndTiles : Prop :=
  (∀ (s : State) (b : Nat), s.core.waits = [.beat b] →
    (b ≤ s.beat → ∃ t, exec .waitEnd s = .next t ∧ t.core.waits = [] ∧ t.core.a = s.core.a ∧ t.core.pc = s.core.pc) ∧
    (s.beat < b → exec .waitEnd s = .next s)) ∧
  (∀ (s : State) (b : Nat) (x : Vector (BitVec 1024) 32), s.core.tombLoad = some b → b ≤ s.beat →
    s.tableAway s.core s.core.a.rngt.toNat = [] → s.readTable s.core s.core.a.rngt.toNat = .ok x →
    exec .tombolaReloadDone s = .next { s with core := { s.core with tomb := x, tombLoad := none, tombGot := [], tombBad := [] } }) ∧
  (∀ (s : State) (b : Nat) (l : Loc) (ls : List Loc), s.core.tombLoad = some b → s.tableAway s.core s.core.a.rngt.toNat = l :: ls →
    exec .tombolaReloadDone s = .next (s.askTable s.core.a.rngt.toNat (l :: ls))) ∧
  (∀ (s : State) (k : Nat) (x : TTile) (b : Nat), s.pk.tiles[k]? = some x → x.full = some b → (∀ d ∈ x.dies, d.fired = false) →
    b + 4 ≤ s.beat →
    ∃ t, exec (.turnstileFire k) s = .next t ∧
      t.pk.tiles[k]? = some { x with dies := x.dies.map (fun d => { d with fired := d.armed }) } ∧ t.core = s.core ∧ t.mem = s.mem ∧
      (∀ y ∈ t.pk.colls, y.job = x.job ∧ y.rank = x.rank ∧ y.cid = x.cid → ∀ i z, y.sends[i]? = some z → z.trig = true →
        y.slotOf i = x.xfer → z.fire = some s.beat))

/-- R222, R227, R228: the entry of a trap that takes the handler route, when its beat has come: TRAPC, TRAPPC, TRAPAUX and the frame are
written, HM is set, the pending list is emptied and the bundle at HVEC is next; in guarded mode a trap of kind issue or delivery restores
the shadow set and discards the held stores. (A reload of the Tombola table that a changed RNGT brings about may fail: R78; it first waits
for the bytes of a table in another module.) -/
def Claims.TrapEntry : Prop :=
  ∀ (s : State) (r : TrapReq), s.core.trap = some r → s.entryDue s.core r = true → s.core.handlerRoute r.cause = true →
    (∀ l ls, s.rollbackAway s.core r = l :: ls →
      exec .trapEntry s = .next (s.askTable (s.core.unwind r).a.rngt.toNat (l :: ls))) ∧
    (s.rollbackAway s.core r = [] → ∃ t, exec .trapEntry s = .next t ∧
      t.core.cause = r.cause ∧ t.core.kind = r.kind ∧ t.core.trappc = r.pc ∧ t.core.trapaux = r.aux ∧ t.core.mult = r.mult ∧
      t.core.hm = true ∧ (t.core.a.rngt = s.core.a.rngt → t.core.trap = none) ∧ t.core.a.pend = [] ∧ t.core.waits = [] ∧
      t.core.pc = s.core.hvec ∧ t.core.rb = (s.core.gm && r.kind != 2) ∧ t.mem = s.mem ∧
      (s.core.gm = false → t.core.a.s = s.core.a.s ∧ t.core.a.v = s.core.a.v ∧ t.core.a.p = s.core.a.p ∧ t.core.a.tiles = s.core.a.tiles ∧
        (r.kind ≠ 2 → t.core.frame = ⟨r.pc, s.core.a.pend, s.core.waits⟩) ∧
        (r.kind = 2 → t.core.frame = ⟨s.core.pc, s.core.a.pend, s.core.waits⟩)) ∧
      (s.core.gm = true → r.kind ≠ 2 → t.core.held = [] ∧ t.core.a.s = s.core.shadow.s ∧ t.core.a.p = s.core.shadow.p ∧
        t.core.a.tiles = s.core.shadow.tiles ∧ t.core.a.fsw = s.core.shadow.fsw ∧ t.core.frame = s.core.ckNext ∧
        (∀ i < s.core.vregs, t.core.a.v.toList.getD i lanes0 = s.core.shadow.v.toList.getD i lanes0)) ∧
      (s.core.gm = true → r.kind = 2 → t.core.held = [] ∧ t.core.cpc = r.pc ∧ t.core.shadow = s.core.a))

/-- R227, R229: which traps go to the handler: the core is not in it, the cause is not one of the firmware's, and HVEC names a bundle of
the code object other than bundle 0. -/
def Claims.HandlerRoute : Prop :=
  ∀ (c : Core) (cause : Nat), c.handlerRoute cause = true ↔
    (c.hm = false ∧ cause ≠ 0x12 ∧ cause ≠ 0x16 ∧ ¬(cause = 0x06 ∧ c.timetabled = true) ∧ 1 ≤ c.hvec ∧ c.hvec < c.ncode)

/-! ## Matrix engine and accumulator slot -/

/-- R140 to R148, R151, R152: an M operation on a free engine captures its operands and takes its steps at the beats of R141; MSTASH also
announces its 32 rows. -/
def Claims.EngineOperationsIssue : Prop :=
  ∀ (o : TOp) (s : State), s.core.engBusy ≤ s.beat →
    let a := s.core.a
    let L := beatsOf s .mx
    let go := fun (opc busy : Nat) (e : Eff) => issued opc o s { e with post := fun c => { e.post c with engBusy := s.beat + busy } }
    let stp := fun (d : Nat) (k : StepKind) => (⟨s.beat + d, s.beat + d + L, s.beat, tileN o.dst, k⟩ : EngStep)
    let A := f32s (a.rv (regN o.sa))
    let B := f32s (a.rv (regN o.sb))
    (issues 0x80 o true s = true → exec (.mop o) s = .next (go 0x80 1 { steps := [stp 0 (.accum (o.md.getLsbD 1) (o.md.getLsbD 2)
      ((List.range (packOf o.t).1).map (fun j =>
        (packed o.t (a.rv (regN o.sa)) j (if o.md.getLsbD 0 then some (msclA a.mscl j) else none),
         packed o.t (a.rv (regN o.sb)) j (if o.md.getLsbD 0 then some (msclB a.mscl j) else none)))))] })) ∧
    (issues 0x81 o true s = true → exec (.mops o) s = .next (go 0x81 6
      { steps := (List.range 6).map (fun k => stp k (.mops k (o.md.getLsbD 1) (o.md.getLsbD 2) A B)) })) ∧
    (issues 0x82 o true s = true → exec (.mopc o) s = .next (go 0x82 9 { steps := [stp 8 (.mopc (o.md.getLsbD 1) (o.md.getLsbD 2) A B)] })) ∧
    (issues 0x84 o true s = true → exec (.mrank1 o) s = .next (go 0x84 9
      { steps := [stp 8 (.accum (o.md.getLsbD 1) (o.md.getLsbD 2) [(A, B)])] })) ∧
    (issues 0x85 o true s = true → exec (.mzero o) s = .next (go 0x85 1 { steps := [stp 0 .zero] })) ∧
    (issues 0x89 o true s = true → exec (.mscale o) s = .next (go 0x89 1
      { post := fun c => { c with a := { c.a with mscl := srcA a o } } })) ∧
    (∀ off len, issues 0x86 o true s = true → tileSpan (seen 0x86 o s) o = .ok (off, len) →
      fillTest (seen 0x86 o s) [(ownAddr s.core off, len)] = none →
      s.windowHit s.core.pclus s.core.pcore (off / 0x10000) (s.beat + 2) (s.beat + 33) = false →
      exec (.mfill o) s = .next (go 0x86 34 { steps := [stp 33 (.fill [] (o.md.getLsbD 0) off)] })) ∧
    (∀ off len, issues 0x87 o true s = true → tileSpan (seen 0x87 o s) o = .ok (off, len) →
      fillTest (seen 0x87 o s) [(ownAddr s.core off, len)] = none →
      (s.core.guarded = false → s.windowHit s.core.pclus s.core.pcore (off / 0x10000) (s.beat + L + 2) (s.beat + L + 33) = false) →
      (s.core.guarded = true → heldCount s.core.held ≤ 32) →
      exec (.mstash o) s = .next (go 0x87 34
        { steps := [⟨s.beat + L + 1, s.beat + L + 1, s.beat, tileN o.dst, .stash (o.md.getLsbD 0) o.mode (seen 0x87 o s).lanes off⟩]
          perfs := (List.range 32).map (fun i => mkPerf (seen 0x87 o s) o (s.beat + L + 2 + i) none [] none 1) }))

/-- R149, R150: MUCFG with a descriptor that is acceptable as it stands two beats later loads it then; MOPV under the descriptor's registers
multiplies the unfolded columns, each element with its scale. -/
def Claims.UnfoldingOperationsIssue : Prop :=
  ∀ (o : TOp) (s : State), s.core.engBusy ≤ s.beat →
    (∀ off w, let rd := fun (i : Nat) => s.spadSee s.core (s.beat + 2) (ownLoc s.core i)
      issues 0x88 o true s = true → stackTest s.core.a o.sa (srcA s.core.a o).toNat = none →
      engAddr (seen 0x88 o s) (srcA s.core.a o) = .ok off → off % 16 = 0 →
      loadUnf (s.banksOf s.core.pclus s.core.pcore) rd off = .ok w → fillTest (seen 0x88 o s) [(ownAddr s.core off, 16)] = none →
      s.windowHit s.core.pclus s.core.pcore (off / 0x10000) (s.beat + 2) (s.beat + 2) = false →
      exec (.mucfg o) s = .next (issued 0x88 o s
        { steps := [⟨s.beat + 2, s.beat + 4, s.beat, 0#3, .ucfg off s.core.pc⟩], post := fun c => { c with engBusy := s.beat + 4 } })) ∧
    (∀ (q : Word64) (f : Fmt), let u := unfOf s.core.a.unf0.toNat s.core.a.unf1.toNat
      let b := s.banksOf s.core.pclus s.core.pcore
      issues 0x83 o true s = true → unfOk s.core.a.unf0.toNat s.core.a.unf1.toNat = true → tensorQ b u = .ok q → q = s.core.a.unfq →
      mFmt o.t = some f → Fmt.ofCode (qFmt q) = some f → fmtOk (qFmt q) (qGeom q) = true →
      let rd := fun (i : Nat) => s.spadSee s.core s.beat (ownLoc s.core i)
      let elem := fun (i j : Nat) => match u.elem (bits (srcA s.core.a o).toNat 0 32 + i) (bits (srcA s.core.a o).toNat 32 32 + j) with
        | none => (XVal.zero, [], none)
        | some n => tensorElem q rd ((tensorBase q u).getD 0 + n)
      let cols := (List.range (packOf o.t).1).map (fun j => (List.range 32).map (fun i => elem i j))
      let scales := (cols.flatten.filterMap (fun x => x.2.2)).eraseDups
      let touched := (cols.flatten.flatMap (fun x => x.2.1)).eraseDups ++ scales
      (∀ x ∈ scales, scaleOk b x = true) → fillTest (seen 0x83 o s) (touched.map (fun i => (ownAddr s.core i, 1))) = none →
      (∀ x ∈ touched, s.windowHit s.core.pclus s.core.pcore (x / 0x10000) s.beat s.beat = false) →
      exec (.mopv o) s = .next (issued 0x83 o s
        { steps := [⟨s.beat, s.beat + beatsOf s .mx + 2, s.beat, tileN o.dst, .accum (o.md.getLsbD 1) (o.md.getLsbD 2)
            ((List.range (packOf o.t).1).map (fun j => ((List.range 32).map (fun i => (elem i j).1),
              packed o.t (s.core.a.rv (regN o.sb)) j (if o.md.getLsbD 0 then some (msclB s.core.a.mscl j) else none))))⟩]
          post := fun c => { c with engBusy := s.beat + 1 } }))

/-- R143: an M operation that issues while the engine is busy, and an A operation while the A slot is, is a timing fault, and nothing of it
takes effect; TRAPAUX holds the beats left, the unit, the slot and reason 0xB. Every such operation, in timetabled code too, that has
effects when its unit is free; the withholding buffer has room for it. -/
def Obligations.BusyUnitsFault : Prop :=
  ∀ (i : Instr) (x : SOp) (s : State) (e : Eff), sopOf i = some x → issues x.opc x.o true s = true →
    heldCount s.core.held + heldStatic x.opc ≤ 64 →
    (x.opc / 16 = 8 → s.beat < s.core.engBusy →
      x.run ⟨{ s with core := { s.core with engBusy := s.beat } }, (seen x.opc x.o s).lanes, 0⟩ = .ok e →
      exec i s = .next (trapped s 0x06 (BitVec.ofNat 64 ((s.core.engBusy - s.beat) % 256 * 256 + 3 * 16 + 0xB)))) ∧
    (x.opc / 16 = 9 → s.beat < s.core.aBusy →
      x.run ⟨{ s with core := { s.core with aBusy := s.beat } }, (seen x.opc x.o s).lanes, 0⟩ = .ok e →
      exec i s = .next (trapped s 0x06 (BitVec.ofNat 64 ((s.core.aBusy - s.beat) % 256 * 256 + 128 + 7 * 16 + 0xB))))

/-- R134, R140, R141: the engine's steps: MZERO clears its tile; an outer-product step adds to each element (or to zero, under init)
the exact products of its row and column, negated under neg: the element on the grid 47 bits under the largest product (itself when every
product is zero), the sum exact, one rounding into AF48; the step becomes visible to the A slot at its beat, in engine order. -/
def Claims.EngineSteps : Prop :=
  (∀ t : Tile, stepResult t .zero = some (tile0, Ev.none)) ∧
  (∀ (t : Tile) (neg init : Bool) (prods : List (List XVal × List XVal)) (i j : Nat) (cd : Dy) (pd : List Dy), i < 32 → j < 32 →
    (if init then XVal.zero else Bin.af48.decode (tileAt t i j).toNat) = .fin cd →
    (∀ p ∈ prods, (∃ d, p.1.getD i .zero = .fin d) ∧ (∃ d, p.2.getD j .zero = .fin d)) →
    prods.map (fun p => let v := (xmul (p.1.getD i .zero) (p.2.getD j .zero)).v; if neg then v.negate else v) = pd.map XVal.fin →
    ∃ u ev, stepResult t (.accum neg init prods) = some (u, ev) ∧
      ((∀ d ∈ pd, d.m = 0) → tileAt u i j = BitVec.ofNat 48 (roundAf (dySum (cd :: pd))).pat) ∧
      (∀ ep : Int, (∃ d ∈ pd, d.m ≠ 0 ∧ d.log2 = ep) → (∀ d ∈ pd, d.m ≠ 0 → d.log2 ≤ ep) →
        tileAt u i j = BitVec.ofNat 48 (roundAf (dySum (gridRound cd (ep - 47) :: pd))).pat)) ∧
  (∀ (s : State) (c : Core) (x : EngStep), x.kind = .zero →
    (s.runStep c x).eng.get x.tile.toFin = tile0 ∧
    (s.runStep c x).flights = c.flights ++ [⟨x.visible, x.issue, 3, none, [.vis x.tile (c.order + 1) tile0, .mxc false false false false], 0#8, none, none⟩])

/-- R153 to R157, R206: the A slot: a row read rounds its elements (a `.c32` row the sum of its two rows), ARDC also clears the row, tiles spill
and fill in 32 rows, the optimiser operations write the weight and its moments, ASTAT reads a status word. -/
def Claims.AccumulatorOperationsIssue : Prop :=
  ∀ (o : TOp) (s : State), s.core.aBusy ≤ s.beat →
    let L := beatsOf s .ar
    let go := fun (opc busy : Nat) (e : Eff) => issued opc o s { e with post := fun c => { e.post c with aBusy := s.beat + busy } }
    let m := laneMask s.core.a o
    (∀ clear : Bool, let opc := if clear then 0x91 else 0x90
      let e := seen opc o s
      issues opc o true s = true → exec (if clear then .ardc o else .ard o) s = .next (go opc 1
        { flights := [⟨s.beat + L, s.beat, o.slot, some .ar,
            wrV s.core.a o (regN o.dst) (fun j => (ardLane e o j).1) (rowTaint e o) ::
              (if clear then [.tile (tileN o.sa) (if o.t = .c32 then [(rowOf e o % 16, m), (16 + rowOf e o % 16, m)] else [(rowOf e o, m)]) tile0]
               else []), laneFlags m (fun j => (ardLane e o j).2), none, none⟩] })) ∧
    (∀ off, let raw := o.ty.toNat == 0
      let len := if raw then 6144 else 4096
      (issues 0x92 o true s = true → spillSpan (seen 0x92 o s) o = .ok off → fillTest (seen 0x92 o s) [(ownAddr s.core off, len)] = none →
        (s.core.guarded = false → s.windowHit s.core.pclus s.core.pcore (off / 0x10000) (s.beat + 2) (s.beat + 33) = false) →
        (s.core.guarded = true → heldCount s.core.held ≤ 32) →
        exec (.aspill o) s = .next (go 0x92 32
          { perfs := rowPerfs (seen 0x92 o s) o (s.beat + 2) (spillRow s.core raw (s.core.a.rt (tileN o.dst)) off) })) ∧
      (issues 0x93 o true s = true → spillSpan (seen 0x93 o s) o = .ok off → fillTest (seen 0x93 o s) [(ownAddr s.core off, len)] = none →
        s.windowHit s.core.pclus s.core.pcore (off / 0x10000) (s.beat + 2) (s.beat + 33) = false → exec (.afill o) s = .next (go 0x93 32
          { steps := [⟨s.beat + 33, s.beat + 36, s.beat, tileN o.dst, .aread raw [] off⟩]
            flights := [⟨s.beat + 36, s.beat, o.slot, none,
              [.tile (tileN o.dst) ((List.range 32).map (fun i => (i, 0xFFFFFFFF#32))) tile0], 0#8, none, none⟩] }))) ∧
    (∀ p ∈ [(Instr.asgd, 0x94, 1, 0), (Instr.amom, 0x95, 1, 0), (Instr.aadam, 0x96, 4, 4)],
      let e := seen p.2.1 o s
      let d := regN o.dst
      let tn := widest (rowTaint e o :: (List.range (groupLen p.2.1)).map (fun i => s.core.a.tv.get (d + BitVec.ofNat 6 i).toFin))
      let ws := [wrV s.core.a o d (fun j => (optLane p.2.1 o e j).1) tn, wrV s.core.a o (d + 1) (fun j => (optLane p.2.1 o e j).2.1) tn,
        wrV s.core.a o (d + 2) (fun j => (optLane p.2.1 o e j).2.2.1) tn]
      issues p.2.1 o true s = true → exec (p.1 o) s = .next (go p.2.1 p.2.2.1
        { flights := [⟨s.beat + L + p.2.2.2, s.beat, o.slot, some .ar, ws.take (p.2.1 - 0x93),
            laneFlags m (fun j => (optLane p.2.1 o e j).2.2.2), none, none⟩] })) ∧
    (issues 0x97 o true s = true →
      let left := fun (b : Nat) => (b - s.beat) % 256
      let x : Word64 := match o.sb.toNat with
        | 0 => s.core.a.mscl
        | 1 => BitVec.ofNat 64 (left s.core.engBusy + left s.core.aBusy * 256)
        | 2 => BitVec.ofNat 64 ((List.range 8).foldl (fun n k => n + if s.core.tileBusy k then 2 ^ k else 0) 0)
        | 3 => s.core.a.unf0
        | _ => s.core.a.unf1
      exec (.astat o) s = .next (go 0x97 1
        { flights := [⟨s.beat + L, s.beat, o.slot, some .ar, [.s (regN o.dst) x true 0], 0#8, none, none⟩] }))

/-! ## Copy engines -/

/-- R257 to R262: the copy instructions: a chain starts on an idle or stopped channel at an aligned record, stops, continues; watermark and
state are read; range, tag and quarter registers are written one beat later; an event is popped, or zero when there is none. -/
def Claims.CopyInstructionsIssue : Prop :=
  ∀ (o : TOp) (s : State),
    let j := chanOf o
    let x := s.core.chan j
    let a := (srcA s.core.a o).toNat
    let cp := s.beat + beatsOf s .cp
    let put := fun (opc : Nat) (f : Chan → Chan) => issued opc o s { post := fun c => c.mapChan j f }
    (∀ mk ∈ [Instr.cstart, Instr.cstartIn], issues 0xA0 o true s = true →
      (stackTest s.core.a o.sa a = none → x.st = 0 ∨ x.st = 3 → a % 64 = 0 → exec (mk o) s = .next (put 0xA0 (fun y => { y with
        st := 1, fetchAt := some (a, cp), cur := none, parked := 0, stopAt := none, started := s.beat, cpAt := cp
        pendIn := if o.md.getLsbD 0 then some a else y.pendIn
        pendDone := if o.md.getLsbD 0 then none else y.pendDone }))) ∧
      (∀ w, stackTest s.core.a o.sa a = some w → exec (mk o) s = .next (trapped s 0x0D w)) ∧
      (stackTest s.core.a o.sa a = none → x.st ≠ 0 → x.st ≠ 3 → exec (mk o) s = .next (trapped s 0x08 (auxAddr a 14))) ∧
      (stackTest s.core.a o.sa a = none → x.st = 0 ∨ x.st = 3 → a % 64 ≠ 0 →
        exec (mk o) s = .next (trapped s 0x0E (auxAddr a 7)))) ∧
    (issues 0xA1 o true s = true → exec (.cappend o) s = .next (put 0xA1 (fun y =>
      if y.st = 2 then { y with st := 1, fetchAt := some (y.parked, cp), cpAt := cp } else y))) ∧
    (issues 0xA2 o true s = true → exec (.cstop o) s = .next (put 0xA2 (fun y =>
      if y.st = 1 ∨ y.st = 2 then { y with cpAt := cp, stopAt := some (match y.stopAt with | some b => min b cp | none => cp) } else y))) ∧
    (issues 0xA3 o true s = true →
      let v : Word64 := match o.sb.toNat with
        | 0 => BitVec.ofNat 64 x.wm | 1 => x.word | 2 => BitVec.ofNat 64 x.rlo | 3 => BitVec.ofNat 64 x.rhi
        | 4 => let b := s.banksOf s.core.pclus s.core.pcore
          BitVec.ofNat 64 (b.mode 0 + 4 * b.mode 1 + 16 * b.mode 2 + 64 * b.mode 3)
        | _ => BitVec.ofNat 64 (x.addr % 2 ^ 56)
      exec (.cwm o) s = .next (issued 0xA3 o s (oneResult s o (some .sa) (beatsOf s .sa) [.s (regN o.dst) v true 0] 0#8))) ∧
    (issues 0xA4 o true s = true → let hi := (s.core.a.rs (regN o.sb)).toNat
      (spadBase ≤ a → a ≤ hi → hi ≤ spadBase + 0x2000000 →
        exec (.crange o) s = .next (issued 0xA4 o s (nextBeat o s [.crange j a hi]))) ∧
      (¬(spadBase ≤ a ∧ a ≤ hi ∧ hi ≤ spadBase + 0x2000000) → exec (.crange o) s = .next (trapped s 0x08 (auxAddr a 3)))) ∧
    (issues 0xA5 o true s = true → exec (.ctag o) s = .next (issued 0xA5 o s (nextBeat o s [.ctag j (a % 256)]))) ∧
    (issues 0xA6 o true s = true → exec (.cpref o) s = .next (passesBy 0xA6 o s)) ∧
    (issues 0xA8 o true s = true → (o.md.getLsbD 0 = false →
        exec (.cqfmt o) s = .next (issued 0xA8 o s (nextBeat o s [.cqfmt (o.dst.toNat % 16) (srcA s.core.a o)]))) ∧
      (o.md.getLsbD 0 = true → exec (.cqfmtGet o) s = .next (issued 0xA8 o s (oneResult s o (some .sa) (beatsOf s .sa)
        [.s (regN o.dst) ((s.banksOf s.core.pclus s.core.pcore).qf (o.sa.toNat % 16)) true 0] 0#8)))) ∧
    (issues 0xCB o true s = true → let fl := fun (w : Word64) (acq : Option Nat) =>
        (⟨s.beat + beatsOf s .sa, s.beat, o.slot, some .sa, [wrS s.core.a o w 0], 0#8, none, acq⟩ : Flight)
      (s.core.takeEvents.events = [] ∨ activeS s.core.a o = false →
        exec (.evpop o) s = .next (issued 0xCB o s { flights := [fl 0#64 none] })) ∧
      (∀ w r, s.core.takeEvents.events = w :: r → activeS s.core.a o = true → exec (.evpop o) s = .next (issued 0xCB o s
        { flights := [fl w (some 3)], post := fun c => { c.takeEvents with events := r } })))

/-- R244: CBANK waits for its bank, whose mode then changes; a bank that leaves TAPE mode first sends the tape home. -/
def Claims.BankModeInstruction : Prop :=
  ∀ (o : TOp) (s : State), issues 0xA7 o true s = true → s.core.timetabled = false →
    let n := o.dst.toNat % 4
    let mode := o.md.toNat % 4
    (movesTape (s.banksOf s.core.pclus s.core.pcore) n mode = false → exec (.cbank o) s = .next (issued 0xA7 o s { waits := [.bank n mode] })) ∧
    (∀ ls : List Loc, movesTape (s.banksOf s.core.pclus s.core.pcore) n mode = true → s.core.a.tape.length ≤ s.core.a.tapep.toNat →
      s.core.a.tapeHome ≤ s.core.a.tapep.toNat → s.tapeLocs s.core true s.core.a.unhomed.1 s.core.a.tapep.toNat = .ok ls →
      ∃ t, exec (.cbank o) s = .next t ∧ t.core.waits = [.bank n mode] ∧
        (ls = [] → t.perfs = s.perfs ∧ t.core.a.tapeHome = s.core.a.tapeHome) ∧
        (ls ≠ [] → t.core.a.tapeHome = s.core.a.tapep.toNat ∧
          ∃ p, t.perfs = s.perfs ++ [p] ∧ p.due = s.beat + 3 ∧ p.ws = wholeBytes ls s.core.a.unhomed.2))

/-- R264, R265: BUFSWAP, once earlier operations are done, is a checkpoint and waits for its phase, in which the launch counts it; in the
handler it is a privilege trap. -/
def Claims.BufferSwapInstruction : Prop :=
  ∀ (o : TOp) (s : State), issues 0xA9 o true s = true →
    (s.core.hm = true → exec (.bufswap o) s = .next (trapped s 0x13 (BitVec.ofNat 64 (3 * 512)))) ∧
    (s.core.hm = false → s.core.drained = false → exec (.bufswap o) s = .next s) ∧
    (s.core.hm = false → s.core.drained = true → heldClash s o.slot = none → ∃ t, exec (.bufswap o) s = .next t ∧
      t.core.waits = [.phase] ∧ t.core.swapAt = some s.beat ∧ t.core.shadow = { s.core.a with leave := t.core.a.leave, stage := false } ∧ t.core.cpc = s.core.pc ∧
      t.mem = s.mem ∧ (∀ l, s.launchOf s.core.job s.core.rank = some l →
        t.launchOf s.core.job s.core.rank = some { l with swaps := l.swaps ++ [⟨s.core.coreid, s.beat⟩] }))

/-! ## Copy channels -/

/-- R247, R249, R257: the fetch of a record whose bytes are at hand: OWN = 0 parks the channel, an invalid record or an invalid unfolding
descriptor fails with status 7, a poisoned one with status 2 (of a descriptor: the model's choice, log 31); a valid one is processed from
four beats on. A head at or above 2^56 fails with status 3; a fetch waits while an atomic window is open at its bank (R193). -/
def Claims.RecordFetches : Prop :=
  ∀ (s : State) (j ch a : Nat) (f : Nat) (u : Bool) (g : CReg), OwnChan s j ch →
    let c := s.pagesFor s.core [a, a + 63]
    let x := s.core.chan j
    let as := (List.range 64).map (fun i => a + i)
    let bs := as.map (s.copyByte c x.got)
    let ws := (List.range 8).map (fun i => BitVec.ofNat 64 (leNat (((bs.map Prod.fst).drop (8 * i)).take 8)))
    let w := recF ws
    let cu := s.pagesFor c [w.udesc, w.udesc + 15, w.dst]
    let runs := fun (d : Word64 × Word64) => ∃ t r, exec (.recordFetch ch u) s = .next t ∧ (t.core.chan j).cur = some r ∧
      (t.core.chan j).fetchAt = none ∧ r.addr = a ∧ r.words = ws ∧ r.fetch = f ∧ r.base = s.beat + 4 ∧ r.chunks = w.chunks ∧
      r.nread = 0 ∧ r.ready = [] ∧ r.unf = d ∧ t.mem = s.mem
    let ends := fun (stat : Nat) => ∃ t, exec (.recordFetch ch u) s = .next t ∧ RecordEnds s t j stat
    x.st = 1 → x.cur = none → x.fetchAt = some (a, f) → f ≤ s.beat →
    (2 ^ 56 ≤ a → ends 3) ∧ (a < 2 ^ 56 → s.windowOpen c [a, a + 63] = true → exec (.recordFetch ch u) s = .next s) ∧
    (a < 2 ^ 56 → s.windowOpen c [a, a + 63] = false → s.copyReg c false a = .ok g → g.fifo = none → s.awayOf c x.got as = [] →
    ((u = true ∨ bs.any Prod.snd = true) → ends 2) ∧
    (u = false → bs.any Prod.snd = false →
      (w.own = false → ∃ t, exec (.recordFetch ch u) s = .next t ∧
        t.core.chan j = { x with st := 2, parked := a, fetchAt := none, got := [], gotAsk := 0 } ∧
        t.core.evDue = s.core.evDue ∧ t.mem = s.mem) ∧
      (w.own = true → recBad ws = true ∨ (w.acc = true ∧ s.accBad cu w = true) → ends 7) ∧
      (w.own = true → recBad ws = false → w.acc = false ∨ s.accBad cu w = false →
        (w.unf = false → runs (0#64, 0#64)) ∧
        (∀ d : CReg, w.unf = true → s.windowOpen cu [w.udesc, w.udesc + 15] = false → s.copyRefused cu false [w.udesc, w.udesc + 15] = none → s.copyReg cu false w.udesc = .ok d →
          d.fifo = none → s.awayOf cu x.got ((List.range 16).map (fun i => w.udesc + i)) = [] →
          let ds := (List.range 16).map (fun i => s.copyByte cu x.got (w.udesc + i))
          let v := fun (k : Nat) => BitVec.ofNat 64 (leNat (((ds.map Prod.fst).drop (8 * k)).take 8))
          (ds.any Prod.snd = true → ends 2) ∧
          (ds.any Prod.snd = false → unfOk (v 0).toNat (v 1).toNat = false → ends 7) ∧
          (ds.any Prod.snd = false → unfOk (v 0).toNat (v 1).toNat = true → runs (v 0, v 1))))))

/-- R250, R252: the next chunk of a record that runs is read at its beat: its bytes, or the values of its elements, with the scale
stage applied; it may be written when the stages' beats are over. A read that meets a busy bank is deferred by one beat (R245); poison
under PCK fails the record with status 2 (R251). -/
def Claims.ChunksAreRead : Prop :=
  ∀ (s : State) (j ch : Nat) (u : Bool) (r : CRec) (places : List Place), OwnChan s j ch →
    let x := s.core.chan j
    let w := recF r.words
    let c1 := s.pagesFor s.core [w.src]
    let c := s.chunkPages s.core w places
    let k := r.nread
    let as := places.flatMap (s.placeBytes c w)
    x.cur = some r → x.st = 1 → x.stopAt = none → k < r.chunks → r.base + k ≤ s.beat → r.lastRead ≠ some s.beat →
    (∀ y ∈ r.ready, s.beat < y.writeAt) →
    s.chunkPlaces c1 w (unfOf r.unf.1.toNat r.unf.2.toNat) k = .ok places → s.isFlat c1 w.src = false →
    s.fifoAt c w w.src (w.inChunk k) false = none →
    (s.portBusy ch false (banksAt as) = true → ∃ t, exec (.chunkRead ch u) s = .next t ∧
      (t.core.chan j).cur = some { r with base := r.base + 1 } ∧ t.mem = s.mem) ∧
    (s.portBusy ch false (banksAt as) = false → s.awayOf c r.far as = [] →
      let reads := fun (items : List (Nat × XVal × Nat)) (bytes : List Byte) (bad : Bool) =>
        (w.pck = true → bad = true → ∃ t, exec (.chunkRead ch u) s = .next t ∧ RecordEnds s t j 2) ∧
        (w.pck = false ∨ bad = false → ∃ t y r', exec (.chunkRead ch u) s = .next t ∧ (t.core.chan j).cur = some r' ∧
          r'.nread = k + 1 ∧ r'.ready = r.ready ++ [y] ∧ y.k = k ∧ y.items = items ∧ y.bytes = bytes ∧ y.poison = bad ∧
          y.writeAt = s.beat + w.depth ∧ t.mem = s.mem)
      (w.value = false → (∀ e, s.copyRefused c false as = some e → ∃ t, exec (.chunkRead ch u) s = .next t ∧ RecordEnds s t j e) ∧
        (s.copyRefused c false as = none →
          let bs := as.map (s.copyByte c r.far)
          reads [] (bs.map Prod.fst) (bs.any Prod.snd || r.farBad || u))) ∧
      (∀ items bad, w.value = true → s.chunkItems c w r.far none k places 0 = .ok (items, bad) →
        reads (items.map (fun it => (it.1, scaleVal w it.2.1, it.2.2))) [] (bad || r.farBad || u)) ∧
      (∀ e, w.value = true → s.chunkItems c w r.far none k places 0 = .error e →
        ∃ t, exec (.chunkRead ch u) s = .next t ∧ RecordEnds s t j e))

/-- R250, R251, R253: the oldest chunk is written: exactly the bytes of its elements in scratchpad; it leaves the channel. A write that
meets a busy bank is deferred by one beat (R245), and the later chunks with it. -/
def Claims.ChunksAreWritten : Prop :=
  ∀ (s : State) (j ch : Nat) (r : CRec) (y : Ready) (rest : List Ready), OwnChan s j ch →
    let x := s.core.chan j
    let w := recF r.words
    let c := s.writePages (s.pagesFor s.core [w.src, w.dst]) w y
    x.cur = some r → r.ready = y :: rest → y.writeAt ≤ s.beat → s.isFlat (s.pagesFor s.core [w.src, w.dst]) w.dst = false →
    s.fifoAt c w w.dst (w.inChunk y.k) true = none → s.Canonical →
    (∀ e, s.chunkOut c w (ftzOn s.core.a) y = .error e → ∃ t, exec (.chunkWrite ch) s = .next t ∧ RecordEnds s t j e) ∧
    (∀ ws push, s.chunkOut c w (ftzOn s.core.a) y = .ok (ws, push) →
      let bw := ws.map (fun v => (⟨s.locOf c v.1, v.2.1, v.2.2⟩ : ByteW))
      let banks := banksAt (ws.map Prod.fst)
      (s.portBusy ch true banks = true → ∃ t r', exec (.chunkWrite ch) s = .next t ∧ (t.core.chan j).cur = some r' ∧
        r'.ready = r.ready.map (fun z => { z with writeAt := z.writeAt + 1 }) ∧
        r'.base = (if r.nread < r.chunks then r.base + 1 else r.base) ∧ t.mem = s.mem) ∧
      (s.portBusy ch true banks = false → (∀ v ∈ bw, ∃ k n o, v.loc = .spad k n o) →
        ∃ t r', exec (.chunkWrite ch) s = .next t ∧ (t.core.chan j).cur = some r' ∧ r'.ready = rest ∧ r'.lastWrite = s.beat ∧
          t.mem = (s.spadWrite bw).mem ∧ (∀ k, (∀ v ∈ bw, v.loc.key ≠ k) → t.mem.get k = s.mem.get k)))

/-- R240, R251, R252: a record without value stages moves its bytes as they are: what it writes at its destination, or pushes into a FIFO
bank, are the bytes of the chunk, in order. -/
def Claims.PlainRecordsMoveBytes : Prop :=
  ∀ (s : State) (c : Core) (w : RecF) (ftz : Bool) (y : Ready) (ws : List (Nat × Byte × Byte)) (push : List Byte) (g : CReg),
    w.value = false → s.copyReg c true w.dst = .ok g → s.chunkOut c w ftz y = .ok (ws, push) →
    (g.fifo = none → push = [] ∧ ws = y.bytes.mapIdx (fun i b => (w.dst + 128 * y.k + i, 0xFF#8, b))) ∧
    (g.fifo ≠ none → ws = [] ∧ push = y.bytes)

/-- R240, R252, R255, R257, R259: a record completes once its last chunk is written, with an entry when EVT is set, and the channel
fetches NEXT or is idle; after 4,194,304 beats it fails with status 6; a stop takes effect when the chunks read are written. -/
def Claims.RecordsEnd : Prop :=
  ∀ (s : State) (j ch : Nat), OwnChan s j ch → let x := s.core.chan j
    (∀ r, x.cur = some r → r.nread = r.chunks → r.ready = [] → r.acks = 0 → r.lastWrite + 1 ≤ s.beat →
      ∃ t, exec (.recordComplete ch) s = .next t ∧ t.mem = s.mem ∧ (t.core.chan j).cur = none ∧
        ((recF r.words).next = 0 → (t.core.chan j).st = 0 ∧ (t.core.chan j).fetchAt = none ∧ (t.core.chan j).wm = x.rhi) ∧
        ((recF r.words).next ≠ 0 → (t.core.chan j).st = x.st ∧ (t.core.chan j).fetchAt = some ((recF r.words).next, s.beat)) ∧
        ((recF r.words).evt = false ∨ x.quiet = true → t.core.evDue = s.core.evDue) ∧
        ((recF r.words).evt = true → x.quiet = false → t.core.evDue = s.core.evDue ++ [(0, j, r.addr)])) ∧
    (∀ r, x.cur = some r → r.nread < r.chunks ∨ r.ready ≠ [] ∨ r.acks ≠ 0 ∨ s.beat < r.lastWrite + 1 → exec (.recordComplete ch) s = .next s) ∧
    (∀ r, x.st = 1 → x.cur = some r → r.fetch + 4194304 ≤ s.beat → ∃ t, exec (.copyRecordTimeout ch) s = .next t ∧ RecordEnds s t j 6) ∧
    (∀ a f, x.st = 1 → x.cur = none → x.fetchAt = some (a, f) → f + 4194304 ≤ s.beat →
      ∃ t, exec (.copyRecordTimeout ch) s = .next t ∧ RecordEnds s t j 6) ∧
    (∀ c : Core, ∀ stat a, c.evDue = [(stat, j, a)] →
      (c.events.length < 32 → c.takeEvents.events = c.events ++ [eventWord stat j c.ovf a] ∧ c.takeEvents.ovf = false) ∧
      (32 ≤ c.events.length → c.takeEvents.events = c.events ∧ c.takeEvents.ovf = true)) ∧
    (∀ b, x.stopAt = some b → b ≤ s.beat → (x.st = 1 ∨ x.st = 2) → (∀ r, x.cur = some r → r.ready = [] ∧ r.acks = 0) →
      ∃ t, exec (.cstopEffect ch) s = .next t ∧ RecordEnds s t j 1) ∧
    (∀ b, x.stopAt = some b → s.beat < b → exec (.cstopEffect ch) s = .next s)

/-- R240: a chunk that waited on a FIFO bank proceeds in this beat: the beats it waited fall on the later chunks of its record. -/
def Claims.FifoChunksProceed : Prop :=
  ∀ (s : State) (j ch : Nat) (r : CRec) (y : Ready) (rest : List Ready) (k b n : Nat), OwnChan s j ch →
    let w := recF r.words
    let c := s.pagesFor s.core [w.src, w.dst]
    (s.core.chan j).cur = some r → r.ready = y :: rest → r.nread = r.chunks → s.fifoAt c w w.dst (w.inChunk y.k) true = some (k, b, n) →
    y.writeAt ≤ s.beat →
    (((s.banksOf c.pclus k).fifo b).length + n ≤ 65536 → ∃ t r', exec (.fifoChunkRelease ch) s = .next t ∧ (t.core.chan j).cur = some r' ∧
      r'.ready = r.ready.map (fun z => { z with writeAt := z.writeAt + (s.beat - y.writeAt) }) ∧ t.mem = s.mem ∧ t.banks = s.banks) ∧
    (65536 < ((s.banksOf c.pclus k).fifo b).length + n → ∃ t r', exec (.fifoChunkRelease ch) s = .next t ∧
      (t.core.chan j).cur = some r' ∧ r'.ready = r.ready.map (fun z => { z with writeAt := z.writeAt + 0 }))

/-- R244: a bank that is quiet switches its mode; its FIFO is empty, its L1 lines are gone; the core issues again two beats later;
only the bytes of a bank that becomes SPAD turn indeterminate. -/
def Claims.BankSwitches : Prop :=
  ∀ (s : State) (n m : Nat), s.Canonical → s.bankDue s.core = some (n, m) → n < 4 → m < 4 →
    let b := s.banksOf s.core.pclus s.core.pcore
    let lo := spadKey s.core.pclus s.core.pcore (n * 0x10000)
    ∃ t, exec .bankModeSwitch s = .next t ∧ s.beat + 2 ≤ t.core.readyAt ∧ (.bank n m) ∉ t.core.waits ∧
      (let b' := t.banksOf s.core.pclus s.core.pcore;
        b'.mode n = m ∧ (∀ k < 4, k ≠ n → b'.mode k = b.mode k ∧ b'.fifo k = b.fifo k) ∧ (b.mode n ≠ m → b'.fifo n = []) ∧ b'.qfmt = b.qfmt) ∧
      (∀ k, ¬(b.mode n ≠ m ∧ m = 0 ∧ lo ≤ k ∧ k < lo + 0x10000) → t.mem.get k = s.mem.get k) ∧
      (b.mode n ≠ m → ∀ l ∈ t.core.l1, l.bank ≠ n)

/-! ## Buffer phases -/

/-- R264, R265: a phase commits: NUM rises by one and NOC falls in every core of the footprint, the input chain of the phase becomes the
current one, the withheld copy writes leave; each core of free-running code goes on two beats later, one of timetabled code that came
early is a timing fault. -/
def Claims.PhaseCommits : Prop :=
  ∀ (s : State) (l : Launch), s.commitDue = some l →
    (∃ t, exec .bufferPhaseCommit s = .next t ∧ t.mem = s.mem ∧
      (∀ x ∈ t.pk.launches, x.job = l.job → x.rank = l.rank → x.committed = l.committed + 1 ∧ x.commitAt = s.beat ∧ x.swaps = [] ∧ x.cancel = none)) ∧
    (∀ (c : Core) (u add : Nat) (swap : Option Nat), let d := c.commitPhase u add swap
      d.phase = phaseNext c.phase ∧ d.withheld = [] ∧ d.chan0.curIn = c.chan0.pendIn ∧ d.chan0.pendIn = none ∧
      d.chan1.curIn = c.chan1.pendIn ∧ d.chan1.pendIn = none ∧ d.evSaved = c.takeEvents.events ∧ d.a = c.a ∧
      (∀ b, swap = some b → .phase ∉ d.waits ∧
        (c.timetabled = false → d.readyAt = max (b + 1) (u + 2)) ∧
        (c.timetabled = true → b = u → d.readyAt = u + 2 + add) ∧
        (c.timetabled = true → b ≠ u → c.trap = none → d.trap = some ⟨0x06, 0, c.pc, auxTiming 7 0 0, u, false⟩)) ∧
      (swap = none → d.waits = c.waits ∧ d.readyAt = c.readyAt)) ∧
    (∀ w : Word64, phaseNum (phaseNext w) = (phaseNum w + 1) % 2 ^ 32 ∧ phaseNoc (phaseNext w) = false ∧
      (phaseNext w).toNat / 2 ^ 40 = w.toNat / 2 ^ 40 % 2 ^ 16)

/-- R266: a cancellation starts at the trap, rolls every core of the footprint back once eight beats are over and the cores have
stopped, and runs the input chains again; PHASE counts it with its cause and takes NOC. -/
def Claims.PhasesCancel : Prop :=
  (∀ (s : State) (l : Launch) (r : TrapReq), s.cancelDue = some (.start l r) →
    exec .phaseCancel s = .next (s.setLaunch { l with cancel := some ⟨r.cause, r.beat, false⟩ })) ∧
  (∀ (s : State) (l : Launch) (k : Cancel), s.cancelDue = some (.rollback l k) → l.timetabled = false →
    ∃ t, exec .phaseCancel s = .next t ∧ t.mem = s.mem ∧
      (s.core.ofRank l.job l.rank = true → t.core.phase = phaseCancelled s.core.phase k.cause ∧ t.core.withheld = [] ∧
        t.core.events = s.core.evSaved ∧
        (s.core.issuing = true → (s.core.shadow.rngt = s.core.a.rngt → t.core.trap = none) ∧ t.core.pc = s.core.ckNext.npc ∧ t.core.a.pend = s.core.ckNext.pend ∧
          t.core.waits = [.phase] ∧ t.core.a.s = s.core.shadow.s ∧ t.core.a.p = s.core.shadow.p ∧ t.core.a.tiles = s.core.shadow.tiles))) ∧
  (∀ (s : State) (l : Launch) (k : Cancel), s.cancelDue = some (.go l k) → l.timetabled = false →
    ∃ t, exec .phaseCancel s = .next t ∧ t.mem = s.mem ∧
      (s.core.ofRank l.job l.rank = true → .phase ∈ s.core.waits → .phase ∉ t.core.waits ∧ t.core.readyAt = s.beat + 2)) ∧
  (∀ (x : Chan) (since r : Nat) (h : Nat), x.curIn = some h → let y := x.again since r
    y.st = 1 ∧ y.fetchAt = some (h, r + 1) ∧ y.cur = none ∧ y.quiet = true ∧ y.pendIn = none) ∧
  (∀ (w : Word64) (k : Nat), k < 256 → phaseNum (phaseCancelled w k) = phaseNum w ∧ phaseNoc (phaseCancelled w k) = true ∧
    (phaseCancelled w k).toNat / 2 ^ 40 % 256 = min 255 (w.toNat / 2 ^ 40 % 256 + 1) ∧ (phaseCancelled w k).toNat / 2 ^ 48 % 256 = k)

/-! ## Bundles -/

/-- R16, R46, R48, R227: a bundle whose slots expand issues its operations together, in ascending slot position; one that does not is a
trap of kind issue with the fault's cause, and nothing of it takes effect, once it has nothing to wait for (R166, R392 step 1). -/
def Claims.BundlesIssueTogether : Prop :=
  ∀ (w : Bundle) (s : State),
    (∀ is, expandBundle s.core.activeDict w = .ok is →
      exec (.bundleIssue w) s = .next (issueOps (is.filterMap sopOf) (is.any isTemplate) s)) ∧
    (∀ f, expandBundle s.core.activeDict w = .error f → s.faultWaits w = true → exec (.bundleIssue w) s = .next s) ∧
    (∀ f, expandBundle s.core.activeDict w = .error f → s.faultWaits w = false → ∃ t aux, exec (.bundleIssue w) s = .next t ∧ t = { s with core := t.core } ∧
      t.core.a = s.core.a ∧ (s.core.trap = none → t.core.trap = some ⟨f.cause, 0, s.core.pc, aux, s.beat, false⟩))

/-- R16: two operations of one bundle that meet nothing take effect as one: each reads the state before the bundle, and the results of
both are on their way. -/
def Claims.BundleReadsBeforeItWrites : Prop :=
  ∀ (s : State) (x y : SOp) (e f : Eff), s.core.timetabled = false → s.core.guarded = false → s.core.yleft ≠ 0 →
    (∀ z ∈ [x, y], regWait s z = none ∧ drawsS z.opc z.o = false ∧ drawsC z.opc = false ∧ z.opc ≠ 0xDE) →
    dictWait s false = false → budgetFault s.core [x, y] = none → stageCollision s = none → collision s [] [x, y] = none →
    loopEndFault s.core [x, y] = none → x.run ⟨s, lanes0, 0⟩ = .ok e → y.run ⟨s, lanes0, e.tape⟩ = .ok f →
    e.late (e.perfs ++ f.perfs) = none → f.late (e.perfs ++ f.perfs) = none → e.ckpt = false → f.ckpt = false →
    windowClash s.core [] x.o.slot e = none → windowClash s.core [e] y.o.slot f = none →
    issueOps [x, y] false s = commit s [e, f] 0 0

/-- R99: with YLEFT at 0 the bundle that would issue is a trap with cause 0x12 and the declared run in TRAPAUX. -/
def Claims.BeatsRunOut : Prop :=
  ∀ s : State, s.core.trap = none →
    (s.core.yleft = 0 → exec .beatOverrun s = .next (trapped s 0x12 (BitVec.ofNat 64 s.core.yrun))) ∧
    (s.core.yleft ≠ 0 → exec .beatOverrun s = .next s)

/-! ## Host queues -/

/-- R317, R318, R319, R320: the packet at HEAD is fetched in order and takes the next sequence number, but for PAD, which takes none; a
packet longer than the ring, or across its end, halts the queue. What a read returns to a queue that was stopped since is dropped. (That the read is
asked for as soon as TAIL covers HEAD is the model's choice, log 26; that a queue enabled again keeps its numbers, log 18, DEDUCED.) -/
def Claims.PacketsAreFetched : Prop :=
  ∀ (s : State) (p : Packet), let x := s.queueOf p.q
    let n := pLen p + 1
    p.q < 4096 → p.words.length = 8 * n → s.ifClosed (ifOf p.q) = false → x.halt = 0 → x.cfg.getLsbD 63 = true →
    x.head < 2 ^ 32 → x.tail < 2 ^ 32 → x.head ≠ x.tail →
    let size := ringSize x.ring
    (x.stale ≠ 0 → exec (.packetFetch p) s = .next (s.setQueue { x with stale := x.stale - 1 })) ∧ (x.stale = 0 →
    x.ringRead = some (ringBase x.ring + 64 * (x.head % size)) ∧
    (n ≤ size → x.head % size + n ≤ size → n ≤ (x.tail + 2 ^ 32 - x.head) % 2 ^ 32 →
      exec (.packetFetch p) s = .next (s.setQueue { x with
        head := (x.head + n) % 2 ^ 32
        seq := if pOp p = 0 then x.seq else (x.seq + 1) % 2 ^ 32
        fetched := x.fetched ++ [⟨x.seq, p⟩] })) ∧
    (size < n → exec (.packetFetch p) s = .next (s.haltQueue p.q 2)) ∧
    (n ≤ size → size < x.head % size + n → exec (.packetFetch p) s = .next (s.haltQueue p.q 1)))

/-- R315, R317, R319: the notify writes set TAIL and the completion head; a TAIL further than the ring from HEAD halts an enabled queue
with code 3; through a closed interface the write is dropped and counted. -/
def Claims.NotifyPages : Prop :=
  ∀ (s : State) (q : Nat) (v : Word32), q < 4096 → let x := s.queueOf q
    (s.ifClosed (ifOf q) = false →
      ((x.cfg.getLsbD 63 = false ∨ x.halt ≠ 0 ∨ sub32 v.toNat x.head ≤ ringSize x.ring) →
        exec (.notifyTail q v) s = .next (s.setQueue { x with tail := v.toNat })) ∧
      (x.cfg.getLsbD 63 = true → x.halt = 0 → ringSize x.ring < sub32 v.toNat x.head →
        exec (.notifyTail q v) s = .next ((s.setQueue { x with tail := v.toNat }).haltQueue q 3)) ∧
      exec (.notifyCompletionHead q v) s = .next (s.setQueue { x with chead := v.toNat })) ∧
    (s.ifClosed (ifOf q) = true → ∃ t, exec (.notifyTail q v) s = .next t ∧ exec (.notifyCompletionHead q v) s = .next t ∧
      t.pk.queues = s.pk.queues ∧ t.mem = s.mem ∧
      (t.qif (ifOf q)).toNat / 2 ^ 48 = min 0xFFFF ((s.qif (ifOf q)).toNat / 2 ^ 48 + 1))

/-- R315, R316: enabling a queue empties it and checks its rings, a bad ring halts it with code 6; of a closed interface it reports code 5;
disabling keeps its state, and a ring read under way is still to come (R313); QRING and QCMPL take no write while it is enabled. -/
def Claims.QueueSetUp : Prop :=
  ∀ (s : State) (q : Nat) (v : Word64), q < 4096 → let x := s.queueOf q
    let fresh := fun (halt : Nat) => s.setQueue { x with
      cfg := v &&& qcfgMask, head := 0, tail := 0, chead := 0, halt := halt, phase := true, written := 0, fetched := [] }
    (v.getLsbD 63 = true → x.cfg.getLsbD 63 = false → s.ifClosed (ifOf q) = false → ringOk x.ring 64 = true → ringOk x.cmpl 32 = true →
      exec (.qcfgEnable q v) s = .next (fresh 0)) ∧
    (v.getLsbD 63 = true → x.cfg.getLsbD 63 = false → s.ifClosed (ifOf q) = true → exec (.qcfgEnable q v) s = .next (fresh 5)) ∧
    (v.getLsbD 63 = true → x.cfg.getLsbD 63 = true → exec (.qcfgEnable q v) s = .next (s.setQueue { x with cfg := v &&& qcfgMask })) ∧
    (v.getLsbD 63 = true → x.cfg.getLsbD 63 = false → s.ifClosed (ifOf q) = false → (ringOk x.ring 64 = false ∨ ringOk x.cmpl 32 = false) →
      ∃ t, exec (.qcfgEnable q v) s = .next t ∧ (t.queueOf q).halt = 6 ∧ t.mem = s.mem) ∧
    (v.getLsbD 63 = false → exec (.qcfgDisable q v) s = .next (s.setQueue { x.keepRead with cfg := v &&& qcfgMask })) ∧
    (∀ w : Word64, let off := 0x40000 + 32 * q
      (x.cfg.getLsbD 63 = true → exec (.bar0RegisterWrite off w) s = .next s ∧ exec (.bar0RegisterWrite (off + 8) w) s = .next s) ∧
      (x.cfg.getLsbD 63 = false → exec (.bar0RegisterWrite off w) s = .next (s.setQueue { x with ring := w &&& ringMask }) ∧
        exec (.bar0RegisterWrite (off + 8) w) s = .next (s.setQueue { x with cmpl := w &&& ringMask })))

/-- R313, R315: EN = 1 on a closed interface with a PASID enables it, with the fields written and DROPC cleared; while it is enabled the
fields keep their values; EN = 0 closes it and REV revokes it, and its queues halt with code 5. -/
def Claims.InterfacesOpenAndClose : Prop :=
  ∀ (s : State) (i : Nat) (v : Word64), i < 64 → let old := s.qif i
    (v.getLsbD 0 = true → v.getLsbD 2 = false → old.getLsbD 0 = false → old.getLsbD 2 = false → qifPasid v ≠ 0 → s.pk.booted = true →
      ∃ t, exec (.qifctlEnable i v) s = .next t ∧ (t.qif i).getLsbD 0 = true ∧ qifPasid (t.qif i) = qifPasid v ∧
        (t.qif i).toNat / 2 ^ 36 % 16 = v.toNat / 2 ^ 36 % 16 ∧ (t.qif i).toNat / 2 ^ 48 = 0 ∧ t.ifClosed i = false ∧ t.pk.queues = s.pk.queues) ∧
    (v.getLsbD 0 = true → v.getLsbD 2 = false → old.getLsbD 0 = true → old.getLsbD 2 = false →
      ∃ t, exec (.qifctlEnable i v) s = .next t ∧ qifPasid (t.qif i) = qifPasid old ∧ (t.qif i).toNat / 2 ^ 36 % 16 = old.toNat / 2 ^ 36 % 16 ∧
        (t.qif i).toNat / 2 ^ 48 = old.toNat / 2 ^ 48 ∧ t.pk.queues = s.pk.queues) ∧
    (v.getLsbD 0 = false → ∃ t, exec (.qifctlClose i v) s = .next t ∧ t.ifClosed i = true ∧ t.mem = s.mem ∧
      ∀ k < 64, (t.queueOf (64 * i + k)).halt = 5) ∧
    (v.getLsbD 0 = true → v.getLsbD 2 = true → old.getLsbD 2 = false → ∃ t, exec (.qifctlRevoke i v) s = .next t ∧ t.ifClosed i = true ∧
      t.mem = s.mem ∧ ∀ k < 64, (t.queueOf (64 * i + k)).halt = 5)

/-- R310, R313, R319: a completion write that the host completes lowers the outstanding DMA, a data write too; a failed completion write or
ring read halts the queue with code 4. -/
def Claims.HostDmaCompletes : Prop :=
  ∀ (s : State) (p : Packet), p.q < 4096 → let x := s.queueOf p.q
    (p.words = [] → p.host = none → exec (.hostDmaCompletion p true) s = .next (s.setQueue { x with dma := x.dma - 1 })) ∧
    (p.words ≠ [] → exec (.hostDmaCompletion p true) s = .next s) ∧
    (p.words ≠ [] → x.stale ≠ 0 → exec (.hostDmaCompletion p false) s = .next (s.setQueue { x with stale := x.stale - 1 })) ∧
    (∀ ok, p.words = [] → p.host ≠ none → exec (.hostDmaCompletion p ok) s =
      .next { s with pk := { s.pk with dataDma := s.pk.dataDma.erase (qifPasid (s.qif (ifOf p.q))) } }) ∧
    (x.halt = 0 → (p.words ≠ [] ∧ x.stale = 0 ∨ p.words = [] ∧ p.host = none) → ∃ t, exec (.hostDmaCompletion p false) s = .next t ∧ (t.queueOf p.q).halt = 4 ∧ t.mem = s.mem)

/-- R315, R320, R321: the completion of a packet writes one record of 32 bytes with its status, tag, number, two words and the beat at the
next place of the ring, and the phase bit turns at the ring's end; through a closed interface it is dropped. -/
def Claims.CompletionsAreWritten : Prop :=
  ∀ (s : State) (q status qtag seq : Nat) (irq : Bool) (w1 w2 : Word64), let x := s.queueOf q
    let t := s.complete q qtag seq irq status w1 w2
    t.mem = s.mem ∧ t.core = s.core ∧ seq ∉ (t.queueOf q).open_ ∧ (∀ n ∈ x.open_, n ≠ seq → n ∈ (t.queueOf q).open_) ∧
    (s.ifClosed (ifOf q) = false →
      (t.queueOf q).written = (x.written + 1) % 2 ^ 32 ∧
      (t.queueOf q).phase = (if (x.written + 1) % ringSize x.cmpl = 0 then !x.phase else x.phase) ∧
      ((irq = false ∨ x.cfg.getLsbD 28 = false) → t.pk.out = s.pk.out ++ [completionOf s q status qtag seq w1 w2]) ∧
      (completionOf s q status qtag seq w1 w2 ∈ t.pk.out)) ∧
    (s.ifClosed (ifOf q) = true → t.pk.out = s.pk.out ∧ (t.queueOf q).written = x.written ∧
      (irq = false → ifOf q < 64 → (t.qif (ifOf q)).toNat / 2 ^ 48 = min 0xFFFF ((s.qif (ifOf q)).toNat / 2 ^ 48 + 1)))

/-- R314, R318, R320, R321: every packet that may start leaves its queue; malformed it completes with 0x27, under another PASID than its
interface's with 0x28, and one that names no resident rank with 0x25; PAD takes no number and no completion; one that may not start
stays. -/
def Claims.PacketsStart : Prop :=
  (∀ (mk : Packet → Instr) (op : Nat), PacketOp mk op → ∀ (s : State) (p : Packet) (f : Fetched) (rest : List Fetched),
    p.q < 4096 → pOp p = op → f.p = p → (s.queueOf p.q).fetched = f :: rest →
    (s.mayStart (s.queueOf p.q) = false → exec (mk p) s = .next s) ∧
    (s.mayStart (s.queueOf p.q) = true →
      (packetOk p = false → exec (mk p) s = .next ((opened s p f rest).finishPacket f 0x27)) ∧
      (packetOk p = true → pPasid p ≠ qifPasid (s.qif (ifOf p.q)) → exec (mk p) s = .next ((opened s p f rest).finishPacket f 0x28)))) ∧
  (∀ (mk : Packet → Instr) (op : Nat), RankPacketOp mk op → ∀ (s : State) (p : Packet) (f : Fetched) (rest : List Fetched),
    Starts op s p f rest → s.resident (pJob p) (pRank p) = none → exec (mk p) s = .next ((opened s p f rest).finishPacket f 0x25)) ∧
  (∀ (s : State) (p : Packet) (f : Fetched) (rest : List Fetched), p.q < 4096 → pOp p = 0 → f.p = p →
    (s.queueOf p.q).fetched = f :: rest → s.mayStart (s.queueOf p.q) = true →
    exec (.pad p) s = .next (s.setQueue { s.queueOf p.q with fetched := rest }))

/-! ## Ranks -/

/-- R293, R294, R295, R350: what the changes of residency do: a parked rank, its collectives failed first, keeps its footprint in its image; a dead one has none, and the banks
that held it are indeterminate and nothing else is; the image that returns to a seat gives its bytes back. -/
def Claims.ResidencyChanges : Prop :=
  (∀ (s : State) (r x : Rank) (b : Nat), let u := s.failRank r.job r.rank 1
    u.rankOf r.job r.rank = some x → x.base = some b →
    (s.parkRank r).rankOf r.job r.rank = some { x with st := .parked, image := u.takeFootprint b (fpSize x.fpc) [] none, byPark := false } ∧
    (s.parkRank r).mem = u.mem ∧ (s.parkRank r).core = u.core ∧ (s.pk.colls = [] → u.mem = s.mem ∧ u.core = s.core)) ∧
  (∀ (s : State) (r : Rank) (active : Bool), s.Canonical → s.rankOf r.job r.rank = some r → s.pk.colls = [] →
    let t := s.bury r active
    t.rankOf r.job r.rank = some { r with st := .dead, image := Image.empty, cold := none } ∧
    (active = false → t.mem = s.mem) ∧
    (∀ b, active = true → r.base = some b → ∀ k, ¬(bankLo b ≤ k ∧ k < bankLo b + fpSize r.fpc * clusterSpan) → t.mem.get k = s.mem.get k)) ∧
  (∀ (s : State) (b n k : Nat) (im : Image), s.Canonical → bankLo b ≤ k → k < bankLo b + n * clusterSpan → im.indet = [] → im.cells.Pairwise (fun x y => x.1 < y.1) →
    s.mem.indet = [] → (s.putFootprint b n im).mem.get k = (⟨im.cells, []⟩ : Memory).get (k - bankLo b)) ∧
  (∀ (s : State) (b n k : Nat) (im : Image), s.Canonical → ¬(bankLo b ≤ k ∧ k < bankLo b + n * clusterSpan) →
    (s.putFootprint b n im).mem.get k = s.mem.get k)

/-- R294, R301, R302, R306: KILL, PARK and RESUME: a rank that runs or waits is killed with status 0x26, an idle-active one dies or is
parked, a held one waits again, a parked one returns to its seat; in the other states they complete with 0x2A. -/
def Claims.RankPackets : Prop :=
  ∀ (s : State) (p : Packet) (f : Fetched) (rest : List Fetched) (r : Rank) (op : Nat), Starts op s p f rest →
    s.resident (pJob p) (pRank p) = some r → let o := opened s p f rest
    let bad := o.finishPacket f 0x2A
    (op = 3 →
      (r.moving = true → exec (.kill p) s = .next bad) ∧
      (∀ l, r.moving = false → s.launchOf r.job r.rank = some l → (r.st = .running ∨ r.st = .waiting ∨ r.st = .held) →
        exec (.kill p) s = .next ((o.killContext l 0x26 false).finishPacket f 0)) ∧
      (r.moving = false → s.launchOf r.job r.rank = none → r.st = .held → exec (.kill p) s = .next ((o.bury r false).finishPacket f 0)) ∧
      (r.moving = false → r.st = .idleActive → exec (.kill p) s = .next ((o.bury r true).finishPacket f 0)) ∧
      (r.moving = false → (r.st = .parked ∨ r.st = .cold) → exec (.kill p) s = .next bad)) ∧
    (op = 4 →
      (r.st = .idleActive → ∃ t : State, exec (.park p) s = .next (t.finishPacket f 0) ∧ t.mem = (o.parkRank r).mem ∧
        (∀ x, (o.parkRank r).rankOf r.job r.rank = some x → t = (o.parkRank r).setRank { x with byPark := true })) ∧
      (r.st ≠ .idleActive → exec (.park p) s = .next bad)) ∧
    (op = 5 →
      (∀ l, r.st = .held → s.launchOf r.job r.rank = some l → ∃ t : State, exec (.resume p) s = .next (t.finishPacket f 0) ∧ t.mem = s.mem ∧
        (t.rankOf r.job r.rank).map Rank.st = (s.rankOf r.job r.rank).map (fun _ => Residency.waiting) ∧
        t.launchOf r.job r.rank = some { l with waiting := some s.beat, stopAt := none }) ∧
      (∀ t, r.st = .parked → r.moving = false → o.unpark r = some t → exec (.resume p) s = .next (t.finishPacket f 0)) ∧
      (r.st = .parked → (r.moving = true ∨ o.unpark r = none) → exec (.resume p) s = .next bad) ∧
      ((r.st = .running ∨ r.st = .waiting ∨ r.st = .idleActive ∨ r.st = .cold) → exec (.resume p) s = .next bad))

/-- R294, R328, R358: COLD seals a parked rank into the cold tier; RECALL opens what lies there when its tag verifies, and else leaves it cold, completes with 0x24 and
counts a failed authentication. -/
def Claims.ColdRanks : Prop :=
  ∀ (s : State) (p : Packet) (f : Fetched) (rest : List Fetched) (r : Rank) (op : Nat), Starts op s p f rest →
    s.resident (pJob p) (pRank p) = some r → let o := opened s p f rest
    (op = 6 →
      (r.st = .parked → r.moving = false → s.pk.keysErased = false → exec (.cold p) s = .next ((o.sealCold r).finishPacket f 0) ∧
        ((o.sealCold r).rankOf r.job r.rank).map Rank.st = (s.rankOf r.job r.rank).map (fun _ => Residency.cold)) ∧
      ((r.st ≠ .parked ∨ r.moving = true ∨ s.pk.keysErased = true) → exec (.cold p) s = .next (o.finishPacket f 0x2A))) ∧
    (op = 7 →
      (r.st ≠ .cold → exec (.recallRank p) s = .next (o.finishPacket f 0x2A)) ∧
      (r.st = .cold → (∀ x, s.pk.keysErased = false → aesOpen (derivedKey 1 r.job 0xFFFF) ((s.coldBytes r).take 64) ((s.coldBytes r).drop 64) = some x →
          ∃ t : State, exec (.recallRank p) s = .next (t.finishPacket f 0) ∧ t.pk.authFails = 0 ∧ t.mem = s.mem ∧
            (t.rankOf r.job r.rank).map Rank.st = (s.rankOf r.job r.rank).map (fun _ => Residency.parked)) ∧
        ((s.pk.keysErased = true ∨ aesOpen (derivedKey 1 r.job 0xFFFF) ((s.coldBytes r).take 64) ((s.coldBytes r).drop 64) = none) →
          exec (.recallRank p) s = .next (o.authFail.finishPacket f 0x24) ∧ o.authFail.pk.authFails = s.pk.authFails + 1)))

/-- R318: COPYIN puts the host's bytes at the homes of the rank's pages, COPYOUT sends the bytes of the homes to the host; a length out
of range completes with 0x27, a host read that failed with 0x29. -/
def Claims.CopyPackets : Prop :=
  (∀ (s : State) (p : Packet) (f : Fetched) (rest : List Fetched) (r : Rank) (op : Nat), Starts op s p f rest →
    s.resident (pJob p) (pRank p) = some r → let o := opened s p f rest
    let len := pWord p 4
    (op = 8 →
      (¬(1 ≤ len ∧ len ≤ 2 ^ 32) → exec (.copyin p) s = .next (o.finishPacket f 0x27)) ∧
      (1 ≤ len → len ≤ 2 ^ 32 → let x := o.copyIn r (pieces (pWord p 2) len) (p.host.getD [])
        exec (.copyin p) s = .next (x.1.finishPacket f x.2))) ∧
    (op = 9 →
      (¬(1 ≤ len ∧ len ≤ 2 ^ 32) → exec (.copyout p) s = .next (o.finishPacket f 0x27)) ∧
      (1 ≤ len → len ≤ 2 ^ 32 → p.host = none → exec (.copyout p) s = .next (o.finishPacket f 0x29)) ∧
      (1 ≤ len → len ≤ 2 ^ 32 → p.host ≠ none → let x := o.copyOut r (pPasid p) (pieces (pWord p 2) len) (pWord p 3)
        exec (.copyout p) s = .next (x.1.finishPacket f x.2)))) ∧
  (∀ (s : State) (r : Rank) (va n pa : Nat) (bs : List Byte), s.Canonical → s.copyPage r va = .ok pa → n ≤ bs.length →
    let x := s.copyIn r [(va, n)] bs
    x.2 = 0 ∧ (∀ i < n, x.1.mem.get (pa + i) = bs.getD i 0#8) ∧ (∀ k, ¬(pa ≤ k ∧ k < pa + n) → x.1.mem.get k = s.mem.get k)) ∧
  (∀ (s : State) (r : Rank) (pasid va n pa h : Nat), s.copyPage r va = .ok pa →
    let x := s.copyOut r pasid [(va, n)] h
    x.2 = 0 ∧ x.1.mem = s.mem ∧ x.1.pk.out = s.pk.out ++ [.host pasid h ((List.range n).map (fun i => s.mem.get (pa + i)))])

/-- R326, R327, R328: DBGREAD sends the sealed image of a held rank under the session key of the interface; ATTEST sends a report, and
with the host's key binds a session. Without a session, or a seed, they complete with 0x2A. -/
def Claims.DebugAndAttest : Prop :=
  (∀ (s : State) (p : Packet) (f : Fetched) (rest : List Fetched) (r : Rank), Starts 0x0A s p f rest → s.resident (pJob p) (pRank p) = some r →
    let o := opened s p f rest
    (∀ key h, s.session p.q = some key → r.st = .held → p.host = some h → ∃ (t : State) (bs : List Byte), exec (.dbgread p) s = .next (t.finishPacket f 0) ∧
      t.pk.out = s.pk.out ++ [.host (pPasid p) (pWord p 2) bs] ∧ t.pk.sealCtr = s.pk.sealCtr + 1 ∧ t.mem = s.mem ∧
      bs.take 64 = sealHead 3 r.job r.rank r.step.toNat (s.ownModule r.job) s.pk.sealCtr) ∧
    ((s.session p.q = none ∨ r.st ≠ .held) → exec (.dbgread p) s = .next (o.finishPacket f 0x2A))) ∧
  (∀ (s : State) (p : Packet) (f : Fetched) (rest : List Fetched), Starts 0x0B s p f rest → let o := opened s p f rest
    (s.pk.seedErased = true → exec (.attest p) s = .next (o.finishPacket f 0x2A)) ∧
    (s.pk.seedErased = false → p.host = none → exec (.attest p) s = .next (o.finishPacket f 0x29)) ∧
    (∀ ek, s.pk.seedErased = false → p.host = some ek → pWord p 3 = 0 → ∃ (t : State) (bs : List Byte), exec (.attest p) s = .next (t.finishPacket f 0) ∧
      t.pk.out = s.pk.out ++ [.host (pPasid p) (pWord p 2) bs] ∧ t.pk.sessions = s.pk.sessions ∧ t.mem = s.mem) ∧
    (∀ ek, s.pk.seedErased = false → p.host = some ek → pWord p 3 ≠ 0 → 1568 ≤ ek.length →
      ∃ (t : State) (key : List Byte), exec (.attest p) s = .next (t.finishPacket f 0) ∧ t.session p.q = some key ∧ t.mem = s.mem))

/-- R322, R334: JOIN adds a job that is not there, whose map names its module, under a table in memory, with its port alive and seen;
LEAVE frees a job with no rank but dead ones; RANKNEW makes a parked rank whose table its seed fills, unwrapped under the session's key. -/
def Claims.JobPackets : Prop :=
  (∀ (s : State) (p : Packet) (f : Fetched) (rest : List Fetched), Starts 0x0D s p f rest → let o := opened s p f rest
    let bs := p.host.getD []
    let modnum := bits (pWord p 1) 0 12
    let nrank := bits (pWord p 3) 0 16
    let root := bits (pWord p 2) 12 30 * 4096
    ((s.jobOf (pJob p) ≠ none ∨ bs.length < 131072) → exec (.join p) s = .next (o.finishPacket f 0x2B)) ∧
    (s.jobOf (pJob p) = none → 131072 ≤ bs.length → mapNames (mapOf bs) nrank modnum = true → (paHbm root = true ∨ paCold root = true) →
      s.pagePoisoned root = false → bits (pWord p 4) 0 8 = 0xFF →
      ∃ t : State, exec (.join p) s = .next (t.finishPacket f 0) ∧ t.pk.beatRef = true ∧ t.beat = s.beat ∧ t.mem = s.mem ∧
        t.pk.jobs = s.pk.jobs ++ [⟨pJob p, modnum, root, nrank, bits (pWord p 3) 16 12 + 1, mapOf bs, []⟩])) ∧
  (∀ (s : State) (p : Packet) (f : Fetched) (rest : List Fetched), Starts 0x0E s p f rest → let o := opened s p f rest
    (s.session p.q = none → exec (.ranknew p) s = .next (o.finishPacket f 0x2A)) ∧
    (∀ key, s.session p.q = some key → s.jobOf (pJob p) = none → exec (.ranknew p) s = .next (o.finishPacket f 0x2B)) ∧
    (∀ key j seed pa, s.Canonical → s.session p.q = some key → s.jobOf (pJob p) = some j → pRank p ≤ j.nrank → s.resident (pJob p) (pRank p) = none →
      s.mapEntry (pJob p) (pRank p) = j.modnum → bits (pWord p 3) 0 3 < 6 →
      let r : Rank := ⟨pJob p, pRank p, bits (pWord p 3) 0 3, .parked, none, bits (pWord p 2) 12 44 * 4096, [],
        BitVec.ofNat 64 (bits (pWord p 4) 12 44 * 4096), [], 0#64, 0, 0, 0, Image.empty, none, [], false, false⟩
      let s1 : State := { o with pk := { o.pk with ranks := o.pk.ranks.filter (fun x => !(x.job == r.job && x.rank == r.rank)) ++ [r] } }
      s1.tablePage r = some pa → keyUnwrap key ((List.range 5).flatMap (fun i => word8 (pWord p (8 + i)))) = some seed →
      ∃ t : State, exec (.ranknew p) s = .next (t.finishPacket f 0) ∧
        (∀ k < 4096, t.mem.get (pa + k) = (shake256 seed 4096).getD k 0#8) ∧
        (∀ k, ¬(pa ≤ k ∧ k < pa + 4096) → t.mem.get k = s.mem.get k) ∧
        ∃ x ∈ t.pk.ranks, x.job = pJob p ∧ x.rank = pRank p ∧ x.st = .parked ∧ x.seed = seed)) ∧
  (∀ (s : State) (p : Packet) (f : Fetched) (rest : List Fetched), Starts 0x0F s p f rest → let o := opened s p f rest
    ((∃ r ∈ s.pk.ranks, r.job = pJob p ∧ r.st ≠ .dead) → exec (.leave p) s = .next (o.finishPacket f 0x2A)) ∧
    ((∀ r ∈ s.pk.ranks, r.job = pJob p → r.st = .dead) → ∃ t : State, exec (.leave p) s = .next (t.finishPacket f 0) ∧ t.mem = s.mem ∧
      t.pk.jobs = s.pk.jobs.filter (fun j => j.job != pJob p) ∧ (∀ r ∈ t.pk.ranks, r.job ≠ pJob p) ∧
      (t.core.job = pJob p → t.core.tlb = [])))

/-- R323, R324: SVC answers an outstanding request: an accepted decision takes effect and ends it, a refused one leaves it; a function that
falls due for an object is performed, in host mode asked of the host: a record once there is room, after the report of a peer; FSREQ takes its
bits where no operation of the function is in progress. -/
def Claims.Services : Prop :=
  (∀ (s : State) (p : Packet) (f : Fetched) (rest : List Fetched), Starts 0x0C s p f rest → let o := opened s p f rest
    let obj := BitVec.ofNat 64 (pWord p 2)
    let mine := fun (r : SvcReq) => r.f = pWord p 1 ∧ r.object = obj
    ((∀ r ∈ s.pk.svcs, ¬mine r) → exec (.svc p) s = .next (o.finishPacket f 0x2A)) ∧
    ((∃ r ∈ s.pk.svcs, mine r) → let x := o.applyDecision p (pWord p 1) obj (pWord p 3)
      (x.2 ≠ 0 → exec (.svc p) s = .next (x.1.finishPacket f x.2)) ∧
      (x.2 = 0 → ∃ t : State, exec (.svc p) s = .next (t.finishPacket f 0) ∧ (∀ r ∈ t.pk.svcs, ¬mine r) ∧
        (∀ r ∈ x.1.pk.svcs, ¬mine r → r ∈ t.pk.svcs) ∧ t.mem = x.1.mem))) ∧
  (∀ (s : State) (f : Nat) (object detail : Word64), f < 6 → let q := 64 * bits s.pk.fsreq.toNat 8 8
    let x := s.queueOf q
    (s.svcReq f object detail = none → exec (.serviceRequest f object detail) s = .next s) ∧
    (∀ r, s.svcReq f object detail = some r → r.f = f ∧
      (s.asksHost f = false → exec (.serviceRequest f object detail) s = .next (s.selfServe r)) ∧
      (s.asksHost f = true → (∃ y ∈ s.pk.svcs ++ s.pk.svcWait, y.f = f ∧ y.object = r.object) → exec (.serviceRequest f object detail) s = .next s) ∧
      (s.asksHost f = true → (∀ y ∈ s.pk.svcs ++ s.pk.svcWait, ¬(y.f = f ∧ y.object = r.object)) →
        let free := s.ifClosed (ifOf q) = false ∧ x.cfg.getLsbD 63 = true ∧ x.halt ≠ 6 ∧ x.room = true ∧ s.pk.booted = true
        let u := if f = 3 then s.dataWrite (qifPasid (s.qif (ifOf q))) r.detail.toNat
            (padTo 32016 (Config.peerReport (bits r.object.toNat 32 32) (bits r.object.toNat 0 12))) else s
        (free → s.pk.svcWait = [] → ∃ t, exec (.serviceRequest f object detail) s = .next t ∧
          t.pk.svcs = s.pk.svcs ++ [r] ∧ t.pk.svcSeq = (s.pk.svcSeq + 1) % 2 ^ 32 ∧ t.mem = s.mem ∧
          completionOf s q (0xF0 + f) 0xFFFF s.pk.svcSeq r.object r.detail ∈ t.pk.out ∧ (∀ m ∈ u.pk.out, m ∈ t.pk.out)) ∧
        (¬free ∨ s.pk.svcWait ≠ [] → exec (.serviceRequest f object detail) s =
          .next { u with pk := { u.pk with svcWait := s.pk.svcWait ++ [r] } })))) ∧
  (∀ (s : State) (v : Word64), ∃ t, exec (.fsreqWrite v) s = .next t ∧ exec (.bar0RegisterWrite 0x10 v) s = .next t ∧ t.mem = s.mem ∧
    (∀ f < 6, t.pk.funcsplit.testBit f = if (∃ r ∈ s.pk.svcs ++ s.pk.svcWait, r.f = f) ∨ (f = 1 ∧ ∃ r ∈ s.pk.ranks, r.moving = true)
      then s.pk.funcsplit.testBit f else v.getLsbD f) ∧
    t.pk.fsreq.toNat % 64 = v.toNat % 64)

/-! ## Launches -/

/-- R297: the state of a core at its entry: arguments in s1 to s8, its stack, the header's registers, its own random streams, the beats
of RUN, the dictionary's first image empty; nothing in flight. -/
def Claims.EntryState : Prop :=
  ∀ (t : Timetable) (r : Rank) (b step nrank : Nat) (args : List Nat) (tomb : Vector (BitVec 1024) 32) (pins : List Tlb) (entry : Nat) (e : CoreEnt),
    let c := entryCore t r b step nrank args [] tomb pins entry e
    let w := fun (n : Nat) => BitVec.ofNat 64 n
    (∀ i < 8, c.a.rs (BitVec.ofNat 6 (i + 1)) = w (args.getD i 0)) ∧ c.a.rs 63#6 = w (t.word 9) - w (t.word 10 * e.j) ∧
    (∀ i : BitVec 6, 9 ≤ i.toNat → i.toNat < 63 → c.a.rs i = 0#64) ∧ (∀ i, c.a.rv i = lanes0) ∧ (∀ i : BitVec 4, i ≠ 0#4 → c.a.rp i = 0#32) ∧
    c.a.stklo = (w (t.word 9) - w (t.word 10 * e.j) - w (t.word 10)) &&& 0x00FFFFFFFFFFFF80#64 ∧
    c.a.fctl = w (t.word 11) &&& 0x3FF#64 ∧ c.a.rngt = (r.rngOf e.j).t ∧ c.a.rngs = (r.rngOf e.j).s ∧ c.a.rngc = (r.rngOf e.j).c ∧
    c.pc = e.pc ∧ c.codeBase = t.code ∧ c.ncode = t.nb ∧ c.lath = w t.lath ∧ c.hvec = t.hvec ∧ c.gm = t.gm ∧ c.hm = false ∧
    c.yleft = t.run ∧ c.yrun = t.run ∧ c.step = w step ∧ c.coreid = e.j ∧ c.pclus = b + e.j / 128 ∧ c.pcore = e.j % 128 ∧
    c.timetabled = !t.fr ∧ c.run = .armed entry ∧ c.flights = [] ∧ c.steps = [] ∧ c.reqs = [] ∧ c.trap = none ∧ c.dictv = 0#64 ∧ c.act = t.actb

/-- R298, R329: T0 is the one that the packet asks for, else the next multiple of 64 at least 1,024 beats on, of 65,536 in throttle
level 1. -/
def Claims.StartBeats : Prop :=
  ∀ e treq throt : Nat, let t := launchT0 e treq throt
    (treq ≠ 0 → t = treq) ∧
    (treq = 0 → throt ≠ 1 → t % 64 = 0 ∧ e + 1024 ≤ t ∧ t < e + 1024 + 64) ∧
    (treq = 0 → throt = 1 → t % 65536 = 0 ∧ e + 1024 ≤ t ∧ t < e + 1024 + 64 + 65536)

/-- R298, R301, R304: a LAUNCH of a rank that is not cold completes at once with the status that its preparation refuses it with; prepared,
its rank takes STEP and ATAG, its collectives and tiles are armed, and on a free seat its cores take their places. It first waits for what it
needs of other modules (log 34, DEDUCED). -/
def Claims.LaunchesPrepare : Prop :=
  ∀ (s : State) (p : Packet) (f : Fetched) (rest : List Fetched) (r : Rank) (b : Nat), Starts 0x01 s p f rest →
    s.resident (pJob p) (pRank p) = some r → (r.st = .parked ∨ r.st = .idleActive) → r.base = some b → let o := opened s p f rest
    let go := o.prepare r (some b) (pWord p 2) (pWord p 3) (pWord p 4) ((List.range 8).map (fun i => pWord p (8 + i)))
    (∀ y ys, s.prepAway r (pWord p 2) = y :: ys → exec (.launch p) s = .next (s.askPrep (pJob p) (pRank p) (y :: ys))) ∧
    (∀ st, s.prepAway r (pWord p 2) = [] → go = .error st → exec (.launch p) s = .next (o.finishPacket f st).clearPrep) ∧
    (∀ q, s.prepAway r (pWord p 2) = [] → go = .ok q → ∃ l : Launch, exec (.launch p) s = .next (o.arm r l b q).clearPrep ∧
      l.job = r.job ∧ l.rank = r.rank ∧ l.q = p.q ∧ l.qtag = pTag p ∧ l.seq = f.seq ∧ l.step = BitVec.ofNat 64 (pWord p 3) ∧
      l.timetabled = !q.t.fr ∧ l.t0 = q.t0 ∧ l.cores = q.cores ∧ l.swaps = [] ∧ l.committed = 0 ∧ l.waiting = none)

/-- R297, R298, R304: what arming does to the rank record, and on a free seat to its cores. -/
def Claims.ArmedRanks : Prop :=
  ∀ (s : State) (r : Rank) (l : Launch) (b : Nat) (q : Prepared), s.rankOf r.job r.rank = some r → l.job = r.job → l.rank = r.rank →
    r.base = some b → s.launchOf r.job r.rank = none → l.waiting = none → l.chosen = none → q.colls = [] → s.pk.colls = [] → s.seatTaken b (fpSize r.fpc) = false →
    s.idleOn b (fpSize r.fpc) l.job l.rank = [] → l.cores ≠ [] → l.setb = none → let t := s.arm r l b q
    (∃ x, t.rankOf r.job r.rank = some x ∧ x.st = .running ∧ x.step = l.step ∧ x.atag = l.step.toNat % 256 ∧ x.status = 0) ∧
    (∃ x, t.launchOf r.job r.rank = some x ∧ x.waiting = none ∧ x.chosen = none ∧ x.started = q.t0) ∧
    (∀ c ∈ l.cores, ∃ d ∈ t.allCores, d.pclus = b + c.coreid / 128 ∧ d.pcore = c.coreid % 128)

/-- R219, R297, R329: at its entry beat an armed core runs, a free-running one not while THROT holds launches back; with GM = 1 its entry is a
checkpoint. -/
def Claims.CoresEnter : Prop :=
  ∀ (s : State) (e : Nat), s.core.run = .armed e →
    ((s.beat < e ∨ (s.pk.throtHold = true ∧ s.core.timetabled = false)) → exec .coreEntry s = .next s) ∧
    (e ≤ s.beat → (s.pk.throtHold = false ∨ s.core.timetabled = true) → ∃ t, exec .coreEntry s = .next t ∧ t.core.run = .running ∧ t.core.readyAt = s.beat ∧ t.core.a = s.core.a ∧
      t.core.pc = s.core.pc ∧ t.mem = s.mem ∧
      (s.core.gm = true → t.core.shadow = s.core.a ∧ t.core.cpc = s.core.pc ∧ t.core.held = []) ∧
      (s.core.gm = false → t.core.shadow = s.core.shadow ∧ t.core.held = s.core.held))

/-- R299: INVAL waits while it covers a pinned page of a timetabled launch in progress; when it completes, no core of the rank holds a
translation of the range. -/
def Claims.Invalidations : Prop :=
  (∀ (s : State) (p : Packet) (f : Fetched) (rest : List Fetched) (r : Rank), Starts 0x02 s p f rest → s.resident (pJob p) (pRank p) = some r →
    ∃ t, exec (.inval p) s = .next t ∧ t.mem = s.mem ∧ t.core = s.core ∧
      t.pk.invals = s.pk.invals ++ [⟨pJob p, pRank p, pWord p 2, pWord p 3, p.q, pTag p, f.seq, pIrq p⟩]) ∧
  (∀ (s : State) (k : Nat) (x : Inval), s.pk.invals[k]? = some x →
    (s.invalReady x = false → exec (.invalComplete k) s = .next s) ∧
    (s.invalReady x = true → ∃ t : State, exec (.invalComplete k) s = .next (t.complete x.q x.qtag x.seq x.irq 0 0#64 0#64) ∧ t.mem = s.mem ∧
      t.pk.invals = s.pk.invals.eraseIdx k ∧
      ∀ c ∈ t.allCores, c.job = x.job → c.rank = x.rank → ∀ e ∈ c.tlb, ¬(e.va < x.addr + x.len ∧ x.addr < e.va + e.size)))

/-- R293, R294, R301: when every core of a step has halted and its stores have performed, the rank is idle-active, its draw states are in
its record, its cores are free and the launch is over. -/
def Claims.StepsEnd : Prop :=
  ∀ (s : State) (job rank : Nat) (l : Launch) (r : Rank), s.launchOf job rank = some l → s.rankOf job rank = some r →
    (s.stepOver l = false → exec (.stepEnd job rank) s = .next s) ∧
    (s.stepOver l = true → l.killed = none → l.reported = false → ∃ t u : State, exec (.stepEnd job rank) s = .next t ∧ t.mem = s.mem ∧
      t.launchOf job rank = none ∧ (∃ x, t.rankOf job rank = some x ∧ x.st = .idleActive ∧ x.status = 0) ∧
      (∀ c ∈ t.allCores, ¬(c.onSeat = true ∧ c.job = job ∧ c.rank = rank)) ∧
      t = (((u.complete l.q l.qtag l.seq l.irq 0 0#64 0#64).dropLaunch l).freeSeat ((s.seatCores job rank).foldl Rank.keepRng { r with ends := s.endpoints r }))) ∧
    (∀ c : Core, (r.keepRng c).rngOf c.coreid = ⟨c.coreid, c.a.rngt, c.a.rngs, c.a.rngc⟩)

/-- R294: an idle-active rank is parked before a context of another rank that the arbiter chose starts on its clusters. -/
def Claims.IdleRanksPark : Prop :=
  ∀ (s : State) (job rank : Nat) (r : Rank), s.rankOf job rank = some r → r.st = .idleActive →
    ((∃ l ∈ s.pk.launches, l.chosen ≠ none ∧ ¬(l.job = job ∧ l.rank = rank) ∧ ∃ x f, s.seatOf l.job l.rank = some (x, f) ∧ r.meets x (fpSize f) = true) →
      exec (.idleActivePark job rank) s = .next (s.parkRank r)) ∧
    ((∀ l ∈ s.pk.launches, l.chosen = none) → exec (.idleActivePark job rank) s = .next s)

/-- R100, R161, R234, R237, R263, R265, R271, R295: a core that yielded, with nothing in flight, its stores performed and its channels quiet,
is saved, and with the last core its footprint; a drained core is saved with cause 0x17, its tiles rounded to F32, and its checkpoint makes
the phase one that cannot be cancelled. One that may not be saved yet stays. An urgent request that finds the core at a pass boundary starts its
drain there, and ends a WAITB. -/
def Claims.ContextsAreSaved : Prop :=
  (∀ s : State, s.core.drain = none → s.leaveReady s.core = true →
    exec .contextSwitchOut s = .next (s.coreSaved (s.core.pack s.beat 0 0 0#64))) ∧
  (∀ s : State, (s.leaveReady s.core = false ∨ s.core.drain ≠ none) → exec .contextSwitchOut s = .next s) ∧
  (∀ s : State, s.core.drain ≠ none → s.leaveReady s.core = true → s.core.drainHeld = false →
    let u := if s.core.guarded then s.notCancellable s.core.job s.core.rank else s
    exec .urgentPreemption s = .next (u.coreSaved (u.core.drainDone.pack s.beat 0x17 0 0#64))) ∧
  (∀ s : State, s.leaveReady s.core = true → s.core.drainHeld = true →
    ∃ t, exec .urgentPreemption s = .next t ∧ t.core.held = [] ∧ t.mem = s.mem ∧ t.perfs.length = s.perfs.length + s.core.held.length) ∧
  (∀ s : State, s.core.gapUrgent s.beat = false → (s.leaveReady s.core = false ∨ s.core.drain = none) → exec .urgentPreemption s = .next s) ∧
  (∀ s : State, s.core.gapUrgent s.beat = true → exec .urgentPreemption s = .next { s with core := s.core.drainInGap } ∧
    let d := s.core.drainInGap
    d.drain = some (s.core.a.rngs, s.core.a.rngc) ∧ (∀ b, .beat b ∉ d.waits) ∧ d.a.s = s.core.a.s ∧ d.a.tiles = s.core.a.tiles ∧ d.pc = s.core.pc ∧
    lstgEn d.a.lstg = lstgEn s.core.a.lstg / 2 * 2 ∧ (d.switchOut = true ↔ lstgEn s.core.a.lstg / 2 = 0)) ∧
  (∀ (c : Core) (b k : Nat) (x : Word64), c.run = .running → let d := c.pack b k 0 x
    d.run = .saved k 0 x ∧ d.savedAt = b ∧ d.tlb = [] ∧ d.l1 = [] ∧ d.trap = none ∧ d.switchOut = false ∧ d.pc = c.pc ∧ d.a.s = c.a.s ∧
      d.a.v = c.a.v) ∧
  (∀ (c : Core) (i j k : Nat), i < 8 → j < 32 → k < 32 →
    tileAt (c.drainDone.a.rt (BitVec.ofNat 3 i)) j k = BitVec.ofNat 48 (Bin.af48.round Rnd.rneGrad (Bin.f32.decode
      (Bin.f32.round Rnd.rneGrad (Bin.af48.decode (tileAt (c.a.rt (BitVec.ofNat 3 i)) j k).toNat)).pat)).pat) ∧
  (∀ (s : State) (c : Core), let u : State := { s with core := c }
    (u.allSaved c.job c.rank = false → s.coreSaved c = u) ∧ (u.allSaved c.job c.rank = true → s.coreSaved c = u.switchedOut c.job c.rank))

/-- R237, R295, R304: the context that the arbiter has chosen starts on its seat: its saved cores run again with their tables loaded, no
translation held, and the banks hold the image's bytes. It first waits for tables in other modules (log 34, DEDUCED). -/
def Claims.ContextsAreRestored : Prop :=
  (∀ s : State, s.nextStart = none → exec .contextRestore s = .next s) ∧
  (∀ (s : State) (l : Launch) (r : Rank) (b f : Nat), s.nextStart = some l → s.rankOf l.job l.rank = some r → s.seatOf l.job l.rank = some (b, f) →
    (s.restoreAway r b = [] → exec .contextRestore s = .next (s.startContext l s.beat).clearPrep) ∧
    (∀ y ys, s.restoreAway r b = y :: ys → exec .contextRestore s = .next (s.askPrep l.job l.rank (y :: ys)))) ∧
  (∀ (s : State) (l : Launch) (r : Rank) (b : Nat) (c : Core) (k pc : Nat) (x : Word64) (tomb : Vector (BitVec 1024) 32), l.cores = [] →
    s.rankOf l.job l.rank = some r → r.base = some b → r.image.cores = [c] → c.run = .saved k pc x →
    s.restoreTable { c.rebase b with acq := s.beat, readyAt := max c.readyAt s.beat } = .ok tomb →
    ∃ d, s.startCores l r b s.beat = .ok [d] ∧ d.run = .running ∧ d.tomb = tomb ∧ d.a = c.a ∧ d.pc = c.pc ∧ d.acq = s.beat ∧
      d.pclus = b + c.coreid / 128 ∧ d.pcore = c.coreid % 128)

/-- R222, R227, R229, R266, R302: a trap that goes to firmware stops its footprint, whose image is saved once every core is still; a core
without a launch is saved alone, with the trap's cause, PC and TRAPAUX, or the cause and TRAPAUX of the reload that its rollback brings about and
that fails. -/
def Claims.FirmwareTraps : Prop :=
  ∀ (s : State) (r : TrapReq), s.core.firmwareTrap = some r →
    (s.launchOf s.core.job s.core.rank = none → s.quiesced s.core = true →
      (s.rollbackAway s.core r = [] → ∃ t, exec .firmwareRoutedTrap s = .next t ∧ t.mem = s.mem ∧
        (s.core.run = .running → t.core.run = .saved (s.savedAs s.core r).1 r.pc (s.savedAs s.core r).2) ∧ t.core.trap = none) ∧
      (∀ y ys, s.rollbackAway s.core r = y :: ys →
        exec .firmwareRoutedTrap s = .next (s.askTable (s.core.unwind r).a.rngt.toNat (y :: ys)))) ∧
    ((s.core.rollsBack r.kind = false ∨ s.core.shadow.rngt = s.core.a.rngt) → s.savedAs s.core r = (r.cause, r.aux)) ∧
    (∀ l, s.launchOf s.core.job s.core.rank = some l → l.cancel = none → (l.committed = 0 ∨ s.core.cancels = none) →
      (l.stopAt = none → exec .firmwareRoutedTrap s = .next (s.setLaunch { l with stopAt := some r.beat })) ∧
      (l.stopAt ≠ none → s.core.owesHeld = false → s.rollbackAway s.core r = [] → s.trapReady l = true → exec .firmwareRoutedTrap s = .next (s.endTrapped l)) ∧
      (l.stopAt ≠ none → s.core.owesHeld = false → s.rollbackAway s.core r = [] → s.trapReady l = false → exec .firmwareRoutedTrap s = .next s) ∧
      (∀ y ys, l.stopAt ≠ none → s.core.owesHeld = false → s.quiesced s.core = true → s.rollbackAway s.core r = y :: ys →
        exec .firmwareRoutedTrap s = .next (s.askTable (s.core.unwind r).a.rngt.toNat (y :: ys))) ∧
      (l.stopAt ≠ none → s.core.owesHeld = true → s.quiesced s.core = true → ∃ t, exec .firmwareRoutedTrap s = .next t ∧ t.core.held = [] ∧
        t.mem = s.mem ∧ t.perfs.length = s.perfs.length + s.core.held.length))

/-- R179, R188: a tape bank without room for the records of another bundle sends its oldest 4,096 bytes to their homes, and gives them up once
they have performed there; with no TAPE bank records that hold their old bytes go straight home; reverse mode that finds less than the records
of a bundle brings up to 4,096 bytes back, a free number of beats later (log 32). -/
def Claims.TapeMoves : Prop :=
  (∀ (s : State), s.tapeBank s.core = true → 65536 < s.core.a.tape.length + 304 →
    let base := s.core.a.tapep.toNat - s.core.a.tape.length
    let r := s.withPages s.core (fun c => match s.tapeLocs c true base (base + 4096) with | .ok _ => .ok [] | .error f => .error f) 4
    (∀ ls : List Loc, s.core.a.tapeHome < base + 4096 → s.tapeLocs r.1 true base (base + 4096) = .ok ls →
      ∃ t p, exec .tapeSpill s = .next t ∧ t.perfs = s.perfs ++ [p] ∧ p.due = s.beat + 3 ∧
        p.ws = wholeBytes ls (s.core.a.tape.take 4096) ∧ t.core.a = { s.core.a with tapeHome := base + 4096 } ∧ t.mem = s.mem) ∧
    (base + 4096 ≤ s.core.a.tapeHome → s.tapeOut s.core = false →
      exec .tapeSpill s = .next { s with core := { s.core with a := { s.core.a with tape := s.core.a.tape.drop 4096 } } }) ∧
    (base + 4096 ≤ s.core.a.tapeHome → s.tapeOut s.core = true → exec .tapeSpill s = .next s)) ∧
  (∀ s : State, (s.core.a.tape.length + 304 ≤ 65536 ∨ s.tapeBank s.core = false) →
    (s.core.flushing = true → s.flushLeft s.core = true → exec .tapeSpill s = .next (s.flushTape s.beat)) ∧
    ((s.core.flushing = false ∨ s.flushLeft s.core = false) →
      (s.tapeBank s.core = true → exec .tapeSpill s = .next s) ∧
      (s.tapeBank s.core = false → exec .tapeSpill s = .next s.homeRecords))) ∧
  (∀ s : State,
    let base := s.core.a.tapep.toNat - s.core.a.tape.length
    let lo := max s.core.a.tapeHome base
    let hi := s.firstOpen s.core
    (∀ ls, s.tapeDue s.core lo hi = some ls → ∃ p, s.homeRecords.perfs = s.perfs ++ [p] ∧ p.due = s.beat ∧
      p.ws = wholeBytes ls ((s.core.a.tape.drop (lo - base)).take (hi - lo)) ∧ s.homeRecords.core.a = { s.core.a with tapeHome := hi } ∧
      s.homeRecords.mem = s.mem) ∧
    (s.tapeDue s.core lo hi = none →
      (s.core.a.adjmode = 2#2 → s.homeRecords = s) ∧
      (s.core.a.adjmode ≠ 2#2 → s.homeRecords =
        { s with core := { s.core with a := { s.core.a with tape := s.core.a.tape.drop (min hi s.core.a.tapeHome - base) } } }))) ∧
  (∀ (s : State) (ls : List Loc), s.core.wantsRefill = true →
    let hi := s.core.a.tapep.toNat - s.core.a.tape.length
    let r := s.withPages s.core (fun c => match s.tapeLocs c false (hi - 4096) hi with | .ok _ => .ok [] | .error f => .error f) 4
    s.tapeLocs r.1 false (hi - 4096) hi = .ok ls →
    (s.tapeOut s.core = true → exec .tapeRefill s = .next s) ∧
    (s.tapeOut s.core = false → ls.filter Loc.away = [] →
    (s.core.tapeFill = none → ∃ t b, exec .tapeRefill s = .next t ∧ t.core.tapeFill = some b ∧ s.beat < b ∧ t.core.a = s.core.a ∧
      t.mem = s.mem) ∧
    (∀ b, s.core.tapeFill = some b → s.beat < b → exec .tapeRefill s = .next s) ∧
    (∀ b, s.core.tapeFill = some b → b ≤ s.beat → ∃ t, exec .tapeRefill s = .next t ∧ t.core.tapeFill = none ∧ t.mem = s.mem ∧
      t.core.a = { s.core.a with
        tape := ls.map (fun l => (s.ownByte s.core 0 [] s.core.fetchGot (s.ownEarlier s.core s.beat) l).1) ++ s.core.a.tape
        tapeHome := max s.core.a.tapeHome hi }))) ∧
  (∀ s : State, s.core.wantsRefill = false → exec .tapeRefill s = .next { s with core := { s.core with tapeFill := none } })

/-! ## Security and power -/

/-- R325: a device that is not booted runs the image when every check passes, and else stays in recovery with the reason (of several the
first in the model's order, log 26). -/
def Claims.Boots : Prop :=
  ∀ (s : State) (b : BootImage),
    (s.pk.booted = true → exec (.boot b) s = .next s) ∧
    (s.pk.booted = false → ∃ t, exec (.boot b) s = .next t ∧ t.mem = s.mem ∧ t.core = s.core ∧ t.pk.fsvn = b.fsvn ∧
      (b.readable = true → b.fuses = true → b.rsaOk = true → b.slhOk = true → b.fsvn ≤ b.svn → b.mismatch = false →
        t.pk.booted = true ∧ t.pk.reason = 0 ∧ t.pk.svn = b.svn) ∧
      (b.readable = true → b.fuses = true → b.rsaOk = false → t.pk.booted = false ∧ t.pk.reason = 1) ∧
      (b.readable = true → b.fuses = true → b.rsaOk = true → b.slhOk = false → t.pk.booted = false ∧ t.pk.reason = 2) ∧
      (b.readable = true → b.fuses = true → b.rsaOk = true → b.slhOk = true → b.svn < b.fsvn → t.pk.booted = false ∧ t.pk.reason = 3) ∧
      (b.readable = false → t.pk.booted = false ∧ t.pk.reason = 4) ∧
      (b.readable = true → b.fuses = false → t.pk.booted = false ∧ t.pk.reason = 5))

/-- R307, R328: a glitch raises the alarm to level 2, a mesh breach to level 3; at level 2 keys and sessions are gone; the breach erases the
seed as well. A lock-step mismatch is noted; with a security checker it raises level 2; a second one within 2^30 beats kills every context
with status 0x15. -/
def Claims.Alarms : Prop :=
  (∀ s : State, s.pk.launches = [] → ∃ t, exec .glitchSensor s = .next t ∧ t.pk.alarm % 16 = max (s.pk.alarm % 16 % 4) 2 ∧
    t.pk.alarm.testBit 4 = true ∧ t.pk.keysErased = true ∧ t.pk.sessions = [] ∧ t.pk.peerKeys = [] ∧ t.mem = s.mem) ∧
  (∀ s : State, s.pk.launches = [] → ∃ t, exec .meshBreach s = .next t ∧ t.pk.alarm % 16 = 3 ∧ t.pk.alarm.testBit 5 = true ∧
    t.pk.keysErased = true ∧ t.pk.seedErased = true ∧ t.mem = s.mem) ∧
  (∀ s : State, s.pk.mismatch = none → exec (.lockstepMismatch false) s = .next { s with pk := { s.pk with mismatch := some s.beat } }) ∧
  (∀ s : State, s.pk.mismatch = none → s.pk.launches = [] → ∃ t, exec (.lockstepMismatch true) s = .next t ∧ t.pk.mismatch = some s.beat ∧
    t.pk.keysErased = true ∧ 2 ≤ t.pk.alarm % 4 ∧ t.pk.alarm.testBit 7 = true) ∧
  (∀ (s : State) (b : Nat), s.pk.mismatch = some b → (s.beat ≤ b + 2 ^ 30 → exec (.lockstepMismatch false) s = .next (s.killAll 0x15 true)) ∧
    (b + 2 ^ 30 < s.beat → exec (.lockstepMismatch false) s = .next { s with pk := { s.pk with mismatch := some s.beat } }))

/-- R279, R299, R323: the poison function scrubs a poisoned page to zeros, or retires it, in hardware mode; in host mode it asks and does
nothing. Cores in free-running code lose their translations of a retired page; what a timetabled launch has pinned stays. -/
def Claims.PoisonScrubs : Prop :=
  ∀ (s : State) (pg : Nat), pg < 2 ^ 30 → s.Canonical →
    (pg ∈ s.poison → s.asksHost 2 = false → ∃ t, exec (.poisonScrub pg true) s = .next t ∧ pg ∉ t.poison ∧
      (∀ k, pg * 4096 ≤ k → k < pg * 4096 + 4096 → t.mem.get k = 0#8) ∧
      (∀ k, ¬(pg * 4096 ≤ k ∧ k < pg * 4096 + 4096) → t.mem.get k = s.mem.get k) ∧ (∀ q ∈ s.poison, q ≠ pg → q ∈ t.poison)) ∧
    (∀ scrub, (pg ∉ s.poison ∨ s.asksHost 2 = true) → exec (.poisonScrub pg scrub) s = .next s) ∧
    (pg ∈ s.poison → s.asksHost 2 = false → (s.mappers pg).any (fun x => bits x.e 5 3 != 0) = false →
      ∃ t, exec (.poisonScrub pg false) s = .next t ∧ pg ∉ t.poison ∧ t.pk.spares = s.pk.spares + 1 ∧
        ∀ c ∈ t.allCores, c.timetabled = false → ∀ e ∈ c.tlb, ¬(e.out ≤ pg * 4096 ∧ pg * 4096 < e.out + e.size))

/-- R329: THROT takes the level; at level 3 launches are held until level 0 and free-running cores are pre-empted. The management
controller reads the throttle level, the alarm and BOOTSTAT. -/
def Claims.ThrottleAndManagement : Prop :=
  (∀ (s : State) (n : Nat), n < 3 → ∃ t, exec (.throttleChange n) s = .next t ∧ t.pk.throt = n ∧ t.mem = s.mem ∧ t.core = s.core ∧
    t.pk.throtHold = (if n = 0 then false else s.pk.throtHold)) ∧
  (∀ s : State, (∀ l ∈ s.pk.launches, l.timetabled = false) → ∃ t, exec (.throttleChange 3) s = .next t ∧ t.pk.throt = 3 ∧ t.pk.throtHold = true ∧
    t.mem = s.mem ∧ ∀ l ∈ s.pk.launches, ∀ c ∈ t.allCores, c.ofRank l.job l.rank = true → c.urgent = true) ∧
  (∀ s : State, ∃ t a b, exec .mctpRead s = .next t ∧ t.mem = s.mem ∧ t.core = s.core ∧
    t.pk.out = s.pk.out ++ [.mctp [a, b, BitVec.ofNat 64 s.pk.throt, BitVec.ofNat 64 s.pk.alarm, s.bootstat]])

/-- R311: a write to a reserved or read-only word of BAR0 changes nothing; one to the interrupt remap table or the MSI-X table is kept. -/
def Claims.Bar0Words : Prop :=
  ∀ (s : State) (off : Nat) (v : Word64), off % 8 = 0 → off < 2 ^ 20 →
    ((off < 0x10 ∨ (0x18 ≤ off ∧ off < 0x10000) ∨ (0x10200 ≤ off ∧ off < 0x20000) ∨ (0x30000 ≤ off ∧ off < 0x40000) ∨
        (0x60000 ≤ off ∧ off < 0x80000) ∨ 0x90000 ≤ off) →
      exec (.bar0RegisterWrite off v) s = .next s) ∧
    (((0x20000 ≤ off ∧ off < 0x30000) ∨ (0x80000 ≤ off ∧ off < 0x90000)) → ∃ t, exec (.bar0RegisterWrite off v) s = .next t ∧ t.bar0Word off = v ∧
      (∀ x, x ≠ off → t.bar0Word x = s.bar0Word x) ∧ t.mem = s.mem ∧ t.core = s.core)

/-! ## The fabric -/

/-- R325, R330, R332: what no port can receive is no input, nor is a flit of another kind that of the row; a dead link delivers nothing, and a
module that has not booted takes none; an idle flit shows that the link lives, and one of a reserved kind is discarded and counted as a link
error. -/
def Claims.FlitsArrive : Prop :=
  ∀ (mk : Flit → Instr) (kind : Nat), FlitKind mk kind → ∀ (s : State) (f : Flit),
    (flitOk f = false → exec (mk f) s = .fault .noSuchInput) ∧
    (flitOk f = true → 0 < fKind f → fKind f < 10 → fKind f ≠ kind → exec (mk f) s = .fault .noSuchInput) ∧
    (flitOk f = true → (fKind f = 0 ∨ fKind f = kind ∨ 10 ≤ fKind f) →
      (((s.portOf f.port).alive = false ∨ s.pk.booted = false) → exec (mk f) s = .next s) ∧
      ((s.portOf f.port).alive = true → s.pk.booted = true →
        (fKind f = 0 → exec (mk f) s = .next (noted s f)) ∧
        (10 ≤ fKind f → let t := noted s f
          exec (mk f) s = .next { t with pk := { t.pk with linkErrs := t.pk.linkErrs + 1 } })))

/-- R330, R335, R336: write, read and atomic requests are served at their target and answered, when every piece of their data is here; a plain
write changes its bytes and no others, a read returns them, an atomic returns the old word and changes that word only (a flit that brings its
layout alone names no operation: its new word is a free value, log 21). -/
def Claims.RequestsAreServed : Prop :=
  (∀ (s : State) (f : Flit), Arrives 1 s f → exec (.writeRequestFlit f) s = .next ((noted s f).serveFlit f .write)) ∧
  (∀ (s : State) (f : Flit), Arrives 2 s f → exec (.readRequestFlit f) s = .next ((noted s f).serveFlit f .read)) ∧
  (∀ (s : State) (f : Flit), Arrives 3 s f → exec (.atomicRequestFlit f) s = .next ((noted s f).serveFlit f .atomic)) ∧
  (∀ (s : State) (f : Flit) (kind : FlatKind),
    ((f.req = none ∨ ∃ b, f.req = some b ∧ b.kind ≠ kind) → s.serveFlit f kind = s.serve f.port (reqOf f kind)) ∧
    (∀ b, f.req = some b → b.kind = kind → let r := { b with job := f.job, smod := fSmod f, req := fCtx f, tag := fTag f }
      (∀ t bs, s.assemble f r = (t, some bs) → s.serveFlit f kind = t.serve f.port (withWire r bs)) ∧
      (∀ t, s.assemble f r = (t, none) → s.serveFlit f kind = t))) ∧
  (∀ (s : State) (f : Flit) (b : FlatReq), flitOk f = true → f.count ≤ 48 → fWord f 0 = flatAddr b → f.count = (wireOf b).length →
    (∀ x ∈ s.pk.parts, ¬(x.1 = fSmod f ∧ x.2.1 = fCtx f)) →
    s.assemble f b = (s, some ((f.payload.drop 8).take f.count))) ∧
  (∀ (s : State) (f : FlatReq) (n : Nat), s.Canonical → f.opc = 0xA0 → f.rank = physRank →
    (∀ i < n, paHbm (f.off + i) = true ∨ paCold (f.off + i) = true) →
    (f.kind = .write → f.data.length = n →
      ((∀ i < n, s.pagePoisoned (f.off + i) = false) → ∃ t, s.serveRaw f [] = (t, ⟨0, [], 0⟩, []) ∧ (∀ i < n, t.mem.get (f.off + i) = f.data.getD i 0#8) ∧
        (∀ k, ¬(f.off ≤ k ∧ k < f.off + n) → t.mem.get k = s.mem.get k)) ∧
      ((∃ i < n, s.pagePoisoned (f.off + i) = true) → ∃ i, s.serveRaw f [] = (s, ⟨2, [], i⟩, []))) ∧
    (f.kind = .read → f.count = n → let bs := (List.range n).map (fun i => s.mem.get (f.off + i))
      ((∀ i < n, s.homePoisoned (f.off + i) = false) → s.serveRaw f [] = (s, ⟨0, bs, 0⟩, [])) ∧
      ((∃ i < n, s.homePoisoned (f.off + i) = true) → ∃ i, s.serveRaw f [] = (s, ⟨2, bs, i⟩, [])))) ∧
  (∀ (s : State) (f : FlatReq) (a : Nat), f.kind = .read → f.opc = 0xA0 → f.rank = physRank → f.off ≤ a → a < f.off + f.count →
    paHbm a = false → paCold a = false → ∃ i, s.serveRaw f [] = (s, ⟨1, [], i⟩, [])) ∧
  (∀ (s : State) (f : Flit), Arrives 3 s f → s.Canonical → f.req = none → (fWord f 0).testBit 55 = false → let a := bits (fWord f 0) 0 42
    let port := (noted s f).routeOf (fSmod f) (fCtx f)
    ((noted s f).portOf port).alive = true → (∀ i < 8, (paHbm (a + i) = true ∨ paCold (a + i) = true) ∧ s.homePoisoned (a + i) = false) →
    ∃ t x, exec (.atomicRequestFlit f) s = .next t ∧ t.pk.out = s.pk.out ++ [.flit x] ∧ x.port = port ∧ fKind x = 4 ∧ fCtx x = fCtx f ∧
      (x.payload.take 16).drop 8 = (List.range 8).map (fun i => s.mem.get (a + i)) ∧
      (∀ k, ¬(a ≤ k ∧ k < a + 8) → t.mem.get k = s.mem.get k))

/-- R275, R276, R281, R331, R336: a reply settles its request: at once when it failed or wrote, else when every byte has come, poisoned bytes
among them. An access that reaches its target on this module is served, and its answer settles the access of this module, or goes to its
issuer; what lies in a third module is asked for there first. -/
def Claims.RepliesSettle : Prop :=
  (∀ (s : State) (f : Flit), Arrives 4 s f → let a := noted s f
    let w := fWord f 0
    (s.pk.remotes.find? (fun x => x.ctx == fCtx f && x.port != 0xFFFF && !x.held) = none → exec (.replyFlit f) s = .next a) ∧
    (∀ rm, s.pk.remotes.find? (fun x => x.ctx == fCtx f && x.port != 0xFFFF && !x.held) = some rm → let st := bits w 0 8
      (rm.body.kind = .write → exec (.replyFlit f) s = .next (a.settle rm st [] f.info)) ∧
      (rm.body.kind ≠ .write → st ≠ 0 → (st ≠ 2 ∨ bits w 32 16 = 0) → exec (.replyFlit f) s = .next (a.settle rm st [] f.info)) ∧
      (rm.body.kind ≠ .write → (st = 0 ∨ st = 2) → rm.data = [] → bits w 16 16 = 0 → rm.want = bits w 32 16 → 0 < rm.want → rm.want ≤ 48 →
        exec (.replyFlit f) s = .next (a.settle rm st ((f.payload.drop 8).take rm.want) f.info)))) ∧
  (∀ (s : State) (r : FlatReq), s.pk.remotes.find? (fun x => x.port == 0xFFFF && x.body == r && !x.held) = none →
    exec (.flatAccessAtTarget r) s = .next (s.serve (s.routeOf r.smod r.req) r)) ∧
  (∀ (s : State) (r : FlatReq) (rm : Remote), s.pk.remotes.find? (fun x => x.port == 0xFFFF && x.body == r && !x.held) = some rm →
    ((s.behind rm = true ∨ s.atTarget rm = true) → exec (.flatAccessAtTarget r) s = .next s) ∧
    (s.behind rm = false → s.atTarget rm = false → exec (.flatAccessAtTarget r) s = .next (s.serve 0xFFFF rm.body))) ∧
  (∀ (s t : State) (port : Nat) (r : FlatReq),
    (s.serveFlat port r = (t, none) → s.serve port r = t) ∧
    (∀ a, s.serveFlat port r = (t, some a) →
      (port ≠ 0xFFFF → s.serve port r = t.sendReply r.smod (t.ownModule r.job) r.req a) ∧
      (∀ rm, port = 0xFFFF → t.pk.remotes.find? (fun x => x.ctx == r.req && x.port == 0xFFFF) = some rm →
        s.serve port r = t.settleOwn rm a.st a.data a.info))) ∧
  (∀ (s : State) (port : Nat) (r : FlatReq), let x := s.serveWith r []
    (x.2.1.st = 1 → s.serveHere port r = (s, some x.2.1)) ∧
    (x.2.1.st ≠ 1 → s.thirdReads r = [] → x.2.2 = [] → s.thirdAtomics r = [] → s.serveHere port r = (x.1, some x.2.1)) ∧
    (∀ y ys, x.2.1.st ≠ 1 → s.thirdReads r = y :: ys → ∃ t p, s.serveHere port r = (t, none) ∧ t.pk.proxies = s.pk.proxies ++ [p] ∧
      p.req = r ∧ p.port = port ∧ t.mem = s.mem))

/-- R276, R333, R347, R354, R356: what an access meets at its target before it is served: a rank that moves holds it, one that is dead or not
there refuses it, a late tag is counted and refused, a tombstone forwards it to the new module, over a live route or with a dead link's answer,
and later refuses it as moved. -/
def Claims.TargetsAnswer : Prop :=
  (∀ (s : State) (port : Nat) (f : FlatReq), f.rank < physRank →
    (∀ r, s.rankOf f.job f.rank = some r →
      (r.moving = true → s.serveFlat port f = ({ s with pk := { s.pk with heldReqs := s.pk.heldReqs ++ [(port, f)] } }, none)) ∧
      (r.moving = false → r.st = .dead → s.serveFlat port f = (s, some ⟨1, [], 0⟩)) ∧
      (r.moving = false → r.st ≠ .dead → f.kind ≠ .read → f.tagged = true → lateTag r.atag f.tag = true →
        s.serveFlat port f = (s.setRank { r with latec := min (r.latec + 1) (2 ^ 32 - 1) }, some ⟨4, [], 0⟩)) ∧
      (r.moving = false → r.st ≠ .dead → (f.kind = .read ∨ f.tagged = false ∨ lateTag r.atag f.tag = false) →
        s.serveFlat port f = s.serveHere port f)) ∧
    (s.rankOf f.job f.rank = none →
      (∀ t, s.pk.tombs.find? (fun t => t.job == f.job && t.rank == f.rank && !t.ended) = some t →
        s.serveFlat port f = s.forward port f t.target) ∧
      (s.pk.tombs.find? (fun t => t.job == f.job && t.rank == f.rank && !t.ended) = none →
        (s.pk.tombs.any (fun t => t.job == f.job && t.rank == f.rank && t.ended) = true → s.serveFlat port f = (s, some ⟨3, [], 0⟩)) ∧
        (s.pk.tombs.any (fun t => t.job == f.job && t.rank == f.rank && t.ended) = false → s.serveFlat port f = (s, some ⟨1, [], 0⟩))))) ∧
  (∀ (s : State) (port : Nat) (f : FlatReq), physRank ≤ f.rank → s.serveFlat port f = s.serveHere port f) ∧
  (∀ (s : State) (port m : Nat) (f : FlatReq), let p := s.routeOf m f.req
    (port ≠ 0xFFFF → (s.portOf p).alive = true → s.forward port f m = (s.sendBody p m f.req (returnsOf f) f, none)) ∧
    (port ≠ 0xFFFF → (s.portOf p).alive = false → s.forward port f m = (s, some ⟨5, [], 0⟩)) ∧
    (∃ t, s.forward 0xFFFF f m = (t, none) ∧ t.mem = s.mem ∧ ∀ x ∈ t.pk.remotes, x.ctx = f.req → x.port ≠ 0xFFFF)) ∧
  (∀ (s : State) (f : FlatReq),
    (∀ t, s.pk.tombs.find? (fun t => t.job == f.job && t.rank == f.rank && !t.ended) = some t →
      (∀ x ∈ s.pk.remotes, ¬(x.port = 0xFFFF ∧ x.body = f)) → let port := s.routeOf f.smod f.req
      (∀ u, s.forward port f t.target = (u, none) → exec (.tombstoneForward f) s = .next u) ∧
      (∀ u a, s.forward port f t.target = (u, some a) → exec (.tombstoneForward f) s = .next (u.answer port f a))) ∧
    (∀ t x, s.pk.tombs.find? (fun t => t.job == f.job && t.rank == f.rank && !t.ended) = some t → x ∈ s.pk.remotes → x.port = 0xFFFF → x.body = f →
      exec (.tombstoneForward f) s = .next (s.forward 0xFFFF f t.target).1) ∧
    (s.pk.tombs.find? (fun t => t.job == f.job && t.rank == f.rank && !t.ended) = none → exec (.tombstoneForward f) s = .next s))

/-- R331, R332, R333, R334: a retry is counted and the sixteenth kills the link, a silent link dies, a link that comes up is alive; a beat
flit is noted, and with a joined reference an alignment more than 16 beats off kills the link. -/
def Claims.Links : Prop :=
  ∀ (s : State) (n : Nat), n < 144 → let p := s.portOf n
    (p.alive = true → p.retries + 1 < 16 → exec (.linkRetry n) s = .next (s.setPort { p with retries := p.retries + 1 })) ∧
    (p.alive = true → 16 ≤ p.retries + 1 → exec (.linkRetry n) s = .next (s.killPort n)) ∧
    (p.alive = true → s.beat < p.last + 4096 → exec (.linkSilenceTimeout n) s = .next s) ∧
    (p.last + 4096 ≤ s.beat → exec (.linkSilenceTimeout n) s = .next (s.killPort n)) ∧
    (∀ flight, exec (.linkBringUp n flight) s = .next (s.setPort { p with
      alive := true, retries := 0, last := s.beat, flight := flight, seen := none })) ∧
    (s.pk.colls = [] → s.pk.remotes = [] → ((s.killPort n).portOf n).alive = false ∧ (s.killPort n).mem = s.mem) ∧
    (∀ f, Arrives 8 s f → f.port = n → let far := fWord f 0 + p.flight
      let a := (noted s f).setPort { (noted s f).portOf n with seen := some (fWord f 0, s.beat) }
      (s.pk.beatRef = false ∨ (far ≤ s.beat + 16 ∧ s.beat ≤ far + 16) → exec (.beatFlit f) s = .next a) ∧
      (s.pk.beatRef = true → (s.beat + 16 < far ∨ far + 16 < s.beat) → exec (.beatFlit f) s = .next (a.killPort n)))

/-! ## Collectives -/

/-- R340, R343, R347, R350: a transfer of the current tag lands at its place of its chunk, or of the staging area of a sum, and is counted; the
chunk is full when its bytes have come. Too many bytes fail the collective with reason 6, a place that cannot be written with reason 8; a late
tag is only counted. One for a rank that has moved away fails the collective with reason 4. -/
def Claims.TransfersAreCounted : Prop :=
  (∀ (s : State) (f : Flit), Arrives 5 s f → let w := fWord f 0
    (∀ i, (noted s f).collFor f.job f.rank (bits w 0 16) = some i → exec (.collectiveDataFlit f) s =
      .next ((noted s f).collPlace i (bits w 16 16) (bits w 32 4) (bits w 36 28) (fTag f) ((f.payload.drop 8).take f.count))) ∧
    ((noted s f).collFor f.job f.rank (bits w 0 16) = none → exec (.collectiveDataFlit f) s =
      .next ((noted s f).strayFlit f.job f.rank (bits w 0 16) (fTag f) (fSmod f)))) ∧
  (∀ (s : State) (job rank cid tag smod : Nat), let t := s.strayFlit job rank cid tag smod
    (s.movedTarget job rank = false → t.mem = s.mem ∧ t.pk.colls = s.pk.colls ∧
      ∀ r, s.rankOf job rank = some r → t.rankOf job rank = some (if tag % 256 = r.atag then r else { r with latec := min (r.latec + 1) (2 ^ 32 - 1) })) ∧
    (∀ k, s.movedTarget job rank = true → s.pk.colls = [k] → k.job = job → k.cid = cid → k.failed = none →
      ∃ x, t.pk.colls = [x] ∧ x.failed = some 4)) ∧
  (∀ (s : State) (i chunk slot off tag : Nat) (data : List Byte) (k : Coll) (r : Rank) (c : Chunk) (ws : List (Spot × Byte)), s.pk.colls[i]? = some k →
    k.failed = none → s.rankOf k.job k.rank = some r → k.chunks[chunk]? = some c →
    let a := if c.opf = 0 then c.addr + off else c.stg + slot * c.len + off
    (tag % 256 ≠ r.atag → ∃ x, (s.collPlace i chunk slot off tag data).pk.colls[i]? = some x ∧
      x = { k with late := min (k.late + 1) (2 ^ 32 - 1) } ∧ (s.collPlace i chunk slot off tag data).mem = s.mem) ∧
    (tag % 256 = r.atag → (c.len < off + data.length ∨ c.expect < c.count + data.length) →
      s.collPlace i chunk slot off tag data = s.failColl i 6) ∧
    (tag % 256 = r.atag → off + data.length ≤ c.len → c.count + data.length ≤ c.expect → (∃ j < data.length, s.collAt k (a + j) true = none) →
      s.collPlace i chunk slot off tag data = s.failColl i 8) ∧
    (tag % 256 = r.atag → off + data.length ≤ c.len → c.count + data.length ≤ c.expect →
      (List.range data.length).map (fun j => s.collAt k (a + j) true) = ws.map (fun w => some w.1) →
      ws.map Prod.snd = data → (∀ w ∈ ws, w.1.pageBad s = false) →
      let t := s.collPlace i chunk slot off tag data
      t.mem = (s.collPut k ws).mem ∧ ∃ x d, t.pk.colls[i]? = some x ∧ x.chunks[chunk]? = some d ∧ d.count = c.count + data.length ∧
        (d.full ≠ none ↔ d.count = c.expect) ∧ (d.done ≠ none ↔ d.count = c.expect ∧ c.opf = 0)))

/-- R342, R349, R352: a send that may start reads its source once and sends it, after the bytes of other modules have come; a shift that stands
fails it with reason 5, but for a send that a tile starts, and a source that cannot be read with reason 7. -/
def Claims.SendsStart : Prop :=
  ∀ (s : State) (i j : Nat) (k : Coll) (x : Send), s.pk.colls[i]? = some k → k.sends[j]? = some x →
    (s.sendReady k x = false → exec (.collectiveSend i j) s = .next s) ∧
    (s.sendReady k x = true → k.pshift ≠ [] → x.trig = false → exec (.collectiveSend i j) s = .next (s.failColl i 5)) ∧
    (∀ l ls, s.sendReady k x = true → (k.pshift = [] ∨ x.trig = true) → k.missing (s.collSpots k x.src x.len false) = l :: ls →
      (s.collWaits k = true → exec (.collectiveSend i j) s = .next s) ∧
      (s.collWaits k = false → exec (.collectiveSend i j) s = .next (s.collAsk k 7 (l :: ls)))) ∧
    (s.sendReady k x = true → (k.pshift = [] ∨ x.trig = true) → k.missing (s.collSpots k x.src x.len false) = [] → k.kind ≠ 1 →
      let u := s.setColl i { k with sends := k.sends.set j { x with sent := true }, got := [] }
      (∀ bs, u.collRead k x.src x.len = some bs → exec (.collectiveSend i j) s = .next (u.collSend i k x.dmem x.dch x.slot x.doff bs)) ∧
      (u.collRead k x.src x.len = none → exec (.collectiveSend i j) s = .next (u.failColl i 7))) ∧
    (s.sendReady k x = true → (k.pshift = [] ∨ x.trig = true) → k.missing (s.collSpots k x.src x.len false) = [] → k.kind = 1 → let n := 2 ^ k.lbits
      exec (.collectiveSend i j) s = .next ((List.range n).foldl (fun (u : State) l => match u.pk.colls[i]? with
        | none => u
        | some y => if y.failed.isSome then u else match u.collRead k (x.src + 2 ^ k.le * l) (2 ^ k.le) with
          | none => u.failColl i 7
          | some bs => let g := permIndex k.perm (k.me * n + l); u.collSend i k (g / n) 0 0 (2 ^ k.le * (g % n)) bs)
        (s.setColl i { k with sends := k.sends.set j { x with sent := true }, got := [] })))

/-- R342: when a send may start: not sent, its collective not failed; at its stamp and the beat after the chunk it waits for, or at its
tile's fire. -/
def Claims.SendsWait : Prop :=
  ∀ (s : State) (k : Coll) (x : Send), k.failed = none → x.sent = false → k.armed ≤ s.beat →
    (x.trig = true → (s.sendReady k x = true ↔ ∃ b, x.fire = some b ∧ b ≤ s.beat)) ∧
    (x.trig = false → x.after = 0 → (s.sendReady k x = true ↔ x.ofs ≤ s.beat)) ∧
    (∀ c d, x.trig = false → x.after ≠ 0 → k.chunks[x.after - 1]? = some c → c.done = some d →
      (s.sendReady k x = true ↔ x.ofs ≤ s.beat ∧ d + 1 ≤ s.beat)) ∧
    (∀ c, x.trig = false → x.after ≠ 0 → k.chunks[x.after - 1]? = some c → c.done = none → s.sendReady k x = false)

/-- R344, R345, R351: a full sum chunk is folded in slot order, element by element, once no byte of another module is missing; when every chunk is
complete the flag word is written; a flag not written at its limit fails the collective with reason 2, a buffer of another module that failed
with its reason. -/
def Claims.CollectivesComplete : Prop :=
  (∀ (s : State) (i : Nat) (k : Coll), s.pk.colls[i]? = some k →
    (k.failed = none → k.flagged = none → k.armed ≤ s.beat → (∀ c ∈ k.chunks, c.done ≠ none) → s.collWaits k = false →
      exec (.collectiveComplete i) s = .next (s.writeFlag i k (flagWord k false 0))) ∧
    ((k.failed ≠ none ∨ k.flagged ≠ none ∨ s.beat < k.armed ∨ (∃ c ∈ k.chunks, c.done = none) ∨ s.collWaits k = true) →
      exec (.collectiveComplete i) s = .next s) ∧
    (∀ why, k.failed = none → k.bad = some why → exec (.collectiveTimeout i) s = .next (s.failColl i why)) ∧
    (k.flagged = none → k.failed = none → k.bad = none → k.tmo ≤ s.beat → exec (.collectiveTimeout i) s = .next (s.failColl i 2)) ∧
    ((k.failed ≠ none ∨ (k.bad = none ∧ (k.flagged ≠ none ∨ s.beat < k.tmo))) → exec (.collectiveTimeout i) s = .next s)) ∧
  (∀ (s : State) (i j : Nat) (k : Coll) (c : Chunk) (l : Loc) (ls : List Loc), s.pk.colls[i]? = some k → k.chunks[j]? = some c → k.failed = none →
    c.full ≠ none → c.done = none → c.opf ≠ 0 → s.collWaits k = false →
    k.missing (s.collSpots k c.addr c.len true ++ s.collSpots k c.stg (c.nop * c.len) true) = l :: ls →
    exec (.collectiveFold i j) s = .next (s.collAsk k 8 (l :: ls))) ∧
  (∀ (s : State) (i j : Nat) (k : Coll) (c : Chunk) (ws : List (Spot × Byte)), s.pk.colls[i]? = some k → k.chunks[j]? = some c → k.failed = none →
    c.full ≠ none → c.done = none → c.opf ≠ 0 → c.len % 4 = 0 → s.collWaits k = false →
    k.missing (s.collSpots k c.addr c.len true ++ s.collSpots k c.stg (c.nop * c.len) true) = [] →
    let rd := fun (a : Nat) => leNat ((List.range 4).map (fun j => match s.collAt k (a + j) true with | some l => s.collGet k l | none => 0#8))
    let elem := fun (e : Nat) => foldElem (c.opf == 1) ((List.range c.nop).map (fun n =>
      if n = 0 ∧ c.local0 = true then rd (c.addr + 4 * e) else rd (c.stg + n * c.len + 4 * e)))
    (List.range c.len).map (fun j => s.collAt k (c.addr + j) true) = ws.map (fun w => some w.1) →
    ws.map Prod.snd = (List.range (c.len / 4)).flatMap (fun e => leBytes 4 (elem e)) → (∀ w ∈ ws, w.1.pageBad s = false) →
    ∃ t x d, exec (.collectiveFold i j) s = .next t ∧ t.mem = (s.collPut k ws).mem ∧ t.pk.colls[i]? = some x ∧ x.chunks[j]? = some d ∧
      d.done = some s.beat) ∧
  (∀ a b : Nat, a < 2 ^ 32 → b < 2 ^ 32 → foldElem true [a, b] = (Bin.f32.round Rnd.rneGrad (xsum [Bin.f32.decode a, Bin.f32.decode b]).v).pat) ∧
  (∀ a b : BitVec 32, (foldElem false [a.toNat, b.toNat] : Int) =
    (BitVec.ofInt 32 (max (-(2 ^ 31)) (min (a.toInt + b.toInt) (2 ^ 31 - 1)))).toNat)

/-- R347, R350, R351: a member that fails keeps its first reason; its flag, when it was not written, takes the failure word; an ABORT of the
member's tag fails it with reason 1, or with its own time-out where that is over too; one of another tag is counted as late. -/
def Claims.CollectivesFail : Prop :=
  (∀ (s : State) (i why : Nat) (k : Coll), s.pk.colls[i]? = some k →
    (k.failed ≠ none → s.failAt i why = s) ∧
    (k.failed = none → ∃ x, (s.failAt i why).pk.colls[i]? = some x ∧ x.failed = some why ∧
      (k.flagged = none → x.flagged = some (flagWord k true why)) ∧ (k.flagged ≠ none → x.flagged = k.flagged ∧ (s.failAt i why).mem = s.mem))) ∧
  (∀ (s : State) (f : Flit), Arrives 6 s f → let w := fWord f 0
    exec (.abortFlit f) s = .next ((noted s f).abortHere ((noted s f).collsWith (bits w 32 32) (bits w 0 16)) (bits w 24 8) (bits w 16 7))) ∧
  (∀ (s : State) (i tag why : Nat) (k : Coll), s.pk.colls[i]? = some k →
    (tag % 256 = s.tagOf k.job k.rank k.tag → s.abortHere [i] tag why = s.failAt i (if why = 2 ∧ k.tmo ≤ s.beat then 2 else 1)) ∧
    (tag % 256 ≠ s.tagOf k.job k.rank k.tag → (s.abortHere [i] tag why).pk.colls[i]? = some { k with late := min (k.late + 1) (2 ^ 32 - 1) } ∧
      (s.abortHere [i] tag why).mem = s.mem)) ∧
  (∀ (k : Coll) (why : Nat), why < 128 → k.cid < 2 ^ 16 → k.late < 2 ^ 32 → let w := (flagWord k true why).toNat
    w / 2 ^ 63 = 1 ∧ w / 2 ^ 56 % 128 = why ∧ w / 2 ^ 48 % 256 = k.tag % 256 ∧ w / 2 ^ 32 % 2 ^ 16 = k.cid ∧ w % 2 ^ 32 = k.late)

/-- R347, R352: a SHIFT of the member's tag is taken once by each member here but its sender, and stands until a commit at least 64 beats later, which moves the
sends not yet sent and the limit. -/
def Claims.ShiftsAreTakenOnce : Prop :=
  (∀ (s : State) (f : Flit), Arrives 7 s f → exec (.shiftFlit f) s = .next ((noted s f).takeShift (bits (fWord f 0) 32 32) (bits (fWord f 0) 0 16)
    (bits (fWord f 0) 24 8) (bits (fWord f 1) 32 16) (bits (fWord f 1) 48 16) (bits (fWord f 1) 0 32))) ∧
  (∀ (s : State) (job cid tag sender num pl : Nat) (k : Coll), s.pk.colls = [k] → k.job = job → k.cid = cid →
    let t := s.takeShift job cid tag sender num pl
    (k.me = sender ∨ (sender, num) ∈ k.seen → t = s) ∧
    (k.me ≠ sender → (sender, num) ∉ k.seen → tag % 256 ≠ s.tagOf k.job k.rank k.tag →
      t.pk.colls = [{ k with late := min (k.late + 1) (2 ^ 32 - 1) }] ∧ t.mem = s.mem) ∧
    (k.me ≠ sender → (sender, num) ∉ k.seen → tag % 256 = s.tagOf k.job k.rank k.tag → t.pk.colls = [{ k with seen := (sender, num) :: k.seen, pshift := k.pshift ++ [(s.beat, pl)] }])) ∧
  (∀ (s : State) (k : Coll) (b : Nat) (pl : Nat), s.pk.colls = [k] → k.pshift = [(b, pl)] → let t := s.applyShifts k.job k.rank
    (b + 64 ≤ s.beat → t.2 = pl ∧ t.1.pk.colls = [{ k with
      pshift := [], tmo := k.tmo + pl, sends := k.sends.map (fun y => if y.sent then y else { y with ofs := y.ofs + pl }) }]) ∧
    (s.beat < b + 64 → t.2 = 0 ∧ ∃ x ∈ t.1.pk.colls, x.pshift = [(b, pl)] ∧ x.tmo = k.tmo))

/-! ## Map and migration -/

/-- R353: a new entry of the map is adopted when no access to the rank is outstanding, and waits while one is. -/
def Claims.MapIsAdopted : Prop :=
  ∀ (s : State) (job rank : Nat) (e : Half) (j : Job), s.jobOf job = some j →
    (s.accessesTo job rank = true → ∃ t, exec (.mapAdopt job rank e) s = .next t ∧ t.mapPending job rank = true ∧
      (∀ r, t.mapEntry job r = s.mapEntry job r)) ∧
    (s.accessesTo job rank = false → (∀ x ∈ s.pk.remotes, x.held = false) → ∃ t, exec (.mapAdopt job rank e) s = .next t ∧
      t.mapEntry job rank = e.toNat % 4096 ∧ t.mapPending job rank = false ∧ (∀ r, r ≠ rank → t.mapEntry job r = s.mapEntry job r) ∧ t.mem = s.mem)

/-- R323, R328, R354, R355, R356: a migration of a parked rank that the module itself decides starts by holding its accesses and sealing its image,
unless the keys are erased; a target that refuses it counts a failed authentication and the rank stays; accepted, the rank is gone, a tombstone
stays and the map has an entry of the next epoch to adopt; what was held is served either way (the stages of MIGRATION are the model's, log
22). Pieces of a unit are kept until all of it is here (their layout is log 22); a unit that cannot be opened counts a failed authentication, a rank record that can brings
the rank. -/
def Claims.RanksMigrate : Prop :=
  (∀ (s : State) (job rank target : Nat) (j : Job) (r : Rank), s.jobOf job = some j → s.rankOf job rank = some r → target < 4096 →
    (r.st ≠ .parked → exec (.migration job rank target) s = .next s) ∧
    (r.st = .parked → r.moving = false →
      (s.asksHost 1 = true → exec (.migration job rank target) s = .next s) ∧
      (s.asksHost 1 = false → exec (.migration job rank target) s = .next (s.startMove j r target))) ∧
    (r.st = .parked → r.moving = true → target = j.modnum → let u := (s.setRank { r with moving := false }).authFail
      exec (.migration job rank target) s = .next (u.serveMoved job rank).applySplit ∧
      u.rankOf job rank = some { r with moving := false } ∧ u.pk.authFails = s.pk.authFails + 1 ∧ u.mem = s.mem) ∧
    (r.st = .parked → r.moving = true → target ≠ j.modnum → exec (.migration job rank target) s = .next (s.endMove j r target).applySplit ∧
      (s.pk.heldReqs = [] → let t := s.endMove j r target
        t.rankOf job rank = none ∧ t.mapPending job rank = true ∧ ∃ x ∈ t.pk.tombs, x.job = job ∧ x.rank = rank ∧ x.target = target ∧ x.ended = false))) ∧
  (∀ (s : State) (j : Job) (r : Rank) (target : Nat), s.rankOf r.job r.rank = some r → r.st = .parked → r.moving = false →
    ((target = j.modnum ∨ s.pk.keysErased = true ∨ s.launchOf r.job r.rank ≠ none) → s.startMove j r target = s) ∧
    (target ≠ j.modnum → s.pk.keysErased = false → s.launchOf r.job r.rank = none → let t := s.startMove j r target
      t.rankOf r.job r.rank = some { r with moving := true, ends := s.endpoints r } ∧ t.mem = s.mem ∧ s.pk.sealCtr < t.pk.sealCtr)) ∧
  (∀ (s : State) (job rank port : Nat) (x : FlatReq), s.pk.heldReqs = [(port, x)] →
    (x.job = job ∧ x.rank = rank → s.serveMoved job rank = ({ s with pk := { s.pk with heldReqs := [] } } : State).serve port x) ∧
    (¬(x.job = job ∧ x.rank = rank) → s.serveMoved job rank = s)) ∧
  (∀ (s : State) (job rank target : Nat), s.rankOf job rank = none →
    (s.jobOf job = none → exec (.migration job rank target) s = .next s) ∧
    (∀ j, s.jobOf job = some j →
      (target = j.modnum → ∃ t, exec (.migration job rank target) s = .next t ∧ (job, rank) ∈ t.pk.inbound ∧ t.pk.tombs = s.pk.tombs ∧ t.mem = s.mem) ∧
      (target ≠ j.modnum → ∃ t, exec (.migration job rank target) s = .next t ∧ t.mem = s.mem ∧
        ∀ x ∈ t.pk.tombs, x.job = job → x.rank = rank → x.ended = true))) ∧
  (∀ (s : State) (f : Flit), Arrives 9 s f →
    (s.pk.migs = [] → (unitPiece f).length < unitSize f →
      ∃ t m, exec (.migrationFlit f) s = .next t ∧ t.mem = s.mem ∧ t.pk.ranks = s.pk.ranks ∧ t.pk.migs = [m] ∧ m.bytes = unitPiece f) ∧
    (∀ m, let job := bits (fWord f 0) 0 32
      let rank := bits (fWord f 0) 32 16
      let unit := bits (fWord f 1) 40 8
      let bs := m.bytes ++ unitPiece f
      let all := (List.range (unitSize f)).map (fun i => ((bs.find? (fun x => x.1 == i)).map Prod.snd).getD 0#8)
      let opened := aesOpen (s.keyFor 2 job (fSmod f)) (all.take 64) (all.drop 64)
      s.pk.migs = [m] → m.job = job → m.rank = rank → m.unit = unit → (m.page = if unit = 0 then 0 else fWord f 2) → bs.length = unitSize f →
      (s.pk.keysErased = true ∨ opened = none → ∃ t, exec (.migrationFlit f) s = .next t ∧ t.mem = s.mem ∧ t.pk.ranks = s.pk.ranks ∧
        t.pk.migs = [] ∧ t.pk.authFails = s.pk.authFails + 1) ∧
      (∀ plain, s.pk.keysErased = false → unit = 0 → s.jobOf job ≠ none → s.rankOf job rank = none → opened = some plain →
        ∃ t, exec (.migrationFlit f) s = .next t ∧ t.pk.ranks = s.pk.ranks ++ [{ openRank plain with job := job, rank := rank }] ∧
          (job, rank) ∈ t.pk.inbound ∧ t.pk.migs = [] ∧ t.mem = s.mem)))

/-! ## Completion: the forms whose effect is an event of the machine -/

/-- R153 to R157: on a free A slot ARD, ARDC, ASGD, AMOM, AADAM and ASTAT complete: a result is on its way, due at the latency of the slot
(AADAM four beats later), and the slot is busy for its beats; ASPILL has 32 rows on their way, from the second beat on; AFILL a step that
reads the tile and a result that writes it. -/
def Obligations.AccumulatorSlotCompletes : Prop :=
  ∀ (o : TOp) (s : State), s.core.aBusy ≤ s.beat →
    (∀ p ∈ [(Instr.ard, 0x90, 1, 0), (Instr.ardc, 0x91, 1, 0), (Instr.asgd, 0x94, 1, 0), (Instr.amom, 0x95, 1, 0), (Instr.aadam, 0x96, 4, 4),
        (Instr.astat, 0x97, 1, 0)], issues p.2.1 o true s = true →
      ∃ t f, exec (p.1 o) s = .next t ∧ f ∈ t.core.flights ∧ f.issue = s.beat ∧ f.slot = o.slot ∧ f.due = s.beat + beatsOf s .ar + p.2.2.2 ∧
        f.ws ≠ [] ∧ t.core.aBusy = s.beat + p.2.2.1 ∧ t.core.trap = s.core.trap ∧ t.mem = s.mem) ∧
    (∀ off, let raw := o.ty.toNat == 0
      let len := if raw then 6144 else 4096
      (issues 0x92 o true s = true → s.core.guarded = false → spillSpan (seen 0x92 o s) o = .ok off →
        fillTest (seen 0x92 o s) [(ownAddr s.core off, len)] = none →
        s.windowHit s.core.pclus s.core.pcore (off / 0x10000) (s.beat + 2) (s.beat + 33) = false →
        ∃ t, exec (.aspill o) s = .next t ∧ t.perfs.length = s.perfs.length + 32 ∧ t.core.aBusy = s.beat + 32 ∧ t.mem = s.mem ∧
          ∀ i < 32, ∃ p ∈ t.perfs, p.due = s.beat + 2 + i ∧ p.issue = s.beat ∧ p.clus = s.core.pclus ∧ p.core = s.core.pcore) ∧
      (issues 0x93 o true s = true → spillSpan (seen 0x93 o s) o = .ok off → fillTest (seen 0x93 o s) [(ownAddr s.core off, len)] = none →
        s.windowHit s.core.pclus s.core.pcore (off / 0x10000) (s.beat + 2) (s.beat + 33) = false →
        ∃ t x f, exec (.afill o) s = .next t ∧ x ∈ t.core.steps ∧ x.kind = .aread raw [] off ∧ x.tile = tileN o.dst ∧ f ∈ t.core.flights ∧
          f.due = s.beat + 36 ∧ f.issue = s.beat ∧ t.core.aBusy = s.beat + 32 ∧ t.mem = s.mem))

/-- R192, R193, R195, R208, R210, R269: a due row of a store performs in the scratchpad; one to this module's memory is sent, and performs in the
L2 of its die when it arrives; a release to memory is sent at its beat, and performs as a store when its turn has come; the report of a store
ends it. -/
def Claims.StoresComplete : Prop :=
  (∀ (s : State) (p : Perf), s.duePerfs = [p] → p.req = none → p.release = none → p.sent = false → (∀ w ∈ p.ws, w.loc.isSpad = true) →
    ∃ t, exec .storePerform s = .next t ∧ t.mem = (s.spadWrite p.ws).mem ∧ p ∉ t.perfs) ∧
  (∀ (s : State) (p : Perf), s.duePerfs = [p] → p.req = none → p.release = none → p.sent = false → p.ws ≠ [] →
    (∀ w ∈ p.ws, ∃ a, w.loc = .pa a) →
    ∃ t q, exec .storePerform s = .next t ∧ q ∈ t.perfs ∧ q.sent = true ∧ q.ws = p.ws ∧ q.issue = p.issue ∧ t.mem = s.mem) ∧
  (∀ (s : State) (p : Perf) (a : Nat) (v : Byte), s.duePerfs = [p] → p.req = none → p.release = none → p.sent = true → s.poison = [] →
    p.ws = [⟨.pa a, 0xFF#8, v⟩] →
    ∃ t x, exec .storePerform s = .next t ∧ t.sectorAt (dieOf p.clus) a = some x ∧ x.byte a = v ∧ x.dirty.getLsbD (a % 128) = true ∧
      t.mem = s.mem) ∧
  (∀ (s : State) (p : Perf) (r : Req) (sc : Nat), s.duePerfs = [p] → p.release = some sc → p.sent = false →
    p.req = some r → r.kind = .store → r.fixed = none → p.locs.any Loc.isSpad = false →
    let e := encodeStore r ((s.refresh (s.coreAt p.clus p.core) r).filter (fun el => el.fmt != fmtFlat))
    e.2 = 0#8 →
    ∃ t q, exec .storePerform s = .next t ∧ q ∈ t.perfs ∧ q.sent = true ∧ q.release = some sc ∧ q.ws = p.ws ++ e.1 ∧ q.issue = p.issue ∧ t.mem = s.mem) ∧
  (∀ (s : State) (p : Perf) (r : Req) (sc a : Nat) (v : Byte), s.strelDue = some p → p.release = some sc → sc ≠ 4 → p.bad = 0 → p.req = some r →
    r.psn = [] → r.tape = none → r.elems ≠ [] → r.flatLanes = [] → p.locs.any Loc.isSpad = false → p.ws = [⟨.pa a, 0xFF#8, v⟩] →
    ∃ t x, exec .strelPerform s = .next t ∧ t.sectorAt (dieOf p.clus) a = some x ∧ x.byte a = v ∧ x.dirty.getLsbD (a % 128) = true ∧
      t.mem = s.mem) ∧
  (∀ (s : State) (id port : Nat) (x : Outst), s.core.pclus < 32 → s.core.pcore < 128 → id % 4096 = coreNo s.core →
    s.core.outst.find? (fun x => x.id == id / 4096) = some x →
    ∃ t, exec (.storeFailureReport id 0 port) s = .next t ∧ x ∉ t.core.outst ∧ t.mem = s.mem)

/-- R194, R203, R211, R217, R271: a reply delivers; a load at its limit answers with a fault of cause 0x08 (the model's reading of detail 13: log
13, DEDUCED); a FENCE completes, or ends at its limit; an atomic in memory takes place at its home. -/
def Claims.AccessesComplete : Prop :=
  (∀ (s : State) (id : Nat) (r : Req), s.core.pclus < 32 → s.core.pcore < 128 → id % 4096 = coreNo s.core →
    s.core.reqs.find? (fun r => r.id == id / 4096 && r.fixed.isNone && !r.held) = some r →
    (r.answer ≤ 1 → leaves r = false → r.kind = .load → homeOwed s.core r = false →
      ∃ t f, exec (.variableLoadReply id false) s = .next t ∧ f ∈ t.core.flights ∧ f.due = s.beat ∧ f.issue = r.issue ∧ r ∉ t.core.reqs ∧ t.mem = s.mem) ∧
    (16 < r.answer → ∃ t f, exec (.variableLoadReply id false) s = .next t ∧ f ∈ t.core.flights ∧ f.issue = r.issue ∧
      f.fault = some (0x08, auxAddr r.failAddr (r.answer - 16)) ∧ r ∉ t.core.reqs)) ∧
  (∀ (s : State) (id : Nat) (r : Req), s.core.pclus < 32 → s.core.pcore < 128 → id % 4096 = coreNo s.core →
    s.core.reqs.find? (fun r => r.id == id / 4096 && r.mayTimeOut) = some r →
    r.issue + timeoutBeats ≤ s.beat →
    ∃ t f, exec (.loadTimeout id) s = .next t ∧ f ∈ t.core.flights ∧ f.issue = r.issue ∧ f.due = s.beat ∧ f.fault.map Prod.fst = some 0x08 ∧
      r ∉ t.core.reqs) ∧
  (∀ (s : State) (sc : Nat) (d : BitVec 6) (t0 k : Nat), s.core.fenceWait = some (sc, d, t0, k) →
    (s.fenceReady s.core = true → ∃ t f, exec .fenceComplete s = .next t ∧ t.core.fenceWait = none ∧ f ∈ t.core.flights ∧ f.due = s.beat + 1 ∧
      f.issue = t0 ∧ f.slot = k ∧ t.mem = s.mem) ∧
    (t0 + timeoutBeats ≤ s.beat → ∃ t f, exec .fenceTimeout s = .next t ∧ t.core.fenceWait = none ∧ f ∈ t.core.flights ∧ f.due = s.beat + 1 ∧
      f.issue = t0 ∧ f.slot = k ∧ t.mem = s.mem)) ∧
  (∀ (s : State) (id : Nat) (r : Req), s.core.pclus < 32 → s.core.pcore < 128 → id % 4096 = coreNo s.core → s.l2 = [] → r.kind = .atomic →
    r.psn = [] → s.core.reqs.find? (fun r => r.id == id / 4096 && r.fixed.isNone && !r.held && r.isRmw && r.homed.isNone && decide (r.answer ≤ 1) &&
      !r.local_.isEmpty) = some r →
    s.homeBlocked s.core r = false →
    ∃ t, exec (.homeAtomic id false) s = .next t ∧
      { r with homed := some ((r.local_.flatMap (fun el => el.locs)).map (fun l => match l with | .pa a => s.homeByte a | _ => 0#8)) } ∈ t.core.reqs)

/-- R78, R269, R270, R276, R278, R283: a walk ends with a held translation; a sector is filled, and its dirty bytes go home; a full tile fires;
a Tombola table is loaded; an access that crosses the package is served and settled, one of another module answered. -/
def Claims.MemoryEventsComplete : Prop :=
  (∀ (s : State) (addr : Nat) (x : Tlb), s.core.pclus < 32 → s.core.pcore < 128 → addr % 4096 = coreNo s.core →
    addr / 4096 < 2 ^ 64 →
    s.translate s.core.job s.core.rank (addr / 4096) = .ok x → x.va ≤ addr / 4096 → addr / 4096 < x.va + x.size →
    ∃ t, exec (.translationWalk addr) s = .next t ∧ t.core.held? (addr / 4096) = some x ∧ t.mem = s.mem) ∧
  (∀ (s : State) (die sector : Nat), die < 4 → sectorExists sector = true →
    (∃ t x, exec (.l2Fill die sector false) s = .next t ∧ t.sectorAt die (sector * 128) = some x ∧ x.valid = true ∧ x.fill = s.beat ∧
      t.mem = s.mem) ∧
    (∀ y, s.sectorAt die (sector * 128) = some y →
      ∃ t x, exec (.l2Writeback die sector false) s = .next t ∧ t.sectorAt die (sector * 128) = some x ∧ x.dirty = 0#128)) ∧
  (∀ (s : State) (k : Nat) (x : TTile) (b : Nat), s.pk.tiles[k]? = some x → x.full = some b → (∀ d ∈ x.dies, d.fired = false) → b + 4 ≤ s.beat →
    ∃ t y, exec (.turnstileFire k) s = .next t ∧ t.pk.tiles[k]? = some y ∧ (∀ d ∈ y.dies, d.fired = d.armed) ∧ t.mem = s.mem) ∧
  (∀ (s : State) (b : Nat) (x : Vector (BitVec 1024) 32), s.core.tombLoad = some b → b ≤ s.beat →
    s.tableAway s.core s.core.a.rngt.toNat = [] → s.readTable s.core s.core.a.rngt.toNat = .ok x →
    ∃ t, exec .tombolaReloadDone s = .next t ∧ t.core.tomb = x ∧ t.core.tombLoad = none ∧ t.mem = s.mem) ∧
  (∀ (s t : State) (r : FlatReq) (a : Ans),
    (s.pk.remotes = [] → s.serveFlat (s.routeOf r.smod r.req) r = (t, some a) → s.routeOf r.smod r.req ≠ 0xFFFF →
      exec (.flatAccessAtTarget r) s = .next (t.sendReply r.smod (t.ownModule r.job) r.req a)) ∧
    (∀ rm, s.pk.remotes = [rm] → rm.port = 0xFFFF → rm.body = r → rm.held = false → s.atTarget rm = false → s.serveFlat 0xFFFF r = (t, some a) →
      t.pk.remotes = [rm] → rm.ctx = r.req → exec (.flatAccessAtTarget r) s = .next (t.settleOwn rm a.st a.data a.info)))

/-- R100, R227, R228, R229, R234, R237, R302, R304: a trap enters its handler; a firmware-routed one stops its footprint, and saves a core that has no
launch; a core that yielded, or was pre-empted and drained, is saved while other cores of its footprint still run; a chosen context
starts. -/
def Claims.ContextEventsComplete : Prop :=
  (∀ (s : State) (r : TrapReq), s.core.trap = some r → s.entryDue s.core r = true → s.core.handlerRoute r.cause = true →
    s.rollbackAway s.core r = [] →
    ∃ t, exec .trapEntry s = .next t ∧ t.core.hm = true ∧ t.core.pc = s.core.hvec ∧ t.core.cause = r.cause ∧ t.core.kind = r.kind ∧
      t.core.trappc = r.pc ∧ t.core.trapaux = r.aux ∧ t.mem = s.mem) ∧
  (∀ (s : State) (r : TrapReq), s.core.firmwareTrap = some r →
    (∀ l, s.launchOf s.core.job s.core.rank = some l → l.cancel = none → l.committed = 0 → l.stopAt = none →
      ∃ t, exec .firmwareRoutedTrap s = .next t ∧ t.launchOf s.core.job s.core.rank = some { l with stopAt := some r.beat } ∧ t.core = s.core ∧
        t.mem = s.mem) ∧
    (s.launchOf s.core.job s.core.rank = none → s.quiesced s.core = true → s.core.run = .running → s.rollbackAway s.core r = [] →
      ∃ t, exec .firmwareRoutedTrap s = .next t ∧ t.core.run = .saved (s.savedAs s.core r).1 r.pc (s.savedAs s.core r).2 ∧ t.core.trap = none ∧
        t.mem = s.mem)) ∧
  (∀ s : State, s.leaveReady s.core = true → (∃ c ∈ s.others, c.run = .running ∧ c.job = s.core.job ∧ c.rank = s.core.rank) →
    (s.core.drain = none → ∃ t, exec .contextSwitchOut s = .next t ∧ t.core.run = .saved 0 0 0#64 ∧ t.core.savedAt = s.beat ∧
      t.core.a.s = s.core.a.s ∧ t.mem = s.mem) ∧
    (s.core.drain ≠ none → s.core.drainHeld = false → ∃ t, exec .urgentPreemption s = .next t ∧ t.core.run = .saved 0x17 0 0#64 ∧
      t.core.savedAt = s.beat ∧ t.core.a.s = s.core.a.s ∧ t.mem = s.mem)) ∧
  (∀ (s : State) (l : Launch) (r : Rank) (b : Nat) (cs : List Core), s.nextStart = some l → s.launchOf l.job l.rank = some l →
    s.rankOf l.job l.rank = some r → r.base = some b → s.seatOf l.job l.rank = some (b, fpSize r.fpc) → s.restoreAway r b = [] → s.idleOn b (fpSize r.fpc) l.job l.rank = [] → s.startCores l r b s.beat = .ok cs →
    ∃ t x, exec .contextRestore s = .next t ∧ t.rankOf l.job l.rank = some { r with st := .running, image := Image.empty } ∧
      t.launchOf l.job l.rank = some x ∧ x.waiting = none ∧ x.chosen = none ∧ x.started = s.beat)

/-- R247, R250, R252, R253, R255, R259: the channel fetches a plain valid record, reads and writes a plain chunk in scratchpad, ends its record,
at the time limit fails it, and stops. -/
def Claims.ChannelEventsComplete : Prop :=
  (∀ (s : State) (j ch a f : Nat) (g : CReg), OwnChan s j ch →
    let c := s.pagesFor s.core [a, a + 63]
    let x := s.core.chan j
    let as := (List.range 64).map (fun i => a + i)
    let bs := as.map (s.copyByte c x.got)
    let ws := (List.range 8).map (fun i => BitVec.ofNat 64 (leNat (((bs.map Prod.fst).drop (8 * i)).take 8)))
    x.st = 1 → x.cur = none → x.fetchAt = some (a, f) → f ≤ s.beat → a < 2 ^ 56 → s.windowOpen c [a, a + 63] = false → s.copyReg c false a = .ok g →
    g.fifo = none → s.awayOf c x.got as = [] → bs.any Prod.snd = false → (recF ws).own = true → recBad ws = false → (recF ws).acc = false → (recF ws).unf = false →
    ∃ t r, exec (.recordFetch ch false) s = .next t ∧ (t.core.chan j).cur = some r ∧ r.addr = a ∧ r.words = ws ∧ r.base = s.beat + 4 ∧
      t.mem = s.mem) ∧
  (∀ (s : State) (j ch : Nat) (r : CRec) (places : List Place), OwnChan s j ch →
    let x := s.core.chan j
    let w := recF r.words
    let c1 := s.pagesFor s.core [w.src]
    let c := s.chunkPages s.core w places
    let as := places.flatMap (s.placeBytes c w)
    x.cur = some r → x.st = 1 → x.stopAt = none → r.nread < r.chunks → r.base + r.nread ≤ s.beat → r.lastRead ≠ some s.beat → r.ready = [] →
    w.value = false → s.chunkPlaces c1 w (unfOf r.unf.1.toNat r.unf.2.toNat) r.nread = .ok places → s.isFlat c1 w.src = false →
    s.fifoAt c w w.src (w.inChunk r.nread) false = none → s.portBusy ch false (banksAt as) = false → s.awayOf c r.far as = [] →
    s.copyRefused c false as = none → w.pck = false →
    ∃ t y q, exec (.chunkRead ch false) s = .next t ∧ (t.core.chan j).cur = some q ∧ q.nread = r.nread + 1 ∧ q.ready = [y] ∧
      y.bytes = as.map (fun a => (s.copyByte c r.far a).1) ∧ y.writeAt = s.beat + w.depth ∧ t.mem = s.mem) ∧
  (∀ (s : State) (j ch : Nat) (r : CRec) (y : Ready) (rest : List Ready) (ws : List (Nat × Byte × Byte)) (push : List Byte), OwnChan s j ch →
    let w := recF r.words
    let c := s.writePages (s.pagesFor s.core [w.src, w.dst]) w y
    let bw := ws.map (fun v => (⟨s.locOf c v.1, v.2.1, v.2.2⟩ : ByteW))
    (s.core.chan j).cur = some r → r.ready = y :: rest → y.writeAt ≤ s.beat → w.value = false →
    s.fifoAt c w w.dst (w.inChunk y.k) true = none → s.chunkOut c w (ftzOn s.core.a) y = .ok (ws, push) →
    s.portBusy ch true (banksAt (ws.map Prod.fst)) = false → (∀ v ∈ bw, ∃ k n o, v.loc = .spad k n o) →
    ∃ t q, exec (.chunkWrite ch) s = .next t ∧ (t.core.chan j).cur = some q ∧ q.ready = rest ∧ t.mem = (s.spadWrite bw).mem) ∧
  (∀ (s : State) (j ch : Nat) (r : CRec), OwnChan s j ch → (s.core.chan j).cur = some r →
    (r.nread = r.chunks → r.ready = [] → r.acks = 0 → r.lastWrite + 1 ≤ s.beat →
      ∃ t, exec (.recordComplete ch) s = .next t ∧ (t.core.chan j).cur = none ∧ t.mem = s.mem) ∧
    ((s.core.chan j).st = 1 → r.fetch + 4194304 ≤ s.beat → ∃ t, exec (.copyRecordTimeout ch) s = .next t ∧ RecordEnds s t j 6) ∧
    (∀ b, (s.core.chan j).st = 1 → (s.core.chan j).stopAt = some b → b ≤ s.beat → r.ready = [] → r.acks = 0 →
      ∃ t, exec (.cstopEffect ch) s = .next t ∧ RecordEnds s t j 1))

/-- R240, R244, R264, R266: a chunk that waited on a FIFO bank proceeds; a quiet bank takes its mode; a complete phase commits; a cancellation
starts, rolls back, and ends. -/
def Claims.BankAndPhaseEventsComplete : Prop :=
  (∀ (s : State) (j ch : Nat) (r : CRec) (y : Ready) (rest : List Ready) (k b n : Nat), OwnChan s j ch →
    let w := recF r.words
    let c := s.pagesFor s.core [w.src, w.dst]
    (s.core.chan j).cur = some r → r.ready = y :: rest → r.nread = r.chunks → s.fifoAt c w w.dst (w.inChunk y.k) true = some (k, b, n) →
    y.writeAt ≤ s.beat → ((s.banksOf c.pclus k).fifo b).length + n ≤ 65536 →
    ∃ t q z, exec (.fifoChunkRelease ch) s = .next t ∧ (t.core.chan j).cur = some q ∧ q.ready.head? = some z ∧ z.k = y.k ∧
      z.writeAt = s.beat ∧ t.mem = s.mem) ∧
  (∀ (s : State) (n m : Nat), s.bankDue s.core = some (n, m) → n < 4 → m < 4 →
    ∃ t, exec .bankModeSwitch s = .next t ∧ (t.banksOf s.core.pclus s.core.pcore).mode n = m ∧ (.bank n m) ∉ t.core.waits ∧
      s.beat + 2 ≤ t.core.readyAt) ∧
  (∀ (s : State) (l : Launch), s.commitDue = some l →
    ∃ t, exec .bufferPhaseCommit s = .next t ∧ t.mem = s.mem ∧
      ∀ x ∈ t.pk.launches, x.job = l.job → x.rank = l.rank → x.committed = l.committed + 1 ∧ x.commitAt = s.beat ∧ x.swaps = []) ∧
  (∀ (s : State) (l : Launch) (r : TrapReq), s.cancelDue = some (.start l r) →
    ∃ t, exec .phaseCancel s = .next t ∧ t.mem = s.mem ∧
      ∀ x ∈ t.pk.launches, x.job = l.job → x.rank = l.rank → x.cancel = some ⟨r.cause, r.beat, false⟩) ∧
  (∀ (s : State) (l : Launch) (k : Cancel), s.cancelDue = some (.rollback l k) → l.timetabled = false →
    ∃ t, exec .phaseCancel s = .next t ∧ t.mem = s.mem ∧ (s.core.ofRank l.job l.rank = true →
      t.core.phase = phaseCancelled s.core.phase k.cause ∧ (s.core.issuing = true → t.core.pc = s.core.ckNext.npc ∧ t.core.a.s = s.core.shadow.s))) ∧
  (∀ (s : State) (l : Launch) (k : Cancel), s.cancelDue = some (.go l k) → l.timetabled = false →
    ∃ t, exec .phaseCancel s = .next t ∧ t.mem = s.mem ∧ (s.core.ofRank l.job l.rank = true → .phase ∈ s.core.waits →
      .phase ∉ t.core.waits ∧ t.core.readyAt = s.beat + 2))

/-- R293, R294, R297, R299, R301: a prepared LAUNCH is armed; an armed core enters; a step that is over ends; an idle-active rank is parked for
another context; INVAL is taken, and completes. -/
def Claims.StepEventsComplete : Prop :=
  (∀ (s : State) (p : Packet) (f : Fetched) (rest : List Fetched) (r : Rank) (b : Nat) (q : Prepared), Starts 0x01 s p f rest →
    s.resident (pJob p) (pRank p) = some r → (r.st = .parked ∨ r.st = .idleActive) → r.base = some b → s.prepAway r (pWord p 2) = [] →
    (opened s p f rest).prepare r (some b) (pWord p 2) (pWord p 3) (pWord p 4) ((List.range 8).map (fun i => pWord p (8 + i))) = .ok q →
    ∃ (t : State) (l : Launch), exec (.launch p) s = .next t ∧ t = ((opened s p f rest).arm r l b q).clearPrep ∧ l.job = pJob p ∧ l.rank = pRank p ∧
      l.t0 = q.t0 ∧ l.cores = q.cores) ∧
  (∀ (s : State) (e : Nat), s.core.run = .armed e → e ≤ s.beat → (s.pk.throtHold = false ∨ s.core.timetabled = true) →
    ∃ t, exec .coreEntry s = .next t ∧ t.core.run = .running ∧ t.core.pc = s.core.pc ∧ t.core.a = s.core.a ∧ t.mem = s.mem) ∧
  (∀ (s : State) (job rank : Nat) (l : Launch) (r : Rank), s.launchOf job rank = some l → s.rankOf job rank = some r → s.stepOver l = true →
    l.killed = none → l.reported = false →
    ∃ t x, exec (.stepEnd job rank) s = .next t ∧ t.launchOf job rank = none ∧ t.rankOf job rank = some x ∧ x.st = .idleActive ∧ t.mem = s.mem) ∧
  (∀ (s : State) (job rank b : Nat) (r : Rank), s.rankOf job rank = some r → r.base = some b → r.st = .idleActive →
    (∃ l ∈ s.pk.launches, l.chosen ≠ none ∧ ¬(l.job = job ∧ l.rank = rank) ∧ ∃ x f, s.seatOf l.job l.rank = some (x, f) ∧ r.meets x (fpSize f) = true) →
    exec (.idleActivePark job rank) s = .next (s.parkRank r) ∧
      (s.pk.colls = [] → ∃ x, (s.parkRank r).rankOf job rank = some x ∧ x.st = .parked ∧ (s.parkRank r).mem = s.mem)) ∧
  (∀ (s : State) (p : Packet) (f : Fetched) (rest : List Fetched) (r : Rank), Starts 0x02 s p f rest → s.resident (pJob p) (pRank p) = some r →
    ∃ t, exec (.inval p) s = .next t ∧ t.pk.invals = s.pk.invals ++ [⟨pJob p, pRank p, pWord p 2, pWord p 3, p.q, pTag p, f.seq, pIrq p⟩]) ∧
  (∀ (s : State) (k : Nat) (x : Inval), s.pk.invals[k]? = some x → s.invalReady x = true →
    ∃ t, exec (.invalComplete k) s = .next t ∧ t.pk.invals = s.pk.invals.eraseIdx k ∧ t.mem = s.mem ∧
      ∀ c ∈ t.allCores, c.job = x.job → c.rank = x.rank → ∀ e ∈ c.tlb, ¬(e.va < x.addr + x.len ∧ x.addr < e.va + e.size))

/-- R294, R318, R322, R324, R326, R327, R358: a packet that may start and meets what it asks for completes with status 0 after its effect: KILL,
PARK, RESUME, COLD, RECALL, COPYIN, COPYOUT, DBGREAD, ATTEST, SVC, JOIN, RANKNEW, LEAVE; PAD leaves its queue; a fetched packet enters it. -/
def Claims.PacketEventsComplete : Prop :=
  (∀ (s : State) (p : Packet) (f : Fetched) (rest : List Fetched), p.q < 4096 → pOp p = 0 → f.p = p →
    (s.queueOf p.q).fetched = f :: rest → s.mayStart (s.queueOf p.q) = true →
    ∃ t, exec (.pad p) s = .next t ∧ (t.queueOf p.q).fetched = rest ∧ t.mem = s.mem) ∧
  (∀ (s : State) (p : Packet) (f : Fetched) (rest : List Fetched) (r : Rank) (op : Nat), Starts op s p f rest →
    s.resident (pJob p) (pRank p) = some r → r.moving = false → let o := opened s p f rest
    (op = 3 → r.st = .idleActive → exec (.kill p) s = .next ((o.bury r true).finishPacket f 0)) ∧
    (op = 3 → ∀ l, r.st = .running → s.launchOf r.job r.rank = some l → exec (.kill p) s = .next ((o.killContext l 0x26 false).finishPacket f 0)) ∧
    (op = 4 → r.st = .idleActive → ∃ t : State, exec (.park p) s = .next (t.finishPacket f 0) ∧ t.mem = (o.parkRank r).mem ∧
      (∀ x, (o.parkRank r).rankOf r.job r.rank = some x → t = (o.parkRank r).setRank { x with byPark := true })) ∧
    (op = 5 → ∀ t, r.st = .parked → o.unpark r = some t → exec (.resume p) s = .next (t.finishPacket f 0)) ∧
    (op = 6 → r.st = .parked → s.pk.keysErased = false → exec (.cold p) s = .next ((o.sealCold r).finishPacket f 0)) ∧
    (op = 7 → ∀ t, r.st = .cold → o.openCold r = some t → exec (.recallRank p) s = .next (t.finishPacket f 0)) ∧
    (op = 8 → ∀ bs t, 1 ≤ pWord p 4 → pWord p 4 ≤ 2 ^ 32 → p.host = some bs → o.copyIn r (pieces (pWord p 2) (pWord p 4)) bs = (t, 0) →
      exec (.copyin p) s = .next (t.finishPacket f 0)) ∧
    (op = 9 → ∀ bs t, 1 ≤ pWord p 4 → pWord p 4 ≤ 2 ^ 32 → p.host = some bs →
      o.copyOut r (pPasid p) (pieces (pWord p 2) (pWord p 4)) (pWord p 3) = (t, 0) → exec (.copyout p) s = .next (t.finishPacket f 0)) ∧
    (op = 10 → ∀ key bs, s.session p.q = some key → r.st = .held → p.host = some bs →
      ∃ (t : State) (x : List Byte), exec (.dbgread p) s = .next (t.finishPacket f 0) ∧ t.pk.out = s.pk.out ++ [.host (pPasid p) (pWord p 2) x] ∧
        t.mem = s.mem)) ∧
  (∀ (s : State) (p : Packet) (f : Fetched) (rest : List Fetched) (op : Nat), Starts op s p f rest → let o := opened s p f rest
    (op = 11 → ∀ ek, s.pk.seedErased = false → p.host = some ek → pWord p 3 = 0 →
      ∃ (t : State) (x : List Byte), exec (.attest p) s = .next (t.finishPacket f 0) ∧ t.pk.out = s.pk.out ++ [.host (pPasid p) (pWord p 2) x] ∧
        t.mem = s.mem) ∧
    (op = 12 → ∀ t : State, s.pk.svcs.any (fun r => r.f == pWord p 1 && r.object == BitVec.ofNat 64 (pWord p 2)) = true →
      o.applyDecision p (pWord p 1) (BitVec.ofNat 64 (pWord p 2)) (pWord p 3) = (t, 0) →
      ∃ u : State, exec (.svc p) s = .next (u.finishPacket f 0) ∧ u.mem = t.mem ∧ ∀ r ∈ u.pk.svcs, ¬(r.f = pWord p 1 ∧ r.object = BitVec.ofNat 64 (pWord p 2))) ∧
    (op = 13 → s.jobOf (pJob p) = none → ∀ bs, p.host = some bs → 131072 ≤ bs.length →
      mapNames (mapOf bs) (bits (pWord p 3) 0 16) (bits (pWord p 1) 0 12) = true →
      (paHbm (bits (pWord p 2) 12 30 * 4096) = true ∨ paCold (bits (pWord p 2) 12 30 * 4096) = true) →
      s.pagePoisoned (bits (pWord p 2) 12 30 * 4096) = false → bits (pWord p 4) 0 8 = 0xFF →
      ∃ (t : State) (j : Job), exec (.join p) s = .next (t.finishPacket f 0) ∧ t.pk.jobs = s.pk.jobs ++ [j] ∧ j.job = pJob p ∧ t.mem = s.mem) ∧
    (op = 14 → ∀ key j seed pa, s.session p.q = some key → s.jobOf (pJob p) = some j → pRank p ≤ j.nrank → s.resident (pJob p) (pRank p) = none →
      s.mapEntry (pJob p) (pRank p) = j.modnum → bits (pWord p 3) 0 3 < 6 →
      let r : Rank := ⟨pJob p, pRank p, bits (pWord p 3) 0 3, .parked, none, bits (pWord p 2) 12 44 * 4096, [],
        BitVec.ofNat 64 (bits (pWord p 4) 12 44 * 4096), [], 0#64, 0, 0, 0, Image.empty, none, [], false, false⟩
      let s1 : State := { o with pk := { o.pk with ranks := o.pk.ranks.filter (fun x => !(x.job == r.job && x.rank == r.rank)) ++ [r] } }
      s1.tablePage r = some pa → keyUnwrap key ((List.range 5).flatMap (fun i => word8 (pWord p (8 + i)))) = some seed →
      ∃ (t : State) (x : Rank), exec (.ranknew p) s = .next (t.finishPacket f 0) ∧ x ∈ t.pk.ranks ∧ x.job = pJob p ∧ x.rank = pRank p ∧ x.st = .parked) ∧
    (op = 15 → (∀ r ∈ s.pk.ranks, r.job = pJob p → r.st = .dead) →
      ∃ t : State, exec (.leave p) s = .next (t.finishPacket f 0) ∧ t.pk.jobs = s.pk.jobs.filter (fun j => j.job != pJob p) ∧ t.mem = s.mem)) ∧
  (∀ (s : State) (p : Packet), let x := s.queueOf p.q
    let n := pLen p + 1
    p.q < 4096 → p.words.length = 8 * n → s.ifClosed (ifOf p.q) = false → x.halt = 0 → x.cfg.getLsbD 63 = true →
    x.head < 2 ^ 32 → x.tail < 2 ^ 32 → x.head ≠ x.tail → x.stale = 0 →
    n ≤ ringSize x.ring → x.head % ringSize x.ring + n ≤ ringSize x.ring → n ≤ (x.tail + 2 ^ 32 - x.head) % 2 ^ 32 →
    ∃ t, exec (.packetFetch p) s = .next t ∧ (t.queueOf p.q).fetched = x.fetched ++ [⟨x.seq, p⟩] ∧ (t.queueOf p.q).head = (x.head + n) % 2 ^ 32)

/-- R310, R311, R313, R315, R317, R319, R323: host writes to the notify pages, to QCFG, QIFCTL, FSREQ and a word of the remap table take effect; a
service request becomes a record; a completion write that the host completes is no longer outstanding. -/
def Claims.HostWritesComplete : Prop :=
  (∀ (s : State) (q : Nat) (v : Word32), q < 4096 → s.ifClosed (ifOf q) = false → let x := s.queueOf q
    ((x.cfg.getLsbD 63 = false ∨ x.halt ≠ 0 ∨ sub32 v.toNat x.head ≤ ringSize x.ring) →
      ∃ t, exec (.notifyTail q v) s = .next t ∧ (t.queueOf q).tail = v.toNat ∧ t.mem = s.mem) ∧
    (∃ t, exec (.notifyCompletionHead q v) s = .next t ∧ (t.queueOf q).chead = v.toNat ∧ t.mem = s.mem)) ∧
  (∀ (s : State) (q : Nat) (v : Word64), q < 4096 → let x := s.queueOf q
    (v.getLsbD 63 = true → x.cfg.getLsbD 63 = false → s.ifClosed (ifOf q) = false → ringOk x.ring 64 = true → ringOk x.cmpl 32 = true →
      ∃ t, exec (.qcfgEnable q v) s = .next t ∧ (t.queueOf q).cfg = v &&& qcfgMask ∧ (t.queueOf q).halt = 0 ∧ (t.queueOf q).head = 0 ∧
        (t.queueOf q).tail = 0) ∧
    (v.getLsbD 63 = false → ∃ t, exec (.qcfgDisable q v) s = .next t ∧ (t.queueOf q).cfg = v &&& qcfgMask)) ∧
  (∀ (s : State) (i : Nat) (v : Word64), i < 64 →
    (v.getLsbD 0 = true → v.getLsbD 2 = false → (s.qif i).getLsbD 0 = false → (s.qif i).getLsbD 2 = false → qifPasid v ≠ 0 → s.pk.booted = true →
      ∃ t, exec (.qifctlEnable i v) s = .next t ∧ t.ifClosed i = false ∧ qifPasid (t.qif i) = qifPasid v) ∧
    (v.getLsbD 0 = false → ∃ t, exec (.qifctlClose i v) s = .next t ∧ t.ifClosed i = true) ∧
    (v.getLsbD 0 = true → v.getLsbD 2 = true → (s.qif i).getLsbD 2 = false → ∃ t, exec (.qifctlRevoke i v) s = .next t ∧ t.ifClosed i = true)) ∧
  (∀ (s : State) (v : Word64), ∃ t, exec (.fsreqWrite v) s = .next t ∧ t.pk.fsreq.toNat % 64 = v.toNat % 64 ∧ t.mem = s.mem) ∧
  (∀ (s : State) (off : Nat) (v : Word64), off % 8 = 0 → 0x20000 ≤ off → off < 0x30000 →
    ∃ t, exec (.bar0RegisterWrite off v) s = .next t ∧ t.bar0Word off = v ∧ t.mem = s.mem) ∧
  (∀ (s : State) (f : Nat) (object detail : Word64) (r : SvcReq), f < 6 → s.svcReq f object detail = some r → let q := 64 * bits s.pk.fsreq.toNat 8 8
    s.asksHost f = true → s.pk.svcs = [] → s.pk.svcWait = [] → s.ifClosed (ifOf q) = false → (s.queueOf q).cfg.getLsbD 63 = true →
    (s.queueOf q).halt = 0 → (s.queueOf q).room = true → s.pk.booted = true →
    ∃ t, exec (.serviceRequest f object detail) s = .next t ∧ t.pk.svcs = [r] ∧ t.mem = s.mem) ∧
  (∀ (s : State) (p : Packet), p.q < 4096 → p.words = [] → p.host = none →
    ∃ t, exec (.hostDmaCompletion p true) s = .next t ∧ (t.queueOf p.q).dma = (s.queueOf p.q).dma - 1)

/-- R279, R307, R325, R328, R329: the device boots; alarms, lock-step mismatches and the throttle take effect; a poisoned page is scrubbed; the
management controller's read is answered. -/
def Claims.DeviceEventsComplete : Prop :=
  (∀ (s : State) (b : BootImage), s.pk.booted = false → b.readable = true → b.fuses = true → b.rsaOk = true → b.slhOk = true → b.fsvn ≤ b.svn →
    b.mismatch = false → ∃ t, exec (.boot b) s = .next t ∧ t.pk.booted = true ∧ t.pk.svn = b.svn) ∧
  (∀ s : State, s.pk.launches = [] →
    (∃ t, exec .glitchSensor s = .next t ∧ 2 ≤ t.pk.alarm % 4 ∧ t.pk.keysErased = true) ∧
    (∃ t, exec .meshBreach s = .next t ∧ t.pk.alarm % 4 = 3 ∧ t.pk.seedErased = true)) ∧
  (∀ s : State, s.pk.mismatch = none → ∃ t, exec (.lockstepMismatch false) s = .next t ∧ t.pk.mismatch = some s.beat ∧ t.mem = s.mem) ∧
  (∀ (s : State) (pg : Nat), pg < 2 ^ 30 → s.Canonical → pg ∈ s.poison → s.asksHost 2 = false →
    ∃ t, exec (.poisonScrub pg true) s = .next t ∧ pg ∉ t.poison ∧ ∀ k, pg * 4096 ≤ k → k < pg * 4096 + 4096 → t.mem.get k = 0#8) ∧
  (∀ (s : State) (n : Nat), n < 3 → ∃ t, exec (.throttleChange n) s = .next t ∧ t.pk.throt = n ∧ t.mem = s.mem) ∧
  (∀ s : State, ∃ t ws, exec .mctpRead s = .next t ∧ t.pk.out = s.pk.out ++ [.mctp ws] ∧ ws.length = 5)

/-- R330, R331, R332, R334, R335, R336: a flit that a live port receives is noted and has its effect: a request is served, a reply settles its request,
a beat is noted; a retry is counted; a silent link dies; a link comes up. -/
def Claims.FlitEventsComplete : Prop :=
  (∀ (s : State) (f : Flit), Arrives 1 s f → exec (.writeRequestFlit f) s = .next ((noted s f).serveFlit f .write)) ∧
  (∀ (s : State) (f : Flit), Arrives 2 s f → exec (.readRequestFlit f) s = .next ((noted s f).serveFlit f .read)) ∧
  (∀ (s : State) (f : Flit), Arrives 3 s f → exec (.atomicRequestFlit f) s = .next ((noted s f).serveFlit f .atomic)) ∧
  (∀ (s t : State) (f : Flit) (kind : FlatKind) (a : Ans), f.req = none → f.port < 144 → let r := reqOf f kind
    s.serveFlat f.port r = (t, some a) → s.serveFlit f kind = t.sendReply (fSmod f) (t.ownModule f.job) (fCtx f) a) ∧
  (∀ (s : State) (f : Flit) (rm : Remote), Arrives 4 s f → s.pk.remotes.find? (fun x => x.ctx == fCtx f && x.port != 0xFFFF && !x.held) = some rm →
    let st := bits (fWord f 0) 0 8
    (rm.body.kind = .write → exec (.replyFlit f) s = .next ((noted s f).settle rm st [] f.info)) ∧
    (rm.body.kind ≠ .write → st ≠ 0 → st ≠ 2 → exec (.replyFlit f) s = .next ((noted s f).settle rm st [] f.info)) ∧
    (rm.body.kind ≠ .write → st = 0 → rm.data = [] → bits (fWord f 0) 16 16 = 0 → rm.want = bits (fWord f 0) 32 16 → 0 < rm.want → rm.want ≤ 48 →
      exec (.replyFlit f) s = .next ((noted s f).settle rm 0 ((f.payload.drop 8).take rm.want) f.info))) ∧
  (∀ (s : State) (f : Flit), Arrives 8 s f → s.pk.beatRef = false →
    ∃ t, exec (.beatFlit f) s = .next t ∧ (t.portOf f.port).seen = some (fWord f 0, s.beat) ∧ t.mem = s.mem) ∧
  (∀ (s : State) (n : Nat), n < 144 →
    ((s.portOf n).alive = true → (s.portOf n).retries + 1 < 16 →
      ∃ t, exec (.linkRetry n) s = .next t ∧ (t.portOf n).retries = (s.portOf n).retries + 1 ∧ t.mem = s.mem) ∧
    ((s.portOf n).last + 4096 ≤ s.beat → exec (.linkSilenceTimeout n) s = .next (s.killPort n)) ∧
    (∀ flight, ∃ t, exec (.linkBringUp n flight) s = .next t ∧ (t.portOf n).alive = true ∧ (t.portOf n).flight = flight))

/-- R340, R342 to R345, R350 to R353, R356: data, abort and shift flits reach the collectives that they name; a send that may start reads
and sends its source; a full sum folds; a complete collective writes its flag, one at its limit fails; a map entry is adopted; a
migration starts, and its pieces are kept; a tombstone forwards. -/
def Claims.CollectiveEventsComplete : Prop :=
  (∀ (s : State) (f : Flit) (i : Nat), Arrives 5 s f → (noted s f).collFor f.job f.rank (bits (fWord f 0) 0 16) = some i →
    exec (.collectiveDataFlit f) s = .next ((noted s f).collPlace i (bits (fWord f 0) 16 16) (bits (fWord f 0) 32 4) (bits (fWord f 0) 36 28)
      (fTag f) ((f.payload.drop 8).take f.count))) ∧
  (∀ (s : State) (f : Flit), Arrives 6 s f → exec (.abortFlit f) s =
    .next ((noted s f).abortHere ((noted s f).collsWith (bits (fWord f 0) 32 32) (bits (fWord f 0) 0 16)) (bits (fWord f 0) 24 8) (bits (fWord f 0) 16 7))) ∧
  (∀ (s : State) (f : Flit), Arrives 7 s f → exec (.shiftFlit f) s = .next ((noted s f).takeShift (bits (fWord f 0) 32 32)
    (bits (fWord f 0) 0 16) (bits (fWord f 0) 24 8) (bits (fWord f 1) 32 16) (bits (fWord f 1) 48 16) (bits (fWord f 1) 0 32))) ∧
  (∀ (s : State) (i : Nat) (k : Coll), s.pk.colls[i]? = some k →
    (∀ j x bs, k.sends[j]? = some x → s.sendReady k x = true → k.pshift = [] → k.kind ≠ 1 → k.missing (s.collSpots k x.src x.len false) = [] →
      let u := s.setColl i { k with sends := k.sends.set j { x with sent := true }, got := [] }
      u.collRead k x.src x.len = some bs → exec (.collectiveSend i j) s = .next (u.collSend i k x.dmem x.dch x.slot x.doff bs)) ∧
    (∀ j c, k.chunks[j]? = some c → k.failed = none → c.full ≠ none → c.done = none → c.opf ≠ 0 → s.collWaits k = false →
      k.missing (s.collSpots k c.addr c.len true ++ s.collSpots k c.stg (c.nop * c.len) true) = [] →
      (∀ m < c.len, ∃ x, s.collAt k (c.addr + m) true = some x ∧ x.pageBad s = false) →
      ∃ t y d, exec (.collectiveFold i j) s = .next t ∧ t.pk.colls[i]? = some y ∧ y.chunks[j]? = some d ∧ d.done = some s.beat) ∧
    (k.failed = none → k.flagged = none → k.armed ≤ s.beat → (∀ c ∈ k.chunks, c.done ≠ none) → s.collWaits k = false →
      exec (.collectiveComplete i) s = .next (s.writeFlag i k (flagWord k false 0))) ∧
    (k.flagged = none → k.failed = none → k.bad = none → k.tmo ≤ s.beat → exec (.collectiveTimeout i) s = .next (s.failColl i 2))) ∧
  (∀ (s : State) (job rank : Nat) (e : Half) (j : Job), s.jobOf job = some j → s.pk.remotes = [] →
    ∃ t, exec (.mapAdopt job rank e) s = .next t ∧ t.mapEntry job rank = e.toNat % 4096 ∧ t.mapPending job rank = false ∧ t.mem = s.mem) ∧
  (∀ (s : State) (job rank target : Nat) (j : Job) (r : Rank), s.jobOf job = some j → s.rankOf job rank = some r → target < 4096 →
    target ≠ j.modnum → r.st = .parked → r.moving = false → s.pk.launches = [] → s.asksHost 1 = false → s.pk.keysErased = false →
    ∃ t x, exec (.migration job rank target) s = .next t ∧ t.rankOf job rank = some x ∧ x.moving = true ∧ t.mem = s.mem) ∧
  (∀ (s : State) (f : Flit), Arrives 9 s f → s.pk.migs = [] → (unitPiece f).length < unitSize f →
    ∃ t, exec (.migrationFlit f) s = .next t ∧ t.pk.migs ≠ [] ∧ t.mem = s.mem) ∧
  (∀ (s : State) (r : FlatReq) (t : Tomb), s.pk.tombs.find? (fun t => t.job == r.job && t.rank == r.rank && !t.ended) = some t →
    (∀ x ∈ s.pk.remotes, ¬(x.port = 0xFFFF ∧ x.body = r)) → s.routeOf r.smod r.req ≠ 0xFFFF → let p := s.routeOf t.target r.req
    (s.portOf p).alive = true → exec (.tombstoneForward r) s = .next (s.sendBody p t.target r.req (returnsOf r) r))

/-! ## Frames -/

/-- R16, R20, R81, R233, R245: what a scalar, vector or predicate operation may change when it issues: results in flight, the trap found, the
sequencer and its loops, the waits and counters of issue; everything else of the module is as before, memory included. -/
def Claims.RegisterOperationFrame : Prop :=
  ∀ (i : Instr) (x : SOp) (s t : State), sopOf i = some x → x.opc < 0x80 → exec i s = .next t → IssueFrame s t

/-- R16, R20, R188, R193: the issue of any instruction that stands in a slot, or of a whole bundle, changes no byte of memory, no L2 sector,
no bank, no poison, no general register, vector, tile or accumulator: results, stores and engine steps come later. -/
def Claims.IssueTouchesNoMemory : Prop :=
  ∀ (i : Instr) (s t : State), ((sopOf i).isSome = true ∨ ∃ w, i = .bundleIssue w) → exec i s = .next t →
    t.mem = s.mem ∧ t.l2 = s.l2 ∧ t.banks = s.banks ∧ t.blocks = s.blocks ∧ t.poison = s.poison ∧ t.beat = s.beat ∧
    t.inputs = s.inputs ∧ t.core.a.s = s.core.a.s ∧ t.core.a.v = s.core.a.v ∧ t.core.a.tiles = s.core.a.tiles

/-! ## The machine as a whole -/

/-- R16, R22, R46: a step acts on the input that is due, else on the event that is due, else it gives the core in the focus its turn. In
its turn a core that may issue fetches the bundle at PC and runs the one operation decoded from it, or the bundle as a whole; collectives whose
guarded bytes it reaches with a shift that stands fail (R352); then the turn is over. One that may not issue passes, one whose fetch fails traps, one whose bundle lies in another module's memory asks for its
bytes first (R275). (The order of inputs, events and turns is the model's, log 9.) -/
def Obligations.StepRunsDecoded : Prop :=
  ∀ s : State,
    (∀ i t, s.nextInput = some (some i, t) → step s = exec i t) ∧
    (∀ t, s.nextInput = some (none, t) → step s = .next t) ∧
    (s.nextInput = none → ∀ e, s.nextEvent = some e → step s = e.run s) ∧
    (s.nextInput = none → s.nextEvent = none → s.hadTurn s.core = false →
      let u := s.ready
      let v := s.fresh
      let clear : State := { v with core := { v.core with fetchBad := none } }
      (u.mayIssue = false → step s = .next v.pass) ∧
      (u.mayIssue = true → u.fetchAway u.core = [] →
        (∀ f, u.fetch u.core = .error f → step s = .next (trapped clear f.1 f.2).pass) ∧
        (∀ w i t, u.fetch u.core = .ok w → expandBundle u.core.activeDict w = .ok [i] → exec i u = .next t →
          step s = .next (({ t with core := v.core.issued t.core } : State).failShifts (u.metShifts i)).pass) ∧
        (∀ w t, u.fetch u.core = .ok w → (∀ i, expandBundle u.core.activeDict w ≠ .ok [i]) → exec (.bundleIssue w) u = .next t →
          step s = .next (({ t with core := v.core.issued t.core } : State).failShifts (u.metShifts (.bundleIssue w))).pass)) ∧
      (u.mayIssue = true → u.fetchAway u.core ≠ [] →
        (∀ st, u.core.fetchBad = some st → step s = .next (trapped clear (fetchFault u.core st).1 (fetchFault u.core st).2).pass) ∧
        (u.core.fetchBad = none → v.core.fetchAsk = true → step s = .next v.pass) ∧
        (u.core.fetchBad = none → v.core.fetchAsk = false → step s = .next (({ v with core := { v.core with fetchAsk := true } } : State).askBytes
          v.core sysId (v.core.codeBase + 24 * v.core.pc) none (u.fetchAway u.core)).pass)))

/-- R37, R39: words written out from the encodings of the manual decode to the instructions they stand for: ADD s5, s3; MOV s2, 9; JMP −2;
CALL 16; HALT. -/
def Obligations.DecodedWords : Prop :=
  decodeTableWord 24 0b00_000100_000101_000011_0000 = some (.addDirectReg 5#6 3#6) ∧
  decodeTableWord 24 0b00_000001_000010_0000001001 = some (.movDirectImm 2#6 9#10) ∧
  decodeTableWord 24 0b00_100000_1111111111111110 = some (.jmpDirect 0xFFFE#16) ∧
  decodeTableWord 24 0b00_100011_0000000000010000 = some (.callDirect 16#16) ∧
  decodeTableWord 24 0b00_110000_0000000000000000 = some .haltDirect

/-- R34 to R46: for every well-formed instruction that stands in a slot, the words of its encoding decode to it, with every operand at
every value its encoding admits. -/
def Obligations.EncodeDecodeRoundTrip : Prop :=
  ∀ i : Instr, i.wf = true → (sopOf i).isSome = true → ∃ w, encode i = some w ∧ decode w = some i

/-- R6: every step keeps the form of the memory: addresses strictly rising, no cell that equals what its unlisted address reads as (log 2). -/
def Obligations.StepKeepsMemoryForm : Prop :=
  ∀ s t : State, s.Canonical → step s = .next t → t.Canonical

/-- R17, R140, R162, R238, R242, R246, R268, R279: after reset memory lists nothing, every bank is in SPAD mode with data from its own
quarter on, the L2 holds no sector, no page is poisoned, no store is pending and no context runs; the register budget is 64, every scale is
0x7F, the dictionary banks are invalid and bank A is active and selected, both copy channels are idle. (Memory with
nothing listed: log 2.) -/
def Obligations.ResetState : Prop :=
  State.reset.Canonical ∧ State.reset.mem.cells = [] ∧ State.reset.l2 = [] ∧ State.reset.poison = [] ∧ State.reset.blocks = [] ∧
  State.reset.perfs = [] ∧ State.reset.windows = [] ∧ State.reset.others = [] ∧ State.reset.core.run = .idle ∧
  (∀ c k b, (State.reset.banksOf c k).mode b = 0) ∧ (∀ c k q, q < 16 → qDbase ((State.reset.banksOf c k).qf q) = 0x4000 * q) ∧
  State.reset.core.budget = 3#2 ∧ State.reset.core.a.mscl = 0x7F7F7F7F7F7F7F7F#64 ∧
  (∀ n, State.reset.core.dict.toList.getD n none = none) ∧ State.reset.core.act = false ∧ State.reset.core.sel = false ∧
  State.reset.core.a.cond = 0#4 ∧ State.reset.core.a.fsw = 0#64 ∧ State.reset.core.a.fctl = 0#64 ∧
  State.reset.core.chan0.st = 0 ∧ State.reset.core.chan1.st = 0 ∧ State.reset.core.chan0.wm = 0 ∧ State.reset.core.chan1.wm = 0

/-- R45: entry 0 of each bank is the empty template: a slot that names it, its hole bits zero, holds no operation whatever the dictionary
says; DGET of entry 0 delivers 0; DSET to entry 0 changes no entry and reports code 10. -/
def Obligations.EntryZeroIsEmpty : Prop :=
  (∀ (dict : Nat → Option Template) (pos : Nat), expandSlot dict pos (1#2 ++ 0#22) = .ok .none) ∧
  (∀ (o : TOp) (s : State), issues 0xE2 o true s = true →
    (if o.md.getLsbD 1 then (s.core.a.rs (regN o.sb)).setWidth 8 else o.sa) = 0#8 →
    exec (.dget o) s = .next (issued 0xE2 o s (oneResult s o (some .sl) (beatsOf s .sl)
      [.s (regN o.dst) 0#64 true (if o.md.getLsbD 1 then taintOf s.core.a o.sb else 0)] 0#8))) ∧
  (∀ (o : TOp) (s : State), issues 0xE1 o true s = true →
    (if o.md.getLsbD 1 then (s.core.a.rs (regN o.sb)).setWidth 8 else o.dst) = 0#8 →
    exec (.dset o) s = .next (issued 0xE1 o s
      { nextBeat o s [.dset (o.md.getLsbD 0) 0#8 none 10] with changes := [.entry (o.md.getLsbD 0) 0#8 none] }))

/-! ## The statements that take several clauses together -/

/-- R83, R85, R86, R87: Scalar logic, shifts, counts, compare, moves and bit fields. -/
def Obligations.ScalarBitsAndMoves : Prop :=
  Claims.ScalarLogicShiftsCounts ∧ Claims.ScalarCompareMovesFields

/-- R88, R89, R90, R91: Scalar float operations and conversions. -/
def Obligations.ScalarFloats : Prop :=
  Claims.ScalarFloatResults ∧ Claims.ScalarSignAndIntegerConversions

/-- R113, R114, R117: Vector sums, products, smaller and larger values. -/
def Obligations.VectorArithmeticAndExtremes : Prop :=
  Claims.VectorArithmetic ∧ Claims.VectorMinMax

/-- R117, R118, R119, R120, R121, R130, R131, R132: Vector compare, select, permutes, lane moves, predicates and random lanes. -/
def Obligations.VectorSelection : Prop :=
  Claims.VectorCompareSelect ∧ Claims.VectorMovesPermutes ∧ Claims.VectorPredicatesAndRandom

/-- R36, R158, R159, R165, R168, R169, R173: DSET, DGET, DSEL, FFENCE and DLD, with the faults of DLD. -/
def Obligations.DictionaryInstructions : Prop :=
  Claims.DictionaryOperations ∧ Claims.DictionaryLoadStarts ∧ Claims.DictionaryLoadFaults ∧ Claims.DictionaryLoad

/-- R218, R219, R230: CKPT takes the state and RTE returns. -/
def Obligations.CheckpointsAndReturns : Prop :=
  Claims.CheckpointTakesTheState ∧ Claims.ReturnFromTrap

/-- R192, R193, R194, R195, R199, R200, R201, R208, R209, R210, R214, R220: Loads, stores, guarded stores and STREL issue. (Accesses whose checks
fail are in AtomicsIssue, differentiable ones under an adjoint mode in AdjointOperations; that a failed store which no FENCE has reported fails
every later STREL is the model's reading, log 13, DEDUCED.) -/
def Obligations.LoadsAndStoresIssue : Prop :=
  Claims.LoadsIssue ∧ Claims.StoresIssue ∧ Claims.StoreReleaseIssues ∧ Claims.GuardedStoresIssue ∧ Claims.InactiveAccessesTouchNoMemory

/-- R192, R193, R210, R212, R267, R269: Stores and store releases perform. -/
def Obligations.StoresPerform : Prop :=
  Claims.StoresPerformInTheL2 ∧ Claims.StorePerformsItsBytes ∧ Claims.StoreReleasePerforms

/-- R208, R211, R212, R217, R336: Outcomes of fences, loads and stores that fail. (That a load at its time limit faults with cause 0x08 is the
model's reading of detail 13 beside R217: log 13, DEDUCED.) -/
def Obligations.AccessOutcomes : Prop :=
  Claims.FenceAndLoadOutcomes ∧ Claims.StoreOutcomesReported

/-- R269, R270, R278, R280: Translation walks, L2 fills and write-backs. -/
def Obligations.TranslationsAndL2 : Prop :=
  Claims.WalksHoldTranslations ∧ Claims.L2FillAndWriteback

/-- R183, R203, R204, R269, R271: Atomics at their home are one step. -/
def Obligations.HomeAtomics : Prop :=
  Claims.HomeAtomicIsOneStep ∧ Claims.AtomicNewWords

/-- R78, R101, R173, R184, R194, R199, R217, R283: Replies, ends of waits, table reloads and Turnstile tiles. (That a refused answer faults with
cause 0x08 is the model's reading of details 10 to 13 beside R217: log 13, DEDUCED.) -/
def Obligations.RepliesAndWaits : Prop :=
  Claims.RepliesDeliver ∧ Claims.WaitsReloadsAndTiles

/-- R222, R227, R228, R229: Which traps go to the handler, and their entry. -/
def Obligations.TrapHandling : Prop :=
  Claims.TrapEntry ∧ Claims.HandlerRoute

/-- R16, R20, R81, R188, R193, R233, R245: What an issue leaves unchanged. -/
def Obligations.IssueFrames : Prop :=
  Claims.RegisterOperationFrame ∧ Claims.IssueTouchesNoMemory

/-- R140, R148, R149, R150, R151, R152: Operations of the matrix engine issue. -/
def Obligations.EngineIssue : Prop :=
  Claims.EngineOperationsIssue ∧ Claims.UnfoldingOperationsIssue

/-- R134, R140, R141: Results of the steps of the matrix engine. -/
def Obligations.EngineResults : Prop :=
  Claims.EngineSteps

/-- R153, R157: Operations of the accumulator slot issue. -/
def Obligations.AccumulatorSlotIssue : Prop :=
  Claims.AccumulatorOperationsIssue

/-- R244, R257, R262, R264, R265: Copy-channel instructions, CBANK and BUFSWAP. (That the end of a CRANGE range may be the end of the window is
log 14, DEDUCED; the beat at which a CBANK writes the tape is log 32, DEDUCED.) -/
def Obligations.CopyAndBankInstructions : Prop :=
  Claims.CopyInstructionsIssue ∧ Claims.BankModeInstruction ∧ Claims.BufferSwapInstruction

/-- R247, R249, R250, R251, R252, R253, R257: Copy channels fetch records, read and write chunks. (That a chunk of which an element is refused
writes nothing is log 14, DEDUCED.) -/
def Obligations.CopyChannelsRun : Prop :=
  Claims.RecordFetches ∧ Claims.ChunksAreRead ∧ Claims.ChunksAreWritten ∧ Claims.PlainRecordsMoveBytes

/-- R16, R46, R48, R99, R227: Bundles of several operations, and the beat overrun. -/
def Obligations.BundlesOfSeveralOperations : Prop :=
  Claims.BundlesIssueTogether ∧ Claims.BundleReadsBeforeItWrites ∧ Claims.BeatsRunOut

/-- R310, R313, R315, R316, R317, R318, R319, R320, R321: Host interfaces, queues, notify pages and completions. (That a packet is asked for as soon
as TAIL covers HEAD is log 26, DESIGN CHOICE; that a queue enabled again keeps its number and its open packets is log 18, DEDUCED.) -/
def Obligations.HostQueues : Prop :=
  Claims.PacketsAreFetched ∧ Claims.NotifyPages ∧ Claims.QueueSetUp ∧ Claims.InterfacesOpenAndClose ∧ Claims.HostDmaCompletes ∧ Claims.CompletionsAreWritten

/-- R293, R294, R295, R301, R302, R306, R314, R318, R320, R321, R322, R326, R327, R328, R334, R358: What the host packets do. (COPYIN and COPYOUT at
the homes: log 16; when KILL completes, KILL and RESUME in the other states: log 17; RANKNEW without a session: log 18; all DEDUCED.) -/
def Obligations.PacketsAct : Prop :=
  Claims.PacketsStart ∧ Claims.ResidencyChanges ∧ Claims.RankPackets ∧ Claims.ColdRanks ∧ Claims.CopyPackets ∧ Claims.DebugAndAttest ∧ Claims.JobPackets

/-- R219, R297, R298, R301, R304, R329: Launches, and the entry of their cores. -/
def Obligations.LaunchesEnter : Prop :=
  Claims.EntryState ∧ Claims.StartBeats ∧ Claims.LaunchesPrepare ∧ Claims.ArmedRanks ∧ Claims.CoresEnter

/-- R293, R294, R299, R301: Invalidations, ends of steps, parking of idle ranks. -/
def Obligations.StepsAndInvalidations : Prop :=
  Claims.Invalidations ∧ Claims.StepsEnd ∧ Claims.IdleRanksPark

/-- R279, R307, R311, R323, R324, R325, R328, R329: Boot, alarms, poison, throttle, BAR0 words and services. -/
def Obligations.SecurityAndServices : Prop :=
  Claims.Boots ∧ Claims.Alarms ∧ Claims.PoisonScrubs ∧ Claims.ThrottleAndManagement ∧ Claims.Bar0Words ∧ Claims.Services

/-- R275, R276, R330, R331, R332, R333, R334, R335, R336, R347, R354, R356: Flits, remote requests, replies and links. -/
def Obligations.FlitTraffic : Prop :=
  Claims.FlitsArrive ∧ Claims.RequestsAreServed ∧ Claims.RepliesSettle ∧ Claims.TargetsAnswer ∧ Claims.Links

/-- R340, R342, R343, R344, R345, R347, R349, R350, R351, R352: Collective transfers. -/
def Obligations.CollectivesRun : Prop :=
  Claims.TransfersAreCounted ∧ Claims.SendsStart ∧ Claims.SendsWait ∧ Claims.CollectivesComplete ∧ Claims.CollectivesFail ∧ Claims.ShiftsAreTakenOnce

/-- R353, R354, R355, R356: The rank-to-module map and migration. -/
def Obligations.RanksMove : Prop :=
  Claims.MapIsAdopted ∧ Claims.RanksMigrate

/-- R122, R125, R126, R127, R128: Vector conversions, functions of one operand, reductions, scans and extremes. -/
def Obligations.VectorFunctionsAndReductions : Prop :=
  Claims.VectorConversions ∧ Claims.VectorTranscendentals ∧ Claims.VectorReductions ∧ Claims.VectorFloatExtremes

/-- R92, R93, R94, R95, R106, R236: Branches, taken, not taken, or out of the code object; calls, returns, and the stack faults of calls. -/
def Obligations.BranchesAndCalls : Prop :=
  Claims.BranchesTakenOrNot ∧ Claims.GuardedBranchComparesPredicates ∧ Claims.CallsAndReturns ∧ Claims.CallStackFaults

/-- R36, R103, R104, R106, R189, R219: GETS reads special registers; SETS writes them, takes a checkpoint, or is a privilege trap or an adjoint
fault; template and direct forms. -/
def Obligations.SpecialRegisterAccess : Prop :=
  Claims.GetsReadsSpecialRegisters ∧ Claims.SpecialRegistersReadTheirFields ∧ Claims.SetsWritesSpecialRegisters ∧
    Claims.DirectSetsWritesSpecialRegisters ∧ Claims.TapeFlushed

/-- R12, R20, R29, R73, R74, R103: Delivery of results and of SETS, and its frame. -/
def Obligations.Delivery : Prop :=
  Claims.DeliveryWritesOneResult ∧ Claims.DeliveryFrame ∧ Claims.DeliveryOfSets

/-- R240, R244, R252, R255, R257, R259, R264, R265, R266: Copy records end, FIFO chunks proceed, banks switch mode, phases commit and cancel. -/
def Obligations.CopyRecordsAndPhases : Prop :=
  Claims.RecordsEnd ∧ Claims.FifoChunksProceed ∧ Claims.BankSwitches ∧ Claims.PhaseCommits ∧ Claims.PhasesCancel

/-- R100, R161, R179, R227, R229, R234, R237, R263, R266, R295, R302, R304: Contexts are saved, restored, or stopped by firmware traps; the tape bank
spills and refills. -/
def Obligations.ContextsAndTapesMove : Prop :=
  Claims.ContextsAreSaved ∧ Claims.ContextsAreRestored ∧ Claims.FirmwareTraps ∧ Claims.TapeMoves

/-- R100, R194, R210, R211, R217, R227, R228, R229, R269, R271, R278, R302: The events of cores and of memory complete. -/
def Obligations.CoreEventsComplete : Prop :=
  Claims.StoresComplete ∧ Claims.AccessesComplete ∧ Claims.MemoryEventsComplete ∧ Claims.ContextEventsComplete

/-- R240, R244, R247, R250, R252, R253, R255, R259, R264, R266: The events of copy channels, banks and phases complete. -/
def Obligations.CopyAndPhaseEventsComplete : Prop :=
  Claims.ChannelEventsComplete ∧ Claims.BankAndPhaseEventsComplete

/-- R293, R294, R297, R299, R301, R318, R322, R324, R326, R327, R358: The host packets and the events of launches complete. -/
def Obligations.PacketsComplete : Prop :=
  Claims.StepEventsComplete ∧ Claims.PacketEventsComplete

/-- R279, R307, R310, R311, R313, R315, R317, R319, R323, R325, R328, R329: Host writes and the events of the device complete. -/
def Obligations.HostAndDeviceEventsComplete : Prop :=
  Claims.HostWritesComplete ∧ Claims.DeviceEventsComplete

/-- R330, R331, R332, R334, R335, R336, R342, R343, R344, R350, R352, R353: Flits, links, collectives, the map and migration complete. -/
def Obligations.FabricEventsComplete : Prop :=
  Claims.FlitEventsComplete ∧ Claims.CollectiveEventsComplete
end

