-- ==== Sys2Proof/Laws/Crypto.lean ====
section
/-! SUPPORT. Lengths in AES-256, and a unit sealed under a 32-byte key opens to what was sealed. -/
namespace Sys2Proof.Machine

@[simp] theorem xorBytes_length (a b : List Byte) : (xorBytes a b).length = min a.length b.length := by simp [xorBytes]
@[simp] theorem aesGen_length (f : Nat → Nat → Byte) : (aesGen f).length = 16 := by simp [aesGen]
@[simp] theorem aesShift_length (b : List Byte) : (aesShift b).length = 16 := aesGen_length _
theorem leBytes_length : ∀ n x, (leBytes n x).length = n
  | 0, _ => rfl
  | n + 1, x => by simp [leBytes, leBytes_length n]
@[simp] theorem beBytes_length (n x : Nat) : (beBytes n x).length = n := by
  simp [beBytes, leBytes_length]

theorem rotateLeft_length (l : List Byte) : (l.rotateLeft 1).length = l.length := by
  simp only [List.rotateLeft]; split
  · rfl
  · simp only [List.length_append, List.length_drop, List.length_take]; omega
/-- Lists of one length, joined. -/
theorem flatten_length_of {k : Nat} : ∀ {l : List (List Byte)}, (∀ w ∈ l, w.length = k) → l.flatten.length = k * l.length
  | [], _ => rfl
  | w :: l, h => by
    rw [List.flatten_cons, List.length_append, h w (by simp), flatten_length_of (fun x hx => h x (by simp [hx])), List.length_cons, Nat.mul_succ]
    omega

/-- The same bytes twice leave a text as it was. -/
theorem xorBytes_twice : ∀ (a b : List Byte), a.length ≤ b.length → xorBytes (xorBytes a b) b = a
  | [], b, _ => by simp [xorBytes]
  | x :: a, [], h => by simp at h
  | x :: a, y :: b, h => by
    have := xorBytes_twice a b (by simpa using h)
    simp only [xorBytes, List.zipWith_cons_cons] at this ⊢
    rw [this, BitVec.xor_assoc, BitVec.xor_self, BitVec.xor_zero]

/-- The key schedule after `n` steps: `n` words more, of four bytes each. -/
theorem aesGrow_length (key : List Byte) (h : key.length = 32) (n : Nat) :
    let x := (List.range n).foldl aesGrow ((List.range 8).map (fun i => (key.drop (4 * i)).take 4), 0x01#8)
    x.1.length = 8 + n ∧ ∀ w ∈ x.1, w.length = 4 := by
  induction n with
  | zero =>
    refine ⟨by simp, fun w hw => ?_⟩
    simp only [List.range_zero, List.foldl_nil, List.mem_map, List.mem_range] at hw
    obtain ⟨i, hi, rfl⟩ := hw
    simp only [List.length_take, List.length_drop]; omega
  | succ n ih =>
    rw [List.range_succ (n := n), List.foldl_append]
    generalize (List.range n).foldl aesGrow _ = x at ih ⊢
    obtain ⟨hl, hw⟩ := ih
    have at_ : ∀ i < 8 + n, (x.1.getD i []).length = 4 := fun i hi => by
      rw [List.getD_eq_getElem?_getD, List.getElem?_eq_getElem (by omega)]; exact hw _ (List.getElem_mem _)
    have h1 := at_ n (by omega)
    have h2 := at_ (n + 7) (by omega)
    refine ⟨by simp [aesGrow, hl]; omega, fun w hm => ?_⟩
    simp only [List.foldl_cons, List.foldl_nil, aesGrow, List.mem_append, List.mem_singleton] at hm
    rcases hm with hm | rfl
    · exact hw _ hm
    · rw [xorBytes_length, h1]
      split
      · rw [xorBytes_length, List.length_map, rotateLeft_length, h2]; rfl
      · split
        · rw [List.length_map, h2]; rfl
        · rw [h2]; rfl
theorem aesWords_length (key : List Byte) (h : key.length = 32) : (aesWords key).length = 60 ∧ ∀ w ∈ aesWords key, w.length = 4 :=
  aesGrow_length key h 52

/-- Each round key is a block. -/
theorem aesKeys_length (key : List Byte) (h : key.length = 32) (i : Nat) (hi : i < 15) : ((aesKeys key).getD i []).length = 16 := by
  obtain ⟨hl, hw⟩ := aesWords_length key h
  have hk : (aesKeys key).getD i [] = (((aesWords key).drop (4 * i)).take 4).flatten := by
    simp [aesKeys, List.getD_eq_getElem?_getD, hi]
  rw [hk, flatten_length_of (k := 4) (fun w hm => hw w (List.mem_of_mem_drop (List.mem_of_mem_take hm))), List.length_take, List.length_drop, hl]
  omega

theorem aesEnc_length (key b : List Byte) (h : key.length = 32) : (aesEnc (aesKeys key) b).length = 16 := by
  have := aesKeys_length key h 14 (by omega)
  simp only [aesEnc, xorBytes_length, aesShift_length, this]; rfl

/-- What is sealed under a key of AES-256 opens again. -/
theorem aesOpen_aesSeal (key head plain : List Byte) (h : key.length = 32) : aesOpen key head (aesSeal key head plain) = some plain := by
  have ht : ∀ c, (gcmTag (aesKeys key) (headIv head) head c).length = 16 := fun c => by simp [gcmTag, aesEnc_length _ _ h]
  have hs : ∀ n, ((List.range n).flatMap (fun i => aesEnc (aesKeys key) (headIv head ++ beBytes 4 (i + 2)))).length = 16 * n := fun n => by
    rw [List.flatMap_def, flatten_length_of (k := 16) (by simp [aesEnc_length _ _ h]), List.length_map, List.length_range]
  have hx : (gcmText (aesKeys key) (headIv head) plain).length = plain.length := by simp [gcmText, hs]; omega
  have hb : gcmText (aesKeys key) (headIv head) (gcmText (aesKeys key) (headIv head) plain) = plain := by
    rw [gcmText, hx]
    exact xorBytes_twice _ _ (by rw [hs]; omega)
  simp [aesOpen, aesSeal, ht, hb]

end Sys2Proof.Machine
end

