-- ==== Sys2Proof/Laws/Issue.lean ====
section
/-! SUPPORT. What the issue of one operation can do: one equation for its effect, one for each kind of trap, one for a wait. -/
namespace Sys2Proof.Laws
open Sys2Proof.Machine

theorem drawPlan_one (f : SOp → Bool) (x : SOp) : drawPlan f 0 none [x] = if f x then ([0], 1) else ([0], 0) := by
  unfold drawPlan; by_cases h : f x <;> simp [h, drawPlan]

/-- The effect takes no room in the withholding buffer, or the core withholds nothing (R220). -/
def Roomy (opc : Nat) (s : State) (e : Eff) : Prop := s.core.guarded = false ∨ heldNeed (opc, .ok e) = 0

theorem gaps_one (opc : Nat) (s : State) (e : Eff) (h : Roomy opc s e) : s.core.gaps [(opc, .ok e)] = [.ok e] := by
  unfold Core.gaps
  rcases h with h | h
  · simp [h]
  · split
    · simp [gapFaults, h]
    · rfl

/-- The conditions of an issue rule, taken apart, for the operation with its meaning. -/
theorem issues_parts {opc : Nat} {o : TOp} (run : Env → Out) {d : Bool} {s : State} (h : issues opc o d s = true) :
    regWait s ⟨opc, o, run⟩ = none ∧ dictWait s d = false ∧ budgetFault s.core [⟨opc, o, run⟩] = none ∧ stageCollision s = none ∧
    collision s [] [⟨opc, o, run⟩] = none ∧
    drawCollision [⟨opc, o, run⟩] (if drawsS opc o then 1 else 0) (if drawsC opc then 1 else 0) = none ∧
    (s.core.yleft == 0 && !(opc == 0xDB)) = false ∧ loopEndFault s.core [⟨opc, o, run⟩] = none := by
  simp only [issues, Bool.and_eq_true, Option.isNone_iff_eq_none, Bool.not_eq_true', Bool.or_eq_true, bne_iff_ne, ne_eq,
    beq_iff_eq] at h
  obtain ⟨⟨⟨⟨⟨⟨⟨h1, h2⟩, h3⟩, h4⟩, h5⟩, h6⟩, h7⟩, h8⟩ := h
  refine ⟨h1, h2, h3, h4, h5, ?_, ?_, h8⟩
  · rw [← h6]; unfold drawCollision; simp only [List.findSome?_cons, List.findSome?_nil, bare, List.find?_cons, List.find?_nil]
    generalize (if (o.dst == 13#8) = true then drawsS opc o else drawsC opc) = z
    cases z <;> rfl
  · rcases h7 with h | h
    · simp [h]
    · simp [h]

/-- A plan of draws for one operation: its number of draws, and its own draw at the counter's value (R79). -/
theorem drawPlan_cases (f : SOp → Bool) (x : SOp) : (drawPlan f 0 none [x]).2 = (if f x then 1 else 0) ∧ (drawPlan f 0 none [x]).1 = [0] := by
  rw [drawPlan_one]; split <;> exact ⟨rfl, rfl⟩

/-- One operation alone switches no bank that it uses itself (R244). -/
theorem withSwitches_one {c : Core} {k : Nat} {e : Eff} (h : e.waits = [] ∨ e.bankUses c = []) : withSwitches c [(k, .ok e)] = [.ok e] := by
  unfold withSwitches
  rcases h with h | h
  · simp [h]
  · simp only [List.map_cons, List.map_nil, List.any_cons, List.any_nil, h, Bool.or_false, ite_eq_right_iff, List.cons.injEq, and_true]
    intro hc
    simp only [Bool.and_eq_true, List.any_eq_true] at hc
    obtain ⟨-, w, -, hw⟩ := hc
    cases w <;> simp at hw
theorem withSwitches_fault {c : Core} {j k : Nat} {x : Word64} : withSwitches c [(j, .fault k x)] = [.fault k x] := rfl

theorem issueOne_ok {opc : Nat} {o : TOp} {run : TOp → Env → Out} {d : Bool} {s : State} {e : Eff}
    (h : issues opc o d s = true) (hr : run o (seen opc o s) = .ok e) (hn : Roomy opc s e)
    (hl : e.late e.perfs = none := by rfl) (hc : e.ckpt = true → heldClash s o.slot = none := by intro h; cases h)
    (hb : e.waits = [] ∨ e.bankUses s.core = [] := by exact .inl rfl) :
    issueOne opc o run d s = issued opc o s e := by
  obtain ⟨k1, k2, k3, k4, k5, k6, k7, k8⟩ := issues_parts (run o) h
  obtain ⟨hS, gS⟩ := drawPlan_cases (fun x => drawsS x.opc x.o) ⟨opc, o, run o⟩
  obtain ⟨hC, gC⟩ := drawPlan_cases (fun x => drawsC x.opc) ⟨opc, o, run o⟩
  have hr' : run o ⟨s, if drawsC opc then drawLanes s.core.tomb s.core.a.rngc
      else if drawsS opc o then drawLanes s.core.tomb s.core.a.rngs else lanes0, 0⟩ = .ok e := hr
  have hk : (if e.ckpt then heldClash s o.slot else none) = none := by
    split
    · exact hc ‹_›
    · rfl
  unfold issueOne issueOps State.bundleWaits State.bundleLanes
  simp only [hS, hC, gS, gC, k1, k2, k3, k4, k5, k6, k7, k8, List.map_cons, List.map_nil, runOps,
    List.getD_cons_zero, BitVec.add_zero, hr', List.any_cons, List.any_nil, Option.isSome_none, Bool.or_false,
    Out.waits, Out.holds, Bool.and_false, Bool.false_eq_true, if_false, Option.or_none, firstMismatch, List.zip_cons_cons, List.zip_nil_right,
    timed, ite_self, gaps_one _ _ _ hn, withLate, List.flatMap_cons, List.flatMap_nil, List.append_nil, hl, withSwitches_one hb, withClashes,
    windowClash, List.findSome?_nil, hk, faultOrder, Option.toList_none]
  by_cases h0 : o.slot = 0
  · simp [h0, firstFault, Out.eff, issued]
  · by_cases hs : o.slot ≤ 6
    · simp [h0, hs, firstFault, Out.eff, issued]
    · simp [h0, hs, firstFault, Out.eff, issued]

/-- No checkpoint gap stands before the fault, which is none itself (R221, R392). -/
def NoGap (opc : Nat) (s : State) (k : Nat) (x : Word64) : Prop :=
  s.core.guarded = false ∨ (k ≠ 0x1A ∧ (heldStatic opc = 0 ∨ beforeGap (.fault k x) = true))

theorem gaps_fault (opc : Nat) (s : State) (k : Nat) (x : Word64) (h : NoGap opc s k x) :
    s.core.gaps [(opc, .fault k x)] = [.fault k x] := by
  unfold Core.gaps
  rcases h with h | ⟨hk, h⟩
  · simp [h]
  · split
    · rcases h with h | h
      · unfold gapFaults
        split
        · rename_i a heq; cases heq; exact absurd rfl hk
        · simp [heldNeed, h, gapFaults]
      · unfold gapFaults
        split
        · rename_i a heq; cases heq; exact absurd rfl hk
        · simp [h, gapFaults]
    · rfl

theorem issueOne_fault {opc : Nat} {o : TOp} {run : TOp → Env → Out} {d : Bool} {s : State} {k : Nat} {x : Word64}
    (h : issues opc o d s = true) (hr : run o (seen opc o s) = .fault k x) (hn : NoGap opc s k x) :
    issueOne opc o run d s = trapIssue s k x := by
  obtain ⟨k1, k2, k3, k4, k5, k6, k7, k8⟩ := issues_parts (run o) h
  obtain ⟨hS, gS⟩ := drawPlan_cases (fun x => drawsS x.opc x.o) ⟨opc, o, run o⟩
  obtain ⟨hC, gC⟩ := drawPlan_cases (fun x => drawsC x.opc) ⟨opc, o, run o⟩
  have hr' : run o ⟨s, if drawsC opc then drawLanes s.core.tomb s.core.a.rngc
      else if drawsS opc o then drawLanes s.core.tomb s.core.a.rngs else lanes0, 0⟩ = .fault k x := hr
  unfold issueOne issueOps State.bundleWaits State.bundleLanes
  simp only [hS, hC, gS, gC, k1, k2, k3, k4, k5, k6, k7, k8, List.map_cons, List.map_nil, runOps,
    List.getD_cons_zero, BitVec.add_zero, hr', List.any_cons, List.any_nil, Option.isSome_none, Bool.or_false,
    Out.waits, Out.holds, Bool.and_false, Bool.false_eq_true, if_false, Option.or_none, firstMismatch, List.zip_cons_cons, List.zip_nil_right,
    timed, ite_self, gaps_fault _ _ _ _ hn, withLate, List.flatMap_cons, List.flatMap_nil, List.append_nil, withSwitches_fault, withClashes,
    faultOrder, Option.toList_none]
  by_cases h0 : o.slot = 0
  · simp [h0, firstFault]
  · by_cases hs : o.slot ≤ 6
    · simp [h0, hs, firstFault]
    · simp [h0, hs, firstFault]

/-- A wait in free-running code leaves the state as it is (R22, R194). -/
theorem issueOne_wait {opc : Nat} {o : TOp} {run : TOp → Env → Out} {d : Bool} {s : State} {r x : Nat}
    (ht : s.core.timetabled = false) (hr : run o (seen opc o s) = .wait r x) : issueOne opc o run d s = s := by
  obtain ⟨_, gS⟩ := drawPlan_cases (fun x => drawsS x.opc x.o) ⟨opc, o, run o⟩
  obtain ⟨_, gC⟩ := drawPlan_cases (fun x => drawsC x.opc) ⟨opc, o, run o⟩
  have hr' : run o ⟨s, if drawsC opc then drawLanes s.core.tomb s.core.a.rngc
      else if drawsS opc o then drawLanes s.core.tomb s.core.a.rngs else lanes0, 0⟩ = .wait r x := hr
  unfold issueOne issueOps State.bundleWaits State.bundleLanes
  simp [gS, gC, hr', ht, runOps, Out.waits]

end Sys2Proof.Laws
end

