-- ==== Sys2Proof/Laws/State.lean ====
section
/-! SUPPORT. What the named updates of the state leave alone: one equation for each field and each update. -/
namespace Sys2Proof.Machine

/-! ## `mapCore` -/

@[simp] theorem State.mapCore_beat (s : State) (a b : Nat) (f : Core → Core) : (s.mapCore a b f).beat = s.beat := rfl
@[simp] theorem State.mapCore_turned (s : State) (a b : Nat) (f : Core → Core) : (s.mapCore a b f).turned = s.turned := rfl
@[simp] theorem State.mapCore_inputs (s : State) (a b : Nat) (f : Core → Core) : (s.mapCore a b f).inputs = s.inputs := rfl
@[simp] theorem State.mapCore_mem (s : State) (a b : Nat) (f : Core → Core) : (s.mapCore a b f).mem = s.mem := rfl
@[simp] theorem State.mapCore_banks (s : State) (a b : Nat) (f : Core → Core) : (s.mapCore a b f).banks = s.banks := rfl
@[simp] theorem State.mapCore_blocks (s : State) (a b : Nat) (f : Core → Core) : (s.mapCore a b f).blocks = s.blocks := rfl
@[simp] theorem State.mapCore_l2 (s : State) (a b : Nat) (f : Core → Core) : (s.mapCore a b f).l2 = s.l2 := rfl
@[simp] theorem State.mapCore_poison (s : State) (a b : Nat) (f : Core → Core) : (s.mapCore a b f).poison = s.poison := rfl
@[simp] theorem State.mapCore_perfs (s : State) (a b : Nat) (f : Core → Core) : (s.mapCore a b f).perfs = s.perfs := rfl
@[simp] theorem State.mapCore_windows (s : State) (a b : Nat) (f : Core → Core) : (s.mapCore a b f).windows = s.windows := rfl
@[simp] theorem State.mapCore_free (s : State) (a b : Nat) (f : Core → Core) : (s.mapCore a b f).free = s.free := rfl
@[simp] theorem State.mapCore_pk (s : State) (a b : Nat) (f : Core → Core) : (s.mapCore a b f).pk = s.pk := rfl

/-! ## `mapCores` -/

@[simp] theorem State.mapCores_beat (s : State) (f : Core → Core) : (s.mapCores f).beat = s.beat := rfl
@[simp] theorem State.mapCores_turned (s : State) (f : Core → Core) : (s.mapCores f).turned = s.turned := rfl
@[simp] theorem State.mapCores_inputs (s : State) (f : Core → Core) : (s.mapCores f).inputs = s.inputs := rfl
@[simp] theorem State.mapCores_mem (s : State) (f : Core → Core) : (s.mapCores f).mem = s.mem := rfl
@[simp] theorem State.mapCores_banks (s : State) (f : Core → Core) : (s.mapCores f).banks = s.banks := rfl
@[simp] theorem State.mapCores_blocks (s : State) (f : Core → Core) : (s.mapCores f).blocks = s.blocks := rfl
@[simp] theorem State.mapCores_l2 (s : State) (f : Core → Core) : (s.mapCores f).l2 = s.l2 := rfl
@[simp] theorem State.mapCores_poison (s : State) (f : Core → Core) : (s.mapCores f).poison = s.poison := rfl
@[simp] theorem State.mapCores_perfs (s : State) (f : Core → Core) : (s.mapCores f).perfs = s.perfs := rfl
@[simp] theorem State.mapCores_windows (s : State) (f : Core → Core) : (s.mapCores f).windows = s.windows := rfl
@[simp] theorem State.mapCores_free (s : State) (f : Core → Core) : (s.mapCores f).free = s.free := rfl
@[simp] theorem State.mapCores_pk (s : State) (f : Core → Core) : (s.mapCores f).pk = s.pk := rfl

/-! ## `setBanks` -/

@[simp] theorem State.setBanks_beat (s : State) (b : Banks) : (s.setBanks b).beat = s.beat := rfl
@[simp] theorem State.setBanks_core (s : State) (b : Banks) : (s.setBanks b).core = s.core := rfl
@[simp] theorem State.setBanks_others (s : State) (b : Banks) : (s.setBanks b).others = s.others := rfl
@[simp] theorem State.setBanks_turned (s : State) (b : Banks) : (s.setBanks b).turned = s.turned := rfl
@[simp] theorem State.setBanks_inputs (s : State) (b : Banks) : (s.setBanks b).inputs = s.inputs := rfl
@[simp] theorem State.setBanks_mem (s : State) (b : Banks) : (s.setBanks b).mem = s.mem := rfl
@[simp] theorem State.setBanks_blocks (s : State) (b : Banks) : (s.setBanks b).blocks = s.blocks := rfl
@[simp] theorem State.setBanks_l2 (s : State) (b : Banks) : (s.setBanks b).l2 = s.l2 := rfl
@[simp] theorem State.setBanks_poison (s : State) (b : Banks) : (s.setBanks b).poison = s.poison := rfl
@[simp] theorem State.setBanks_perfs (s : State) (b : Banks) : (s.setBanks b).perfs = s.perfs := rfl
@[simp] theorem State.setBanks_windows (s : State) (b : Banks) : (s.setBanks b).windows = s.windows := rfl
@[simp] theorem State.setBanks_free (s : State) (b : Banks) : (s.setBanks b).free = s.free := rfl
@[simp] theorem State.setBanks_pk (s : State) (b : Banks) : (s.setBanks b).pk = s.pk := rfl

/-! ## `setSector` -/

@[simp] theorem State.setSector_beat (s : State) (x : L2Sector) : (s.setSector x).beat = s.beat := rfl
@[simp] theorem State.setSector_core (s : State) (x : L2Sector) : (s.setSector x).core = s.core := rfl
@[simp] theorem State.setSector_others (s : State) (x : L2Sector) : (s.setSector x).others = s.others := rfl
@[simp] theorem State.setSector_turned (s : State) (x : L2Sector) : (s.setSector x).turned = s.turned := rfl
@[simp] theorem State.setSector_inputs (s : State) (x : L2Sector) : (s.setSector x).inputs = s.inputs := rfl
@[simp] theorem State.setSector_mem (s : State) (x : L2Sector) : (s.setSector x).mem = s.mem := rfl
@[simp] theorem State.setSector_banks (s : State) (x : L2Sector) : (s.setSector x).banks = s.banks := rfl
@[simp] theorem State.setSector_blocks (s : State) (x : L2Sector) : (s.setSector x).blocks = s.blocks := rfl
@[simp] theorem State.setSector_poison (s : State) (x : L2Sector) : (s.setSector x).poison = s.poison := rfl
@[simp] theorem State.setSector_perfs (s : State) (x : L2Sector) : (s.setSector x).perfs = s.perfs := rfl
@[simp] theorem State.setSector_windows (s : State) (x : L2Sector) : (s.setSector x).windows = s.windows := rfl
@[simp] theorem State.setSector_free (s : State) (x : L2Sector) : (s.setSector x).free = s.free := rfl
@[simp] theorem State.setSector_pk (s : State) (x : L2Sector) : (s.setSector x).pk = s.pk := rfl

/-! ## `dropSector` -/

@[simp] theorem State.dropSector_beat (s : State) (d n : Nat) : (s.dropSector d n).beat = s.beat := rfl
@[simp] theorem State.dropSector_core (s : State) (d n : Nat) : (s.dropSector d n).core = s.core := rfl
@[simp] theorem State.dropSector_others (s : State) (d n : Nat) : (s.dropSector d n).others = s.others := rfl
@[simp] theorem State.dropSector_turned (s : State) (d n : Nat) : (s.dropSector d n).turned = s.turned := rfl
@[simp] theorem State.dropSector_inputs (s : State) (d n : Nat) : (s.dropSector d n).inputs = s.inputs := rfl
@[simp] theorem State.dropSector_mem (s : State) (d n : Nat) : (s.dropSector d n).mem = s.mem := rfl
@[simp] theorem State.dropSector_banks (s : State) (d n : Nat) : (s.dropSector d n).banks = s.banks := rfl
@[simp] theorem State.dropSector_blocks (s : State) (d n : Nat) : (s.dropSector d n).blocks = s.blocks := rfl
@[simp] theorem State.dropSector_poison (s : State) (d n : Nat) : (s.dropSector d n).poison = s.poison := rfl
@[simp] theorem State.dropSector_perfs (s : State) (d n : Nat) : (s.dropSector d n).perfs = s.perfs := rfl
@[simp] theorem State.dropSector_windows (s : State) (d n : Nat) : (s.dropSector d n).windows = s.windows := rfl
@[simp] theorem State.dropSector_free (s : State) (d n : Nat) : (s.dropSector d n).free = s.free := rfl
@[simp] theorem State.dropSector_pk (s : State) (d n : Nat) : (s.dropSector d n).pk = s.pk := rfl

/-! ## `spadWrite` -/

@[simp] theorem State.spadWrite_beat (s : State) (ws : List ByteW) : (s.spadWrite ws).beat = s.beat := rfl
@[simp] theorem State.spadWrite_core (s : State) (ws : List ByteW) : (s.spadWrite ws).core = s.core := rfl
@[simp] theorem State.spadWrite_others (s : State) (ws : List ByteW) : (s.spadWrite ws).others = s.others := rfl
@[simp] theorem State.spadWrite_turned (s : State) (ws : List ByteW) : (s.spadWrite ws).turned = s.turned := rfl
@[simp] theorem State.spadWrite_inputs (s : State) (ws : List ByteW) : (s.spadWrite ws).inputs = s.inputs := rfl
@[simp] theorem State.spadWrite_banks (s : State) (ws : List ByteW) : (s.spadWrite ws).banks = s.banks := rfl
@[simp] theorem State.spadWrite_blocks (s : State) (ws : List ByteW) : (s.spadWrite ws).blocks = s.blocks := rfl
@[simp] theorem State.spadWrite_l2 (s : State) (ws : List ByteW) : (s.spadWrite ws).l2 = s.l2 := rfl
@[simp] theorem State.spadWrite_poison (s : State) (ws : List ByteW) : (s.spadWrite ws).poison = s.poison := rfl
@[simp] theorem State.spadWrite_perfs (s : State) (ws : List ByteW) : (s.spadWrite ws).perfs = s.perfs := rfl
@[simp] theorem State.spadWrite_windows (s : State) (ws : List ByteW) : (s.spadWrite ws).windows = s.windows := rfl
@[simp] theorem State.spadWrite_free (s : State) (ws : List ByteW) : (s.spadWrite ws).free = s.free := rfl
@[simp] theorem State.spadWrite_pk (s : State) (ws : List ByteW) : (s.spadWrite ws).pk = s.pk := rfl

/-! ## `emit` -/

@[simp] theorem State.emit_beat (s : State) (m : OutMsg) : (s.emit m).beat = s.beat := rfl
@[simp] theorem State.emit_core (s : State) (m : OutMsg) : (s.emit m).core = s.core := rfl
@[simp] theorem State.emit_others (s : State) (m : OutMsg) : (s.emit m).others = s.others := rfl
@[simp] theorem State.emit_turned (s : State) (m : OutMsg) : (s.emit m).turned = s.turned := rfl
@[simp] theorem State.emit_inputs (s : State) (m : OutMsg) : (s.emit m).inputs = s.inputs := rfl
@[simp] theorem State.emit_mem (s : State) (m : OutMsg) : (s.emit m).mem = s.mem := rfl
@[simp] theorem State.emit_banks (s : State) (m : OutMsg) : (s.emit m).banks = s.banks := rfl
@[simp] theorem State.emit_blocks (s : State) (m : OutMsg) : (s.emit m).blocks = s.blocks := rfl
@[simp] theorem State.emit_l2 (s : State) (m : OutMsg) : (s.emit m).l2 = s.l2 := rfl
@[simp] theorem State.emit_poison (s : State) (m : OutMsg) : (s.emit m).poison = s.poison := rfl
@[simp] theorem State.emit_perfs (s : State) (m : OutMsg) : (s.emit m).perfs = s.perfs := rfl
@[simp] theorem State.emit_windows (s : State) (m : OutMsg) : (s.emit m).windows = s.windows := rfl
@[simp] theorem State.emit_free (s : State) (m : OutMsg) : (s.emit m).free = s.free := rfl

/-! ## `setPort` -/

@[simp] theorem State.setPort_beat (s : State) (p : Port) : (s.setPort p).beat = s.beat := rfl
@[simp] theorem State.setPort_core (s : State) (p : Port) : (s.setPort p).core = s.core := rfl
@[simp] theorem State.setPort_others (s : State) (p : Port) : (s.setPort p).others = s.others := rfl
@[simp] theorem State.setPort_turned (s : State) (p : Port) : (s.setPort p).turned = s.turned := rfl
@[simp] theorem State.setPort_inputs (s : State) (p : Port) : (s.setPort p).inputs = s.inputs := rfl
@[simp] theorem State.setPort_mem (s : State) (p : Port) : (s.setPort p).mem = s.mem := rfl
@[simp] theorem State.setPort_banks (s : State) (p : Port) : (s.setPort p).banks = s.banks := rfl
@[simp] theorem State.setPort_blocks (s : State) (p : Port) : (s.setPort p).blocks = s.blocks := rfl
@[simp] theorem State.setPort_l2 (s : State) (p : Port) : (s.setPort p).l2 = s.l2 := rfl
@[simp] theorem State.setPort_poison (s : State) (p : Port) : (s.setPort p).poison = s.poison := rfl
@[simp] theorem State.setPort_perfs (s : State) (p : Port) : (s.setPort p).perfs = s.perfs := rfl
@[simp] theorem State.setPort_windows (s : State) (p : Port) : (s.setPort p).windows = s.windows := rfl
@[simp] theorem State.setPort_free (s : State) (p : Port) : (s.setPort p).free = s.free := rfl

/-! ## `setQueue` -/

@[simp] theorem State.setQueue_beat (s : State) (q : Queue) : (s.setQueue q).beat = s.beat := rfl
@[simp] theorem State.setQueue_core (s : State) (q : Queue) : (s.setQueue q).core = s.core := rfl
@[simp] theorem State.setQueue_others (s : State) (q : Queue) : (s.setQueue q).others = s.others := rfl
@[simp] theorem State.setQueue_turned (s : State) (q : Queue) : (s.setQueue q).turned = s.turned := rfl
@[simp] theorem State.setQueue_inputs (s : State) (q : Queue) : (s.setQueue q).inputs = s.inputs := rfl
@[simp] theorem State.setQueue_mem (s : State) (q : Queue) : (s.setQueue q).mem = s.mem := rfl
@[simp] theorem State.setQueue_banks (s : State) (q : Queue) : (s.setQueue q).banks = s.banks := rfl
@[simp] theorem State.setQueue_blocks (s : State) (q : Queue) : (s.setQueue q).blocks = s.blocks := rfl
@[simp] theorem State.setQueue_l2 (s : State) (q : Queue) : (s.setQueue q).l2 = s.l2 := rfl
@[simp] theorem State.setQueue_poison (s : State) (q : Queue) : (s.setQueue q).poison = s.poison := rfl
@[simp] theorem State.setQueue_perfs (s : State) (q : Queue) : (s.setQueue q).perfs = s.perfs := rfl
@[simp] theorem State.setQueue_windows (s : State) (q : Queue) : (s.setQueue q).windows = s.windows := rfl
@[simp] theorem State.setQueue_free (s : State) (q : Queue) : (s.setQueue q).free = s.free := rfl

/-! ## `setQif` -/

@[simp] theorem State.setQif_beat (s : State) (i : Nat) (w : Word64) : (s.setQif i w).beat = s.beat := rfl
@[simp] theorem State.setQif_core (s : State) (i : Nat) (w : Word64) : (s.setQif i w).core = s.core := rfl
@[simp] theorem State.setQif_others (s : State) (i : Nat) (w : Word64) : (s.setQif i w).others = s.others := rfl
@[simp] theorem State.setQif_turned (s : State) (i : Nat) (w : Word64) : (s.setQif i w).turned = s.turned := rfl
@[simp] theorem State.setQif_inputs (s : State) (i : Nat) (w : Word64) : (s.setQif i w).inputs = s.inputs := rfl
@[simp] theorem State.setQif_mem (s : State) (i : Nat) (w : Word64) : (s.setQif i w).mem = s.mem := rfl
@[simp] theorem State.setQif_banks (s : State) (i : Nat) (w : Word64) : (s.setQif i w).banks = s.banks := rfl
@[simp] theorem State.setQif_blocks (s : State) (i : Nat) (w : Word64) : (s.setQif i w).blocks = s.blocks := rfl
@[simp] theorem State.setQif_l2 (s : State) (i : Nat) (w : Word64) : (s.setQif i w).l2 = s.l2 := rfl
@[simp] theorem State.setQif_poison (s : State) (i : Nat) (w : Word64) : (s.setQif i w).poison = s.poison := rfl
@[simp] theorem State.setQif_perfs (s : State) (i : Nat) (w : Word64) : (s.setQif i w).perfs = s.perfs := rfl
@[simp] theorem State.setQif_windows (s : State) (i : Nat) (w : Word64) : (s.setQif i w).windows = s.windows := rfl
@[simp] theorem State.setQif_free (s : State) (i : Nat) (w : Word64) : (s.setQif i w).free = s.free := rfl

/-! ## `setLaunch` -/

@[simp] theorem State.setLaunch_beat (s : State) (l : Launch) : (s.setLaunch l).beat = s.beat := rfl
@[simp] theorem State.setLaunch_core (s : State) (l : Launch) : (s.setLaunch l).core = s.core := rfl
@[simp] theorem State.setLaunch_others (s : State) (l : Launch) : (s.setLaunch l).others = s.others := rfl
@[simp] theorem State.setLaunch_turned (s : State) (l : Launch) : (s.setLaunch l).turned = s.turned := rfl
@[simp] theorem State.setLaunch_inputs (s : State) (l : Launch) : (s.setLaunch l).inputs = s.inputs := rfl
@[simp] theorem State.setLaunch_mem (s : State) (l : Launch) : (s.setLaunch l).mem = s.mem := rfl
@[simp] theorem State.setLaunch_banks (s : State) (l : Launch) : (s.setLaunch l).banks = s.banks := rfl
@[simp] theorem State.setLaunch_blocks (s : State) (l : Launch) : (s.setLaunch l).blocks = s.blocks := rfl
@[simp] theorem State.setLaunch_l2 (s : State) (l : Launch) : (s.setLaunch l).l2 = s.l2 := rfl
@[simp] theorem State.setLaunch_poison (s : State) (l : Launch) : (s.setLaunch l).poison = s.poison := rfl
@[simp] theorem State.setLaunch_perfs (s : State) (l : Launch) : (s.setLaunch l).perfs = s.perfs := rfl
@[simp] theorem State.setLaunch_windows (s : State) (l : Launch) : (s.setLaunch l).windows = s.windows := rfl
@[simp] theorem State.setLaunch_free (s : State) (l : Launch) : (s.setLaunch l).free = s.free := rfl

/-! ## `setRank` -/

@[simp] theorem State.setRank_beat (s : State) (r : Rank) : (s.setRank r).beat = s.beat := rfl
@[simp] theorem State.setRank_core (s : State) (r : Rank) : (s.setRank r).core = s.core := rfl
@[simp] theorem State.setRank_others (s : State) (r : Rank) : (s.setRank r).others = s.others := rfl
@[simp] theorem State.setRank_turned (s : State) (r : Rank) : (s.setRank r).turned = s.turned := rfl
@[simp] theorem State.setRank_inputs (s : State) (r : Rank) : (s.setRank r).inputs = s.inputs := rfl
@[simp] theorem State.setRank_mem (s : State) (r : Rank) : (s.setRank r).mem = s.mem := rfl
@[simp] theorem State.setRank_banks (s : State) (r : Rank) : (s.setRank r).banks = s.banks := rfl
@[simp] theorem State.setRank_blocks (s : State) (r : Rank) : (s.setRank r).blocks = s.blocks := rfl
@[simp] theorem State.setRank_l2 (s : State) (r : Rank) : (s.setRank r).l2 = s.l2 := rfl
@[simp] theorem State.setRank_poison (s : State) (r : Rank) : (s.setRank r).poison = s.poison := rfl
@[simp] theorem State.setRank_perfs (s : State) (r : Rank) : (s.setRank r).perfs = s.perfs := rfl
@[simp] theorem State.setRank_windows (s : State) (r : Rank) : (s.setRank r).windows = s.windows := rfl
@[simp] theorem State.setRank_free (s : State) (r : Rank) : (s.setRank r).free = s.free := rfl

/-! ## `setColl` -/

@[simp] theorem State.setColl_beat (s : State) (i : Nat) (k : Coll) : (s.setColl i k).beat = s.beat := rfl
@[simp] theorem State.setColl_core (s : State) (i : Nat) (k : Coll) : (s.setColl i k).core = s.core := rfl
@[simp] theorem State.setColl_others (s : State) (i : Nat) (k : Coll) : (s.setColl i k).others = s.others := rfl
@[simp] theorem State.setColl_turned (s : State) (i : Nat) (k : Coll) : (s.setColl i k).turned = s.turned := rfl
@[simp] theorem State.setColl_inputs (s : State) (i : Nat) (k : Coll) : (s.setColl i k).inputs = s.inputs := rfl
@[simp] theorem State.setColl_mem (s : State) (i : Nat) (k : Coll) : (s.setColl i k).mem = s.mem := rfl
@[simp] theorem State.setColl_banks (s : State) (i : Nat) (k : Coll) : (s.setColl i k).banks = s.banks := rfl
@[simp] theorem State.setColl_blocks (s : State) (i : Nat) (k : Coll) : (s.setColl i k).blocks = s.blocks := rfl
@[simp] theorem State.setColl_l2 (s : State) (i : Nat) (k : Coll) : (s.setColl i k).l2 = s.l2 := rfl
@[simp] theorem State.setColl_poison (s : State) (i : Nat) (k : Coll) : (s.setColl i k).poison = s.poison := rfl
@[simp] theorem State.setColl_perfs (s : State) (i : Nat) (k : Coll) : (s.setColl i k).perfs = s.perfs := rfl
@[simp] theorem State.setColl_windows (s : State) (i : Nat) (k : Coll) : (s.setColl i k).windows = s.windows := rfl
@[simp] theorem State.setColl_free (s : State) (i : Nat) (k : Coll) : (s.setColl i k).free = s.free := rfl

/-! ## `setJob` -/

@[simp] theorem State.setJob_beat (s : State) (j : Job) : (s.setJob j).beat = s.beat := rfl
@[simp] theorem State.setJob_core (s : State) (j : Job) : (s.setJob j).core = s.core := rfl
@[simp] theorem State.setJob_others (s : State) (j : Job) : (s.setJob j).others = s.others := rfl
@[simp] theorem State.setJob_turned (s : State) (j : Job) : (s.setJob j).turned = s.turned := rfl
@[simp] theorem State.setJob_inputs (s : State) (j : Job) : (s.setJob j).inputs = s.inputs := rfl
@[simp] theorem State.setJob_mem (s : State) (j : Job) : (s.setJob j).mem = s.mem := rfl
@[simp] theorem State.setJob_banks (s : State) (j : Job) : (s.setJob j).banks = s.banks := rfl
@[simp] theorem State.setJob_blocks (s : State) (j : Job) : (s.setJob j).blocks = s.blocks := rfl
@[simp] theorem State.setJob_l2 (s : State) (j : Job) : (s.setJob j).l2 = s.l2 := rfl
@[simp] theorem State.setJob_poison (s : State) (j : Job) : (s.setJob j).poison = s.poison := rfl
@[simp] theorem State.setJob_perfs (s : State) (j : Job) : (s.setJob j).perfs = s.perfs := rfl
@[simp] theorem State.setJob_windows (s : State) (j : Job) : (s.setJob j).windows = s.windows := rfl
@[simp] theorem State.setJob_free (s : State) (j : Job) : (s.setJob j).free = s.free := rfl

/-! ## `homeWrite` -/

@[simp] theorem State.homeWrite_beat (s : State) (a : Nat) (m v : Byte) : (s.homeWrite a m v).beat = s.beat := rfl
@[simp] theorem State.homeWrite_core (s : State) (a : Nat) (m v : Byte) : (s.homeWrite a m v).core = s.core := rfl
@[simp] theorem State.homeWrite_others (s : State) (a : Nat) (m v : Byte) : (s.homeWrite a m v).others = s.others := rfl
@[simp] theorem State.homeWrite_turned (s : State) (a : Nat) (m v : Byte) : (s.homeWrite a m v).turned = s.turned := rfl
@[simp] theorem State.homeWrite_inputs (s : State) (a : Nat) (m v : Byte) : (s.homeWrite a m v).inputs = s.inputs := rfl
@[simp] theorem State.homeWrite_banks (s : State) (a : Nat) (m v : Byte) : (s.homeWrite a m v).banks = s.banks := rfl
@[simp] theorem State.homeWrite_blocks (s : State) (a : Nat) (m v : Byte) : (s.homeWrite a m v).blocks = s.blocks := rfl
@[simp] theorem State.homeWrite_l2 (s : State) (a : Nat) (m v : Byte) : (s.homeWrite a m v).l2 = s.l2 := rfl
@[simp] theorem State.homeWrite_poison (s : State) (a : Nat) (m v : Byte) : (s.homeWrite a m v).poison = s.poison := rfl
@[simp] theorem State.homeWrite_perfs (s : State) (a : Nat) (m v : Byte) : (s.homeWrite a m v).perfs = s.perfs := rfl
@[simp] theorem State.homeWrite_windows (s : State) (a : Nat) (m v : Byte) : (s.homeWrite a m v).windows = s.windows := rfl
@[simp] theorem State.homeWrite_free (s : State) (a : Nat) (m v : Byte) : (s.homeWrite a m v).free = s.free := rfl

/-! ## What they write -/

@[simp] theorem State.mapCores_core (s : State) (f : Core → Core) : (s.mapCores f).core = f s.core := rfl
@[simp] theorem State.mapCores_others (s : State) (f : Core → Core) : (s.mapCores f).others = s.others.map f := rfl
@[simp] theorem State.emit_out (s : State) (m : OutMsg) : (s.emit m).pk.out = s.pk.out ++ [m] := rfl
@[simp] theorem State.emit_ranks (s : State) (m : OutMsg) : (s.emit m).pk.ranks = s.pk.ranks := rfl
@[simp] theorem State.emit_queues (s : State) (m : OutMsg) : (s.emit m).pk.queues = s.pk.queues := rfl
@[simp] theorem State.emit_launches (s : State) (m : OutMsg) : (s.emit m).pk.launches = s.pk.launches := rfl
@[simp] theorem State.setQueue_queues (s : State) (x : Queue) :
    (s.setQueue x).pk.queues = x :: s.pk.queues.filter (fun y => y.q != x.q) := rfl
@[simp] theorem State.setQueue_ranks (s : State) (x : Queue) : (s.setQueue x).pk.ranks = s.pk.ranks := rfl
@[simp] theorem State.setQueue_qifctl (s : State) (x : Queue) : (s.setQueue x).pk.qifctl = s.pk.qifctl := rfl
@[simp] theorem State.setPort_ports (s : State) (p : Port) : (s.setPort p).pk.ports = p :: s.pk.ports.filter (fun x => x.n != p.n) := rfl
@[simp] theorem State.setPort_ranks (s : State) (p : Port) : (s.setPort p).pk.ranks = s.pk.ranks := rfl
@[simp] theorem State.setPort_remotes (s : State) (p : Port) : (s.setPort p).pk.remotes = s.pk.remotes := rfl

/-- A core that a change leaves in its place is found there again. -/
theorem State.mapCores_allCores (s : State) (f : Core → Core) : (s.mapCores f).allCores = s.allCores.map f := rfl

/-- A filter that keeps what is sought does not change what is found. -/
theorem find?_filter_of {α : Type} {p q : α → Bool} (l : List α) (h : ∀ x, q x = true → p x = true) :
    (l.filter p).find? q = l.find? q := by
  induction l with
  | nil => rfl
  | cons x r ih =>
    by_cases hq : q x = true
    · rw [List.filter_cons_of_pos (h x hq), List.find?_cons_of_pos hq, List.find?_cons_of_pos hq]
    · rw [List.find?_cons_of_neg hq, ← ih]
      by_cases hp : p x = true
      · rw [List.filter_cons_of_pos hp, List.find?_cons_of_neg hq]
      · rw [List.filter_cons_of_neg hp]

/-- R238: the banks of a core that were set are read back; those of another core are as before. -/
theorem State.banksOf_setBanks (s : State) (b : Banks) (c k : Nat) :
    (s.setBanks b).banksOf c k = if b.clus = c ∧ b.core = k then b else s.banksOf c k := by
  unfold State.banksOf State.setBanks
  by_cases h : b.clus = c ∧ b.core = k
  · simp [h.1, h.2]
  · simp only [if_neg h, List.find?_cons]
    have hb : (b.clus == c && b.core == k) = false := by
      rw [Bool.and_eq_false_iff, beq_eq_false_iff_ne, beq_eq_false_iff_ne]
      by_cases h1 : b.clus = c
      · exact .inr (fun h2 => h ⟨h1, h2⟩)
      · exact .inl h1
    rw [hb]
    dsimp only
    rw [find?_filter_of]
    intro x hx
    simp only [Bool.and_eq_true, beq_iff_eq] at hx
    rw [Bool.not_eq_true', Bool.and_eq_false_iff, beq_eq_false_iff_ne, beq_eq_false_iff_ne]
    by_cases h2 : c = b.clus
    · exact .inr (fun h3 => h ⟨h2.symm, by rw [← h3, hx.2]⟩)
    · exact .inl (fun h3 => h2 (by rw [← hx.1, h3]))

/-! ## The trap that is found (R228) -/

@[simp] theorem Core.raise_a (c : Core) (k n p : Nat) (x : Word64) (t : Nat) : (c.raise k n p x t).a = c.a := by
  unfold Core.raise; split <;> rfl
@[simp] theorem Core.raise_flights (c : Core) (k n p : Nat) (x : Word64) (t : Nat) : (c.raise k n p x t).flights = c.flights := by
  unfold Core.raise; split <;> rfl
@[simp] theorem Core.raise_pc (c : Core) (k n p : Nat) (x : Word64) (t : Nat) : (c.raise k n p x t).pc = c.pc := by
  unfold Core.raise; split <;> rfl
@[simp] theorem Core.raise_sticky (c : Core) (k n p : Nat) (x : Word64) (t : Nat) : (c.raise k n p x t).sticky = c.sticky := by
  unfold Core.raise; split <;> rfl
theorem Core.raise_first (c : Core) (k n p : Nat) (x : Word64) (t : Nat) (h : c.trap = none) :
    (c.raise k n p x t).trap = some ⟨k, n, p, x, t, false⟩ := by
  unfold Core.raise; rw [h]
@[simp] theorem trapIssue_mem (s : State) (k : Nat) (x : Word64) : (trapIssue s k x).mem = s.mem := rfl
@[simp] theorem trapIssue_others (s : State) (k : Nat) (x : Word64) : (trapIssue s k x).others = s.others := rfl
@[simp] theorem trapIssue_l2 (s : State) (k : Nat) (x : Word64) : (trapIssue s k x).l2 = s.l2 := rfl
@[simp] theorem trapIssue_banks (s : State) (k : Nat) (x : Word64) : (trapIssue s k x).banks = s.banks := rfl
@[simp] theorem trapIssue_perfs (s : State) (k : Nat) (x : Word64) : (trapIssue s k x).perfs = s.perfs := rfl
@[simp] theorem trapIssue_beat (s : State) (k : Nat) (x : Word64) : (trapIssue s k x).beat = s.beat := rfl
@[simp] theorem trapIssue_pk (s : State) (k : Nat) (x : Word64) : (trapIssue s k x).pk = s.pk := rfl
@[simp] theorem trapIssue_a (s : State) (k : Nat) (x : Word64) : (trapIssue s k x).core.a = s.core.a := Core.raise_a ..

/-! ## Registers (R12) -/

/-- R12: a scalar register reads what was written; s0 reads zero. -/
theorem Arch.rs_ws (a : Arch) (n m : BitVec 6) (x : Word64) (tn : Taint) :
    (a.ws n x tn).rs m = if m = n ∧ n ≠ 0#6 then x else a.rs m := by
  unfold Arch.rs Arch.ws
  by_cases hn : n = 0#6
  · subst hn; simp
  · by_cases hm : m = n
    · subst hm; simp only [beq_iff_eq, hn, if_false, ne_eq, not_false_eq_true, and_self, if_true]; exact Vector.getElem_set_self ..
    · by_cases h0 : m = 0#6
      · subst h0; simp [hm]
      · have : m.toFin ≠ n.toFin := fun h => hm (BitVec.eq_of_toNat_eq (congrArg Fin.val h))
        have h2 : (n.toFin : Nat) ≠ m.toFin := fun h => this (Fin.ext h.symm)
        simp only [beq_iff_eq, hn, h0, hm, if_false, false_and]
        exact Vector.getElem_set_ne _ _ h2
/-- R12: a vector register reads what was written. -/
theorem Arch.rv_wv (a : Arch) (n m : BitVec 6) (x : Lanes) (tn : Taint) :
    (a.wv n x tn).rv m = if m = n then x else a.rv m := by
  unfold Arch.rv Arch.wv
  by_cases hm : m = n
  · subst hm; simp only [if_true]; exact Vector.getElem_set_self ..
  · have : m.toFin ≠ n.toFin := fun h => hm (BitVec.eq_of_toNat_eq (congrArg Fin.val h))
    have h2 : (n.toFin : Nat) ≠ m.toFin := fun h => this (Fin.ext h.symm)
    simp only [hm, if_false]
    exact Vector.getElem_set_ne _ _ h2
/-- R12: a predicate reads what was written; p0 reads all ones. -/
theorem Arch.rp_wp (a : Arch) (n m : BitVec 4) (x : Word32) :
    (a.wp n x).rp m = if m = n ∧ n ≠ 0#4 then x else a.rp m := by
  unfold Arch.rp Arch.wp
  by_cases hn : n = 0#4
  · subst hn; simp
  · by_cases hm : m = n
    · subst hm; simp only [beq_iff_eq, hn, if_false, ne_eq, not_false_eq_true, and_self, if_true]; exact Vector.getElem_set_self ..
    · by_cases h0 : m = 0#4
      · subst h0; simp [hm]
      · have : m.toFin ≠ n.toFin := fun h => hm (BitVec.eq_of_toNat_eq (congrArg Fin.val h))
        have h2 : (n.toFin : Nat) ≠ m.toFin := fun h => this (Fin.ext h.symm)
        simp only [beq_iff_eq, hn, h0, hm, if_false, false_and]
        exact Vector.getElem_set_ne _ _ h2

end Sys2Proof.Machine
end

