-- ==== Sys2Proof/Laws/Memory.lean ====
section
/-! SUPPORT. Memory: what a byte reads after a write (R6), and that every memory operation keeps the canonical form. -/
namespace Sys2Proof.Machine

/-- Addresses strictly rising, every one of them above `lo`. -/
def RisingAbove (lo : Nat) : List Host.Cell → Prop
  | [] => True
  | (a, _) :: r => lo ≤ a ∧ RisingAbove (a + 1) r

theorem RisingAbove.mono {lo lo' : Nat} (h : lo' ≤ lo) : ∀ {l : List Host.Cell}, RisingAbove lo l → RisingAbove lo' l
  | [], _ => trivial
  | (_, _) :: _, hl => ⟨Nat.le_trans h hl.1, hl.2⟩

theorem risingFrom_cons {a : Nat} {b : Byte} : ∀ {l : List Host.Cell}, risingFrom ((a, b) :: l) = true ↔ RisingAbove (a + 1) l ∧ risingFrom l = true
  | [] => by simp [risingFrom, RisingAbove]
  | (c, x) :: r => by
    have := risingFrom_cons (a := c) (b := x) (l := r)
    simp only [risingFrom, RisingAbove, Bool.and_eq_true, decide_eq_true_eq] at this ⊢
    rw [this]
    exact ⟨fun h => ⟨⟨h.1, h.2.1⟩, h.2⟩, fun h => ⟨h.1.1, h.2⟩⟩

theorem rising_iff : ∀ {l : List Host.Cell}, risingFrom l = true ↔ RisingAbove 0 l
  | [] => by simp [risingFrom, RisingAbove]
  | (a, b) :: r => by
    rw [risingFrom_cons, rising_iff (l := r)]
    exact ⟨fun h => ⟨Nat.zero_le _, h.1⟩, fun h => ⟨h.2, h.2.mono (Nat.zero_le _)⟩⟩

/-- No cell equals what its unlisted address reads as. -/
def Needed (indet : List Indet) (l : List Host.Cell) : Prop := ∀ x ∈ l, x.2 ≠ unlisted indet x.1

theorem Memory.wf_iff (m : Memory) : m.wf = true ↔ RisingAbove 0 m.cells ∧ Needed m.indet m.cells := by
  unfold Memory.wf Needed
  rw [Bool.and_eq_true, rising_iff, List.all_eq_true]
  simp only [bne_iff_ne]

/-! ## One cell -/

theorem putCell_rising (k : Nat) (v : Option Byte) : ∀ {lo : Nat} {l : List Host.Cell}, lo ≤ k → RisingAbove lo l → RisingAbove lo (putCell k v l)
  | _, [], h, _ => by cases v <;> simp [putCell, RisingAbove, h]
  | _, (a, b) :: r, h, hl => by
    unfold putCell
    split
    · rename_i hak
      exact ⟨hl.1, putCell_rising k v (by omega) hl.2⟩
    · split
      · rename_i hka
        rw [beq_iff_eq] at hka
        subst hka
        cases v with
        | none => exact hl.2.mono (by have := hl.1; omega)
        | some x => exact ⟨hl.1, hl.2⟩
      · rename_i hak hne
        rw [beq_iff_eq] at hne
        cases v with
        | none => exact hl
        | some x => exact ⟨h, by omega, hl.2⟩

theorem mem_putCell (k : Nat) (v : Option Byte) : ∀ {l : List Host.Cell} {x : Host.Cell}, x ∈ putCell k v l → x ∈ l ∨ ∃ b, v = some b ∧ x = (k, b)
  | [], x, h => by cases v <;> simp_all [putCell]
  | (a, b) :: r, x, h => by
    unfold putCell at h
    split at h
    · rcases List.mem_cons.mp h with h | h
      · exact .inl (List.mem_cons.mpr (.inl h))
      · exact (mem_putCell k v h).imp (List.mem_cons_of_mem _) id
    · split at h <;> cases v <;> simp_all <;> grind

theorem lookupCell_below {k : Nat} : ∀ {lo : Nat} {l : List Host.Cell}, k < lo → RisingAbove lo l → lookupCell k l = none
  | _, [], _, _ => rfl
  | lo, (a, b) :: r, h, hl => by
    have h1 : (a == k) = false := beq_eq_false_iff_ne.mpr (by have := hl.1; omega)
    have h2 : k < a := by have := hl.1; omega
    simp [lookupCell, h1, h2]

theorem lookupCell_putCell (k : Nat) (v : Option Byte) (j : Nat) : ∀ {lo : Nat} {l : List Host.Cell}, RisingAbove lo l →
    lookupCell j (putCell k v l) = if j = k then v else lookupCell j l
  | _, [], _ => by
    cases v with
    | none => simp [putCell, lookupCell]
    | some b =>
      by_cases h : j = k
      · simp [putCell, lookupCell, h]
      · simp [putCell, lookupCell, h, Ne.symm h]
  | lo, (a, b) :: r, hl => by
    unfold putCell
    split
    · rename_i hak
      simp only [lookupCell]
      by_cases hj : a = j
      · subst hj
        simp [show ¬a = k by omega]
      · rw [beq_eq_false_iff_ne.mpr hj]
        by_cases hja : j < a
        · simp [hja, show ¬j = k by omega]
        · simp [hja, lookupCell_putCell k v j hl.2]
    · split
      · rename_i _ hka
        rw [beq_iff_eq] at hka
        subst hka
        cases v with
        | none =>
          by_cases hj : j = a
          · subst hj; simp [lookupCell_below (Nat.lt_succ_self j) hl.2]
          · rw [if_neg hj]
            simp only [lookupCell, beq_eq_false_iff_ne.mpr (Ne.symm hj)]
            by_cases hja : j < a
            · simp [hja, lookupCell_below (Nat.lt_succ_of_lt hja) hl.2]
            · simp [hja]
        | some x =>
          by_cases hj : j = a
          · subst hj; simp [lookupCell]
          · simp [lookupCell, hj, Ne.symm hj]
      · rename_i hak hne
        rw [beq_iff_eq] at hne
        cases v with
        | none =>
          by_cases hj : j = k
          · subst hj
            simp [lookupCell, hne, show j < a by omega]
          · simp [hj]
        | some x =>
          by_cases hj : j = k
          · subst hj; simp [lookupCell]
          · rw [if_neg hj]
            rw [lookupCell, beq_eq_false_iff_ne.mpr (Ne.symm hj)]
            by_cases hjk : j < k
            · have h1 : (a == j) = false := beq_eq_false_iff_ne.mpr (by omega)
              simp [hjk, lookupCell, h1, show j < a by omega]
            · simp [hjk]

/-! ## Bytes -/

/-- R6: a byte reads what was last written to it; a write leaves every other byte alone. -/
theorem Memory.get_put (m : Memory) (k j : Nat) (v : Byte) (h : m.wf = true) : (m.put k v).get j = if j = k then v else m.get j := by
  have hr := ((Memory.wf_iff m).mp h).1
  unfold Memory.get Memory.put
  simp only [lookupCell_putCell k _ j hr]
  by_cases hj : j = k
  · subst hj
    simp only [if_true]
    by_cases hv : v = unlisted m.indet j
    · simp [← hv]
    · simp [hv]
  · simp [hj]

theorem Memory.get_put_self (m : Memory) (k : Nat) (v : Byte) (h : m.wf = true) : (m.put k v).get k = v := by
  rw [Memory.get_put m k k v h, if_pos rfl]
theorem Memory.get_put_ne (m : Memory) {k j : Nat} (v : Byte) (h : m.wf = true) (hj : j ≠ k) : (m.put k v).get j = m.get j := by
  rw [Memory.get_put m k j v h, if_neg hj]

/-- A write keeps the canonical form. -/
theorem Memory.put_wf (m : Memory) (k : Nat) (v : Byte) (h : m.wf = true) : (m.put k v).wf = true := by
  rw [Memory.wf_iff] at h ⊢
  refine ⟨putCell_rising k _ (Nat.zero_le _) h.1, ?_⟩
  intro x hx
  rcases mem_putCell k _ hx with hx | ⟨b, hb, rfl⟩
  · exact h.2 x hx
  · by_cases hv : v = unlisted m.indet k
    · simp [hv] at hb
    · simp [hv] at hb
      subst hb
      exact hv

/-! ## Ranges -/

theorem filter_rising (f : Host.Cell → Bool) : ∀ {lo : Nat} {l : List Host.Cell}, RisingAbove lo l → RisingAbove lo (l.filter f)
  | _, [], _ => trivial
  | _, (a, b) :: r, h => by
    rw [List.filter_cons]
    split
    · exact ⟨h.1, filter_rising f h.2⟩
    · exact (filter_rising f h.2).mono (by have := h.1; omega)

theorem unlisted_cons (i : Indet) (l : List Indet) (k : Nat) (h : ¬(i.base ≤ k ∧ k < i.base + i.len)) : unlisted (i :: l) k = unlisted l k := by
  unfold unlisted
  rw [List.find?_cons_of_neg (by simpa using h)]

theorem unlisted_append (ls l : List Indet) (k : Nat) (h : ∀ i ∈ ls, ¬(i.base ≤ k ∧ k < i.base + i.len)) : unlisted (ls ++ l) k = unlisted l k := by
  induction ls with
  | nil => rfl
  | cons i r ih =>
    rw [List.cons_append, unlisted_cons _ _ _ (h i (List.mem_cons_self ..)), ih (fun j hj => h j (List.mem_cons_of_mem _ hj))]

/-- R244: a range that becomes indeterminate keeps the canonical form. -/
theorem Memory.blur_wf (m : Memory) (b n s : Nat) (h : m.wf = true) : (m.blur b n s).wf = true := by
  rw [Memory.wf_iff] at h ⊢
  refine ⟨filter_rising _ h.1, ?_⟩
  intro x hx
  simp only [Memory.blur, List.mem_filter, Bool.not_eq_true', decide_eq_false_iff_not] at hx
  show x.2 ≠ unlisted (⟨b, n, s⟩ :: m.indet) x.1
  rw [unlisted_cons _ _ _ hx.2]
  exact h.2 x hx.1

/-- R244: bytes outside the range keep their values. -/
theorem lookupCell_filter (f : Host.Cell → Bool) (k : Nat) (hf : ∀ b, f (k, b) = true) : ∀ {lo : Nat} {l : List Host.Cell}, RisingAbove lo l →
    lookupCell k (l.filter f) = lookupCell k l
  | _, [], _ => rfl
  | _, (a, b) :: r, h => by
    rw [List.filter_cons]
    by_cases ha : a = k
    · subst ha
      simp [hf b, lookupCell]
    · by_cases hk : k < a
      · rw [lookupCell_below (lo := a) hk (show RisingAbove a ((a, b) :: r) from ⟨Nat.le_refl _, h.2⟩)]
        split
        · simp [lookupCell, ha, hk]
        · exact lookupCell_below (lo := a + 1) (by omega) (filter_rising f h.2)
      · split
        · simp only [lookupCell, beq_eq_false_iff_ne.mpr ha, hk, if_false, Bool.false_eq_true]
          exact lookupCell_filter f k hf h.2
        · simp only [lookupCell, beq_eq_false_iff_ne.mpr ha, hk, if_false, Bool.false_eq_true]
          exact lookupCell_filter f k hf h.2

theorem Memory.get_blur (m : Memory) (b n s k : Nat) (h : m.wf = true) (hk : ¬(b ≤ k ∧ k < b + n)) : (m.blur b n s).get k = m.get k := by
  have hr := ((Memory.wf_iff m).mp h).1
  unfold Memory.get Memory.blur
  simp only
  rw [lookupCell_filter _ k (fun x => by simp only [Bool.not_eq_true', decide_eq_false_iff_not]; exact hk) hr, unlisted_cons _ _ _ hk]

/-- What an address reads as with one more range in front. -/
theorem unlisted_cons_if (i : Indet) (l : List Indet) (k : Nat) :
    unlisted (i :: l) k = if i.base ≤ k ∧ k < i.base + i.len then Config.freeByte (i.seed + (k - i.base)) else unlisted l k := by
  unfold unlisted
  by_cases h : i.base ≤ k ∧ k < i.base + i.len
  · simp [h]
  · simp [h]

/-- A clipped range gives every byte of the part the free value that the whole range gave it. -/
theorem unlisted_clip (i : Indet) (lo hi : Nat) (l : List Indet) (k : Nat) :
    unlisted (i.clip lo hi ++ l) k =
      if lo ≤ k ∧ k < hi ∧ i.base ≤ k ∧ k < i.base + i.len then Config.freeByte (i.seed + (k - i.base)) else unlisted l k := by
  unfold Indet.clip
  simp only
  split
  · rw [List.singleton_append, unlisted_cons_if]
    by_cases h : lo ≤ k ∧ k < hi ∧ i.base ≤ k ∧ k < i.base + i.len
    · rw [if_pos (by simp only; omega), if_pos h]; congr 1; simp only; omega
    · rw [if_neg (by simp only; omega), if_neg h]
  · rw [List.nil_append, if_neg (by omega)]

theorem unlisted_wipe (m : Memory) (lo hi k : Nat) (hk : ¬(lo ≤ k ∧ k < hi)) : unlisted (m.wipe lo hi).indet k = unlisted m.indet k := by
  unfold Memory.wipe
  simp only
  induction m.indet with
  | nil => rfl
  | cons i l ih =>
    rw [List.flatMap_cons, List.append_assoc, unlisted_clip, unlisted_clip, unlisted_cons_if, ih]
    by_cases h : i.base ≤ k ∧ k < i.base + i.len
    · rw [if_pos h]
      by_cases h2 : k < lo
      · rw [if_pos (by omega)]
      · rw [if_neg (by omega), if_pos (by omega)]
    · rw [if_neg h, if_neg (by omega), if_neg (by omega)]

theorem Memory.wipe_wf (m : Memory) (lo hi : Nat) (h : m.wf = true) : (m.wipe lo hi).wf = true := by
  rw [Memory.wf_iff] at h ⊢
  refine ⟨filter_rising _ h.1, ?_⟩
  intro x hx
  have hx' : x ∈ m.cells ∧ ¬(lo ≤ x.1 ∧ x.1 < hi) := by
    simpa only [Memory.wipe, List.mem_filter, Bool.not_eq_true', decide_eq_false_iff_not] using hx
  rw [unlisted_wipe m lo hi x.1 hx'.2]
  exact h.2 x hx'.1

/-- A fold of writes keeps the canonical form. -/
theorem Memory.foldl_wf {α : Type} (f : Memory → α → Memory) (hf : ∀ m x, m.wf = true → (f m x).wf = true) :
    ∀ (l : List α) (m : Memory), m.wf = true → (l.foldl f m).wf = true
  | [], _, h => h
  | x :: r, m, h => Memory.foldl_wf f hf r (f m x) (hf m x h)

/-- R244, R293: the bytes of a saved footprint, put in a range, keep the canonical form. -/
theorem Memory.fill_wf (m : Memory) (lo span : Nat) (cells : List (Nat × Byte)) (indet : List Indet) (h : m.wf = true) :
    (m.fill lo span cells indet).wf = true := by
  unfold Memory.fill
  apply Memory.foldl_wf
  · intro m x hm
    split
    · exact Memory.put_wf m _ _ hm
    · exact hm
  · have hw := Memory.wipe_wf m lo (lo + span) h
    rw [Memory.wf_iff] at hw ⊢
    refine ⟨hw.1, ?_⟩
    intro x hx
    have hx' : x ∈ m.cells ∧ ¬(lo ≤ x.1 ∧ x.1 < lo + span) := by
      simpa only [Memory.wipe, List.mem_filter, Bool.not_eq_true', decide_eq_false_iff_not] using hx
    show x.2 ≠ unlisted (_ ++ (m.wipe lo (lo + span)).indet) x.1
    rw [unlisted_append]
    · exact hw.2 x hx
    · intro i hi
      simp only [List.mem_map, List.mem_flatMap] at hi
      obtain ⟨j, ⟨i, _, hj⟩, rfl⟩ := hi
      show ¬(lo + j.base ≤ x.1 ∧ x.1 < lo + j.base + j.len)
      have := hx'.2
      unfold Indet.clip at hj
      simp only at hj
      split at hj
      · rw [List.mem_singleton] at hj; subst hj; simp only; omega
      · cases hj

/-! ## The writes of the state -/

theorem State.Canonical.of_mem {s t : State} (h : s.Canonical) (hm : t.mem = s.mem) : t.Canonical := by
  unfold State.Canonical at *; rw [hm]; exact h

theorem State.homeWrite_canonical {s : State} (a : Nat) (m v : Byte) (h : s.Canonical) : (s.homeWrite a m v).Canonical :=
  Memory.put_wf _ _ _ h

/-- A fold of steps keeps the form of the memory when each of them does. -/
theorem State.foldl_canonical {α : Type} (f : State → α → State) (hf : ∀ s x, s.Canonical → (f s x).Canonical) :
    ∀ (l : List α) (s : State), s.Canonical → (l.foldl f s).Canonical
  | [], _, h => h
  | x :: r, s, h => State.foldl_canonical f hf r (f s x) (hf s x h)

theorem State.homeWrites_canonical {s : State} (ws : List ByteW) (h : s.Canonical) : (s.homeWrites ws).Canonical := by
  unfold State.homeWrites
  refine State.foldl_canonical _ ?_ (oneWrite ws) s h
  intro s w hs
  split
  · exact State.homeWrite_canonical _ _ _ hs
  · exact hs

theorem State.spadWrite_canonical {s : State} (ws : List ByteW) (h : s.Canonical) : (s.spadWrite ws).Canonical := by
  unfold State.Canonical State.spadWrite
  refine Memory.foldl_wf _ ?_ ws s.mem h
  intro m w hm
  split
  · exact Memory.put_wf _ _ _ hm
  · exact hm

theorem State.poisonPage_canonical {s : State} (a : Nat) (h : s.Canonical) : (s.poisonPage a).Canonical := by
  unfold State.poisonPage
  simp only
  split
  · exact h.of_mem rfl
  · exact h.of_mem rfl

theorem State.writeBack_canonical {s : State} (d n : Nat) (h : s.Canonical) : (s.writeBack d n).Canonical := by
  unfold State.writeBack
  split
  · exact h
  · rename_i x _
    refine State.Canonical.of_mem (s := _) ?_ (State.setSector_mem _ _)
    have hf : ((List.range 128).foldl (fun s i =>
        if x.dirty.getLsbD i then s.homeWrite (n * 128 + i) 0xFF#8 (x.byte i) else s) s).Canonical := by
      refine State.foldl_canonical _ ?_ _ s h
      intro s i hs
      split
      · exact State.homeWrite_canonical _ _ _ hs
      · exact hs
    split
    · exact State.poisonPage_canonical _ hf
    · exact hf

/-- The state after reset lists nothing. -/
theorem State.reset_canonical : State.reset.Canonical := rfl

end Sys2Proof.Machine
end

