-- ==== Sys2Proof/Laws/PerInstr.lean ====
section
/-! SUPPORT. One lemma per constructor of Instr: a well-formed template operation is what its opcode names, and it stands in a
position of the class that the opcode map gives it (R15, R44, R52). -/
namespace Sys2Proof.Laws.Coding

/-- What well-formedness says of an instruction's template. -/
def Statement (i : Instr) : Prop :=
  i.wf = true → ∀ opc o, i.tmpl = some (opc, o) →
    Instr.ofTmpl opc o = some i ∧ classOf o.slot = clsOf opc ∧ o.slot < 8

theorem of_wf (i : Instr) : Statement i := by
  intro h opc o ht
  unfold Instr.wf at h
  rw [ht] at h
  simp only [TOp.wf, Bool.and_eq_true, decide_eq_true_eq, beq_iff_eq] at h
  exact ⟨h.2, h.1.1.1.1.2, h.1.1.1.1.1⟩

theorem bundleIssue (w : Bundle) : Statement (.bundleIssue w) := of_wf _
theorem resultDelivery : Statement (.resultDelivery) := of_wf _
theorem storePerform : Statement (.storePerform) := of_wf _
theorem beatOverrun : Statement (.beatOverrun) := of_wf _
theorem add (o : TOp) : Statement (.add o) := of_wf _
theorem addDirectReg (d : BitVec 6) (a : BitVec 6) : Statement (.addDirectReg d a) := of_wf _
theorem addDirectImm (d : BitVec 6) (imm : BitVec 10) : Statement (.addDirectImm d imm) := of_wf _
theorem sub (o : TOp) : Statement (.sub o) := of_wf _
theorem subDirect (d : BitVec 6) (a : BitVec 6) : Statement (.subDirect d a) := of_wf _
theorem addsh (o : TOp) : Statement (.addsh o) := of_wf _
theorem mul (o : TOp) : Statement (.mul o) := of_wf _
theorem mulh (o : TOp) : Statement (.mulh o) := of_wf _
theorem div (o : TOp) : Statement (.div o) := of_wf _
theorem rem (o : TOp) : Statement (.rem o) := of_wf _
theorem abs (o : TOp) : Statement (.abs o) := of_wf _
theorem and (o : TOp) : Statement (.and o) := of_wf _
theorem andDirect (d : BitVec 6) (a : BitVec 6) : Statement (.andDirect d a) := of_wf _
theorem or (o : TOp) : Statement (.or o) := of_wf _
theorem orDirect (d : BitVec 6) (a : BitVec 6) : Statement (.orDirect d a) := of_wf _
theorem xor (o : TOp) : Statement (.xor o) := of_wf _
theorem xorDirect (d : BitVec 6) (a : BitVec 6) : Statement (.xorDirect d a) := of_wf _
theorem andn (o : TOp) : Statement (.andn o) := of_wf _
theorem shl (o : TOp) : Statement (.shl o) := of_wf _
theorem shlDirect (d : BitVec 6) (imm : BitVec 6) : Statement (.shlDirect d imm) := of_wf _
theorem shr (o : TOp) : Statement (.shr o) := of_wf _
theorem shrDirect (d : BitVec 6) (imm : BitVec 6) : Statement (.shrDirect d imm) := of_wf _
theorem sar (o : TOp) : Statement (.sar o) := of_wf _
theorem rol (o : TOp) : Statement (.rol o) := of_wf _
theorem min (o : TOp) : Statement (.min o) := of_wf _
theorem max (o : TOp) : Statement (.max o) := of_wf _
theorem minu (o : TOp) : Statement (.minu o) := of_wf _
theorem maxu (o : TOp) : Statement (.maxu o) := of_wf _
theorem cmp (o : TOp) : Statement (.cmp o) := of_wf _
theorem sel (o : TOp) : Statement (.sel o) := of_wf _
theorem mov (o : TOp) : Statement (.mov o) := of_wf _
theorem movDirectImm (d : BitVec 6) (imm : BitVec 10) : Statement (.movDirectImm d imm) := of_wf _
theorem movDirectLit (d : BitVec 6) (lit : BitVec 22) : Statement (.movDirectLit d lit) := of_wf _
theorem movhi (o : TOp) : Statement (.movhi o) := of_wf _
theorem movhiDirect (d : BitVec 6) (q : BitVec 2) (lit : BitVec 22) : Statement (.movhiDirect d q lit) := of_wf _
theorem clz (o : TOp) : Statement (.clz o) := of_wf _
theorem ctz (o : TOp) : Statement (.ctz o) := of_wf _
theorem popc (o : TOp) : Statement (.popc o) := of_wf _
theorem brev (o : TOp) : Statement (.brev o) := of_wf _
theorem bswap (o : TOp) : Statement (.bswap o) := of_wf _
theorem bext (o : TOp) : Statement (.bext o) := of_wf _
theorem bins (o : TOp) : Statement (.bins o) := of_wf _
theorem ext (o : TOp) : Statement (.ext o) := of_wf _
theorem fadd (o : TOp) : Statement (.fadd o) := of_wf _
theorem fsub (o : TOp) : Statement (.fsub o) := of_wf _
theorem fmul (o : TOp) : Statement (.fmul o) := of_wf _
theorem fma (o : TOp) : Statement (.fma o) := of_wf _
theorem fdiv (o : TOp) : Statement (.fdiv o) := of_wf _
theorem fsqrt (o : TOp) : Statement (.fsqrt o) := of_wf _
theorem fmin (o : TOp) : Statement (.fmin o) := of_wf _
theorem fmax (o : TOp) : Statement (.fmax o) := of_wf _
theorem fcmp (o : TOp) : Statement (.fcmp o) := of_wf _
theorem fclass (o : TOp) : Statement (.fclass o) := of_wf _
theorem fsgn (o : TOp) : Statement (.fsgn o) := of_wf _
theorem fcvt (o : TOp) : Statement (.fcvt o) := of_wf _
theorem fcvti (o : TOp) : Statement (.fcvti o) := of_wf _
theorem icvtf (o : TOp) : Statement (.icvtf o) := of_wf _
theorem vadd (o : TOp) : Statement (.vadd o) := of_wf _
theorem vsub (o : TOp) : Statement (.vsub o) := of_wf _
theorem vmul (o : TOp) : Statement (.vmul o) := of_wf _
theorem vfma (o : TOp) : Statement (.vfma o) := of_wf _
theorem vfms (o : TOp) : Statement (.vfms o) := of_wf _
theorem vmin (o : TOp) : Statement (.vmin o) := of_wf _
theorem vmax (o : TOp) : Statement (.vmax o) := of_wf _
theorem vabs (o : TOp) : Statement (.vabs o) := of_wf _
theorem vneg (o : TOp) : Statement (.vneg o) := of_wf _
theorem vand (o : TOp) : Statement (.vand o) := of_wf _
theorem vor (o : TOp) : Statement (.vor o) := of_wf _
theorem vxor (o : TOp) : Statement (.vxor o) := of_wf _
theorem vandn (o : TOp) : Statement (.vandn o) := of_wf _
theorem vnot (o : TOp) : Statement (.vnot o) := of_wf _
theorem vshl (o : TOp) : Statement (.vshl o) := of_wf _
theorem vshr (o : TOp) : Statement (.vshr o) := of_wf _
theorem vsar (o : TOp) : Statement (.vsar o) := of_wf _
theorem vrol (o : TOp) : Statement (.vrol o) := of_wf _
theorem vcmp (o : TOp) : Statement (.vcmp o) := of_wf _
theorem vsel (o : TOp) : Statement (.vsel o) := of_wf _
theorem vmov (o : TOp) : Statement (.vmov o) := of_wf _
theorem vbcast (o : TOp) : Statement (.vbcast o) := of_wf _
theorem vbcastLane (o : TOp) : Statement (.vbcastLane o) := of_wf _
theorem vbcastIota (o : TOp) : Statement (.vbcastIota o) := of_wf _
theorem vcvt (o : TOp) : Statement (.vcvt o) := of_wf _
theorem vmulh (o : TOp) : Statement (.vmulh o) := of_wf _
theorem vrcp (o : TOp) : Statement (.vrcp o) := of_wf _
theorem vrsqrt (o : TOp) : Statement (.vrsqrt o) := of_wf _
theorem vsqrt (o : TOp) : Statement (.vsqrt o) := of_wf _
theorem vexp2 (o : TOp) : Statement (.vexp2 o) := of_wf _
theorem vlog2 (o : TOp) : Statement (.vlog2 o) := of_wf _
theorem vtanh (o : TOp) : Statement (.vtanh o) := of_wf _
theorem vclz (o : TOp) : Statement (.vclz o) := of_wf _
theorem vpopc (o : TOp) : Statement (.vpopc o) := of_wf _
theorem vrsum (o : TOp) : Statement (.vrsum o) := of_wf _
theorem vrmax (o : TOp) : Statement (.vrmax o) := of_wf _
theorem vrmin (o : TOp) : Statement (.vrmin o) := of_wf _
theorem vscan (o : TOp) : Statement (.vscan o) := of_wf _
theorem vsort (o : TOp) : Statement (.vsort o) := of_wf _
theorem vperm (o : TOp) : Statement (.vperm o) := of_wf _
theorem vrot (o : TOp) : Statement (.vrot o) := of_wf _
theorem vextr (o : TOp) : Statement (.vextr o) := of_wf _
theorem vins (o : TOp) : Statement (.vins o) := of_wf _
theorem vrand (o : TOp) : Statement (.vrand o) := of_wf _
theorem ppack (o : TOp) : Statement (.ppack o) := of_wf _
theorem punpack (o : TOp) : Statement (.punpack o) := of_wf _
theorem plog (o : TOp) : Statement (.plog o) := of_wf _
theorem pcnt (o : TOp) : Statement (.pcnt o) := of_wf _
theorem pfirst (o : TOp) : Statement (.pfirst o) := of_wf _
theorem vsat (o : TOp) : Statement (.vsat o) := of_wf _
theorem vrnd (o : TOp) : Statement (.vrnd o) := of_wf _
theorem vscl (o : TOp) : Statement (.vscl o) := of_wf _
theorem mop (o : TOp) : Statement (.mop o) := of_wf _
theorem mops (o : TOp) : Statement (.mops o) := of_wf _
theorem mopc (o : TOp) : Statement (.mopc o) := of_wf _
theorem mopv (o : TOp) : Statement (.mopv o) := of_wf _
theorem mrank1 (o : TOp) : Statement (.mrank1 o) := of_wf _
theorem mzero (o : TOp) : Statement (.mzero o) := of_wf _
theorem mfill (o : TOp) : Statement (.mfill o) := of_wf _
theorem mstash (o : TOp) : Statement (.mstash o) := of_wf _
theorem mucfg (o : TOp) : Statement (.mucfg o) := of_wf _
theorem mscale (o : TOp) : Statement (.mscale o) := of_wf _
theorem ard (o : TOp) : Statement (.ard o) := of_wf _
theorem ardc (o : TOp) : Statement (.ardc o) := of_wf _
theorem aspill (o : TOp) : Statement (.aspill o) := of_wf _
theorem afill (o : TOp) : Statement (.afill o) := of_wf _
theorem asgd (o : TOp) : Statement (.asgd o) := of_wf _
theorem amom (o : TOp) : Statement (.amom o) := of_wf _
theorem aadam (o : TOp) : Statement (.aadam o) := of_wf _
theorem astat (o : TOp) : Statement (.astat o) := of_wf _
theorem cstart (o : TOp) : Statement (.cstart o) := of_wf _
theorem cstartIn (o : TOp) : Statement (.cstartIn o) := of_wf _
theorem cappend (o : TOp) : Statement (.cappend o) := of_wf _
theorem cstop (o : TOp) : Statement (.cstop o) := of_wf _
theorem cwm (o : TOp) : Statement (.cwm o) := of_wf _
theorem crange (o : TOp) : Statement (.crange o) := of_wf _
theorem ctag (o : TOp) : Statement (.ctag o) := of_wf _
theorem cpref (o : TOp) : Statement (.cpref o) := of_wf _
theorem cbank (o : TOp) : Statement (.cbank o) := of_wf _
theorem cqfmt (o : TOp) : Statement (.cqfmt o) := of_wf _
theorem cqfmtGet (o : TOp) : Statement (.cqfmtGet o) := of_wf _
theorem bufswap (o : TOp) : Statement (.bufswap o) := of_wf _
theorem evpop (o : TOp) : Statement (.evpop o) := of_wf _
theorem ld (o : TOp) : Statement (.ld o) := of_wf _
theorem ldDirect (d : BitVec 6) (a : BitVec 6) (imm : BitVec 4) : Statement (.ldDirect d a imm) := of_wf _
theorem st (o : TOp) : Statement (.st o) := of_wf _
theorem stDirect (d : BitVec 6) (a : BitVec 6) (imm : BitVec 4) : Statement (.stDirect d a imm) := of_wf _
theorem vld (o : TOp) : Statement (.vld o) := of_wf _
theorem vst (o : TOp) : Statement (.vst o) := of_wf _
theorem vgath (o : TOp) : Statement (.vgath o) := of_wf _
theorem vscat (o : TOp) : Statement (.vscat o) := of_wf _
theorem ldc (o : TOp) : Statement (.ldc o) := of_wf _
theorem vldc (o : TOp) : Statement (.vldc o) := of_wf _
theorem amadd (o : TOp) : Statement (.amadd o) := of_wf _
theorem amfadd (o : TOp) : Statement (.amfadd o) := of_wf _
theorem ammin (o : TOp) : Statement (.ammin o) := of_wf _
theorem ammax (o : TOp) : Statement (.ammax o) := of_wf _
theorem amand (o : TOp) : Statement (.amand o) := of_wf _
theorem amor (o : TOp) : Statement (.amor o) := of_wf _
theorem amxor (o : TOp) : Statement (.amxor o) := of_wf _
theorem amswap (o : TOp) : Statement (.amswap o) := of_wf _
theorem amcas (o : TOp) : Statement (.amcas o) := of_wf _
theorem amcasgt (o : TOp) : Statement (.amcasgt o) := of_wf _
theorem amcasv (o : TOp) : Statement (.amcasv o) := of_wf _
theorem amcasp (o : TOp) : Statement (.amcasp o) := of_wf _
theorem vamadd (o : TOp) : Statement (.vamadd o) := of_wf _
theorem fence (o : TOp) : Statement (.fence o) := of_wf _
theorem ldacq (o : TOp) : Statement (.ldacq o) := of_wf _
theorem strel (o : TOp) : Statement (.strel o) := of_wf _
theorem chk (o : TOp) : Statement (.chk o) := of_wf _
theorem stg (o : TOp) : Statement (.stg o) := of_wf _
theorem vstg (o : TOp) : Statement (.vstg o) := of_wf _
theorem jmp (o : TOp) : Statement (.jmp o) := of_wf _
theorem jmpDirect (disp : BitVec 16) : Statement (.jmpDirect disp) := of_wf _
theorem bcmp (o : TOp) : Statement (.bcmp o) := of_wf _
theorem beqz (o : TOp) : Statement (.beqz o) := of_wf _
theorem beqzDirect (a : BitVec 6) (disp : BitVec 10) : Statement (.beqzDirect a disp) := of_wf _
theorem bnez (o : TOp) : Statement (.bnez o) := of_wf _
theorem bnezDirect (a : BitVec 6) (disp : BitVec 10) : Statement (.bnezDirect a disp) := of_wf _
theorem bpred (o : TOp) : Statement (.bpred o) := of_wf _
theorem brg (o : TOp) : Statement (.brg o) := of_wf _
theorem call (o : TOp) : Statement (.call o) := of_wf _
theorem callDirect (disp : BitVec 16) : Statement (.callDirect disp) := of_wf _
theorem callr (o : TOp) : Statement (.callr o) := of_wf _
theorem ret (o : TOp) : Statement (.ret o) := of_wf _
theorem retDirect : Statement (.retDirect) := of_wf _
theorem jmpr (o : TOp) : Statement (.jmpr o) := of_wf _
theorem jmprDirect (a : BitVec 6) : Statement (.jmprDirect a) := of_wf _
theorem loop (o : TOp) : Statement (.loop o) := of_wf _
theorem loopx (o : TOp) : Statement (.loopx o) := of_wf _
theorem yield (o : TOp) : Statement (.yield o) := of_wf _
theorem yieldDirect (imm : BitVec 16) : Statement (.yieldDirect imm) := of_wf _
theorem contextSwitchOut : Statement (.contextSwitchOut) := of_wf _
theorem waitb (o : TOp) : Statement (.waitb o) := of_wf _
theorem waitbDirect (a : BitVec 6) : Statement (.waitbDirect a) := of_wf _
theorem waitEnd : Statement (.waitEnd) := of_wf _
theorem gets (o : TOp) : Statement (.gets o) := of_wf _
theorem getsDirect (d : BitVec 6) (idx : BitVec 6) : Statement (.getsDirect d idx) := of_wf _
theorem sets (o : TOp) : Statement (.sets o) := of_wf _
theorem setsDirect (a : BitVec 6) (idx : BitVec 6) : Statement (.setsDirect a idx) := of_wf _
theorem setsRngt (o : TOp) : Statement (.setsRngt o) := of_wf _
theorem setsCkpts (o : TOp) : Statement (.setsCkpts o) := of_wf _
theorem setsLc (o : TOp) : Statement (.setsLc o) := of_wf _
theorem setsTrappc (o : TOp) : Statement (.setsTrappc o) := of_wf _
theorem setsAdjoff (o : TOp) : Statement (.setsAdjoff o) := of_wf _
theorem setsTapeb (o : TOp) : Statement (.setsTapeb o) := of_wf _
theorem setsTapel (o : TOp) : Statement (.setsTapel o) := of_wf _
theorem trap (o : TOp) : Statement (.trap o) := of_wf _
theorem trapDirect (imm : BitVec 8) : Statement (.trapDirect imm) := of_wf _
theorem halt (o : TOp) : Statement (.halt o) := of_wf _
theorem haltDirect : Statement (.haltDirect) := of_wf _
theorem dld (o : TOp) : Statement (.dld o) := of_wf _
theorem dldDirect (a : BitVec 6) : Statement (.dldDirect a) := of_wf _
theorem dldCompletion : Statement .dldCompletion := of_wf _
theorem dset (o : TOp) : Statement (.dset o) := of_wf _
theorem dsetDirect (a : BitVec 6) (bank : BitVec 1) (n : BitVec 8) : Statement (.dsetDirect a bank n) := of_wf _
theorem dget (o : TOp) : Statement (.dget o) := of_wf _
theorem dgetDirect (d : BitVec 6) (bank : BitVec 1) (n : BitVec 8) : Statement (.dgetDirect d bank n) := of_wf _
theorem dsel (o : TOp) : Statement (.dsel o) := of_wf _
theorem dselDirect (bank : BitVec 1) : Statement (.dselDirect bank) := of_wf _
theorem ffence (o : TOp) : Statement (.ffence o) := of_wf _
theorem ffenceDirect : Statement (.ffenceDirect) := of_wf _
theorem adjm (o : TOp) : Statement (.adjm o) := of_wf _
theorem adjld (o : TOp) : Statement (.adjld o) := of_wf _
theorem adjclr (o : TOp) : Statement (.adjclr o) := of_wf _
theorem tapefl (o : TOp) : Statement (.tapefl o) := of_wf _
theorem tapeSpill : Statement (.tapeSpill) := of_wf _
theorem tapeRefill : Statement (.tapeRefill) := of_wf _
theorem ckpt (o : TOp) : Statement (.ckpt o) := of_wf _
theorem ckptDirect : Statement (.ckptDirect) := of_wf _
theorem rte (o : TOp) : Statement (.rte o) := of_wf _
theorem bkpt (o : TOp) : Statement (.bkpt o) := of_wf _
theorem trapEntry : Statement (.trapEntry) := of_wf _
theorem firmwareRoutedTrap : Statement (.firmwareRoutedTrap) := of_wf _
theorem urgentPreemption : Statement (.urgentPreemption) := of_wf _
theorem contextRestore : Statement (.contextRestore) := of_wf _
theorem tombolaReloadDone : Statement (.tombolaReloadDone) := of_wf _
theorem variableLoadReply (id : Nat) (uncorrectable : Bool) : Statement (.variableLoadReply id uncorrectable) := of_wf _
theorem loadTimeout (id : Nat) : Statement (.loadTimeout id) := of_wf _
theorem strelPerform : Statement (.strelPerform) := of_wf _
theorem fenceComplete : Statement (.fenceComplete) := of_wf _
theorem fenceTimeout : Statement (.fenceTimeout) := of_wf _
theorem storeFailureReport (id : Nat) (status : Nat) (port : Nat) : Statement (.storeFailureReport id status port) := of_wf _
theorem translationWalk (addr : Nat) : Statement (.translationWalk addr) := of_wf _
theorem l2Fill (die sector : Nat) (uncorrectable : Bool) : Statement (.l2Fill die sector uncorrectable) := of_wf _
theorem l2Writeback (die sector : Nat) (uncorrectable : Bool) : Statement (.l2Writeback die sector uncorrectable) := of_wf _
theorem turnstileFire (k : Nat) : Statement (.turnstileFire k) := of_wf _
theorem homeAtomic (id : Nat) (uncorrectable : Bool) : Statement (.homeAtomic id uncorrectable) := of_wf _
theorem flatAccessAtTarget (r : FlatReq) : Statement (.flatAccessAtTarget r) := of_wf _
theorem recordFetch (ch : Nat) (uncorrectable : Bool) : Statement (.recordFetch ch uncorrectable) := of_wf _
theorem chunkRead (ch : Nat) (uncorrectable : Bool) : Statement (.chunkRead ch uncorrectable) := of_wf _
theorem chunkWrite (ch : Nat) : Statement (.chunkWrite ch) := of_wf _
theorem recordComplete (ch : Nat) : Statement (.recordComplete ch) := of_wf _
theorem copyRecordTimeout (ch : Nat) : Statement (.copyRecordTimeout ch) := of_wf _
theorem cstopEffect (ch : Nat) : Statement (.cstopEffect ch) := of_wf _
theorem fifoChunkRelease (ch : Nat) : Statement (.fifoChunkRelease ch) := of_wf _
theorem bankModeSwitch : Statement (.bankModeSwitch) := of_wf _
theorem bufferPhaseCommit : Statement (.bufferPhaseCommit) := of_wf _
theorem phaseCancel : Statement (.phaseCancel) := of_wf _
theorem launch (p : Packet) : Statement (.launch p) := of_wf _
theorem coreEntry : Statement (.coreEntry) := of_wf _
theorem stepEnd (job rank : Nat) : Statement (.stepEnd job rank) := of_wf _
theorem idleActivePark (job rank : Nat) : Statement (.idleActivePark job rank) := of_wf _
theorem inval (p : Packet) : Statement (.inval p) := of_wf _
theorem invalComplete (k : Nat) : Statement (.invalComplete k) := of_wf _
theorem pad (p : Packet) : Statement (.pad p) := of_wf _
theorem kill (p : Packet) : Statement (.kill p) := of_wf _
theorem park (p : Packet) : Statement (.park p) := of_wf _
theorem resume (p : Packet) : Statement (.resume p) := of_wf _
theorem cold (p : Packet) : Statement (.cold p) := of_wf _
theorem recallRank (p : Packet) : Statement (.recallRank p) := of_wf _
theorem copyin (p : Packet) : Statement (.copyin p) := of_wf _
theorem copyout (p : Packet) : Statement (.copyout p) := of_wf _
theorem dbgread (p : Packet) : Statement (.dbgread p) := of_wf _
theorem attest (p : Packet) : Statement (.attest p) := of_wf _
theorem svc (p : Packet) : Statement (.svc p) := of_wf _
theorem join (p : Packet) : Statement (.join p) := of_wf _
theorem ranknew (p : Packet) : Statement (.ranknew p) := of_wf _
theorem leave (p : Packet) : Statement (.leave p) := of_wf _
theorem packetFetch (p : Packet) : Statement (.packetFetch p) := of_wf _
theorem notifyTail (q : Nat) (v : Word32) : Statement (.notifyTail q v) := of_wf _
theorem notifyCompletionHead (q : Nat) (v : Word32) : Statement (.notifyCompletionHead q v) := of_wf _
theorem qcfgEnable (q : Nat) (v : Word64) : Statement (.qcfgEnable q v) := of_wf _
theorem qcfgDisable (q : Nat) (v : Word64) : Statement (.qcfgDisable q v) := of_wf _
theorem qifctlEnable (i : Nat) (v : Word64) : Statement (.qifctlEnable i v) := of_wf _
theorem qifctlClose (i : Nat) (v : Word64) : Statement (.qifctlClose i v) := of_wf _
theorem qifctlRevoke (i : Nat) (v : Word64) : Statement (.qifctlRevoke i v) := of_wf _
theorem fsreqWrite (v : Word64) : Statement (.fsreqWrite v) := of_wf _
theorem bar0RegisterWrite (off : Nat) (v : Word64) : Statement (.bar0RegisterWrite off v) := of_wf _
theorem serviceRequest (f : Nat) (object detail : Word64) : Statement (.serviceRequest f object detail) := of_wf _
theorem poisonScrub (page : Nat) (scrub : Bool) : Statement (.poisonScrub page scrub) := of_wf _
theorem lockstepMismatch (security : Bool) : Statement (.lockstepMismatch security) := of_wf _
theorem boot (b : BootImage) : Statement (.boot b) := of_wf _
theorem glitchSensor : Statement (.glitchSensor) := of_wf _
theorem meshBreach : Statement (.meshBreach) := of_wf _
theorem throttleChange (level : Nat) : Statement (.throttleChange level) := of_wf _
theorem mctpRead : Statement (.mctpRead) := of_wf _
theorem writeRequestFlit (f : Flit) : Statement (.writeRequestFlit f) := of_wf _
theorem readRequestFlit (f : Flit) : Statement (.readRequestFlit f) := of_wf _
theorem atomicRequestFlit (f : Flit) : Statement (.atomicRequestFlit f) := of_wf _
theorem replyFlit (f : Flit) : Statement (.replyFlit f) := of_wf _
theorem collectiveDataFlit (f : Flit) : Statement (.collectiveDataFlit f) := of_wf _
theorem abortFlit (f : Flit) : Statement (.abortFlit f) := of_wf _
theorem shiftFlit (f : Flit) : Statement (.shiftFlit f) := of_wf _
theorem beatFlit (f : Flit) : Statement (.beatFlit f) := of_wf _
theorem migrationFlit (f : Flit) : Statement (.migrationFlit f) := of_wf _
theorem linkRetry (port : Nat) : Statement (.linkRetry port) := of_wf _
theorem linkSilenceTimeout (port : Nat) : Statement (.linkSilenceTimeout port) := of_wf _
theorem linkBringUp (port flight : Nat) : Statement (.linkBringUp port flight) := of_wf _
theorem collectiveSend (coll send : Nat) : Statement (.collectiveSend coll send) := of_wf _
theorem collectiveFold (coll chunk : Nat) : Statement (.collectiveFold coll chunk) := of_wf _
theorem collectiveComplete (coll : Nat) : Statement (.collectiveComplete coll) := of_wf _
theorem collectiveTimeout (coll : Nat) : Statement (.collectiveTimeout coll) := of_wf _
theorem mapAdopt (job rank : Nat) (entry : Half) : Statement (.mapAdopt job rank entry) := of_wf _
theorem migration (job rank target : Nat) : Statement (.migration job rank target) := of_wf _
theorem tombstoneForward (r : FlatReq) : Statement (.tombstoneForward r) := of_wf _
theorem hostDmaCompletion (p : Packet) (ok : Bool) : Statement (.hostDmaCompletion p ok) := of_wf _

end Sys2Proof.Laws.Coding
end

