-- ==== Sys2Proof/Laws/Step.lean ====
section
/-! SUPPORT. What a step and the issue of a bundle can do: one case lemma for each, which later proofs cite. -/
namespace Sys2Proof.Machine

/-! ## A step (R16, R22) -/

theorem step_input {s t : State} {i : Instr} (h : s.nextInput = some (some i, t)) : step s = exec i t := by
  unfold step; rw [h]

theorem step_event {s : State} {e : Event} (h : s.nextInput = none) (he : s.nextEvent = some e) : step s = e.run s := by
  unfold step; rw [h]; dsimp only; rw [he]

theorem step_turn {s : State} (h : s.nextInput = none) (he : s.nextEvent = none) (ht : s.hadTurn s.core = false) : step s = runTurn s := by
  unfold step; rw [h]; dsimp only; rw [he]
  unfold runBeat; rw [if_pos (by rw [ht]; rfl)]

/-- Every step is an input, an event, a turn, a change of the focus, a switch of a bank's mode, or the end of the beat. -/
theorem step_cases (s : State) :
    (∃ i t, s.nextInput = some (some i, t) ∧ step s = exec i t) ∨ (∃ t, s.nextInput = some (none, t) ∧ step s = .next t) ∨
    (∃ e, s.nextEvent = some e ∧ step s = e.run s) ∨ step s = runTurn s ∨ step s = .next s.rotate ∨
    step s = Event.bankModeSwitch.run s ∨ step s = .next s.tick := by
  unfold step
  rcases h : s.nextInput with _ | ⟨_ | i, t⟩
  · rcases he : s.nextEvent with _ | e
    · dsimp only
      unfold runBeat
      split
      · simp
      · split
        · simp
        · split
          · simp
          · split <;> simp
    · exact .inr (.inr (.inl ⟨e, rfl, rfl⟩))
  · exact .inr (.inl ⟨t, rfl, rfl⟩)
  · exact .inl ⟨i, t, rfl, rfl⟩

/-- A turn passes, asks for bytes of its bundle, records a trap, or runs an instruction; then the focus goes on (R16, R46, R95). -/
theorem runTurn_cases (s : State) :
    runTurn s = .next s.fresh.pass ∨
    (∃ ls, s.ready.turnOf = .ask ls ∧ runTurn s = .next (({ s.fresh with core := { s.fresh.core with fetchAsk := true } } : State).askBytes
      s.fresh.core sysId (s.fresh.core.codeBase + 24 * s.fresh.core.pc) none ls).pass) ∨
    (∃ k x, runTurn s = .next (trapIssue { s.fresh with core := { s.fresh.core with fetchBad := none } } k x).pass) ∨
    (∃ i, s.ready.turnOf = .run i ∧
      ∀ t, exec i s.ready = .next t →
        runTurn s = .next (({ t with core := s.fresh.core.issued t.core } : State).failShifts (s.ready.metShifts i)).pass) := by
  unfold runTurn
  dsimp only
  rcases h : s.ready.turnOf with _ | ls | ⟨k, x⟩ | i
  · exact .inl rfl
  · dsimp only
    split
    · exact .inl rfl
    · exact .inr (.inl ⟨ls, rfl, rfl⟩)
  · exact .inr (.inr (.inl ⟨k, x, rfl⟩))
  · exact .inr (.inr (.inr ⟨i, rfl, fun t ht => by dsimp only; rw [ht]⟩))

@[simp] theorem State.rotate_mem (s : State) : s.rotate.mem = s.mem := by unfold State.rotate; split <;> rfl
@[simp] theorem State.rotate_beat (s : State) : s.rotate.beat = s.beat := by unfold State.rotate; split <;> rfl
@[simp] theorem State.rotate_l2 (s : State) : s.rotate.l2 = s.l2 := by unfold State.rotate; split <;> rfl
@[simp] theorem State.rotate_pk (s : State) : s.rotate.pk = s.pk := by unfold State.rotate; split <;> rfl
/-- A turn without a shift to apply fails no collective (R352). -/
theorem State.metShifts_nil (s : State) (i : Instr) (h : ∀ k ∈ s.pk.colls, k.pshift = []) : s.metShifts i = [] := by
  unfold State.metShifts
  rw [if_pos]
  simp only [List.isEmpty_iff, List.filter_eq_nil_iff, List.mem_range]
  intro n hn
  rw [List.getElem?_eq_getElem hn]
  simp [h _ (List.getElem_mem hn)]
@[simp] theorem State.failShifts_nil (s : State) : s.failShifts [] = s := rfl
@[simp] theorem State.pass_mem (s : State) : s.pass.mem = s.mem := by unfold State.pass; simp
@[simp] theorem State.pass_beat (s : State) : s.pass.beat = s.beat := by unfold State.pass; simp
@[simp] theorem State.fresh_mem (s : State) : s.fresh.mem = s.mem := rfl
@[simp] theorem State.fresh_beat (s : State) : s.fresh.beat = s.beat := rfl
@[simp] theorem State.fresh_others (s : State) : s.fresh.others = s.others := rfl
@[simp] theorem State.fresh_pk (s : State) : s.fresh.pk = s.pk := rfl
@[simp] theorem State.ready_mem (s : State) : s.ready.mem = s.mem := by unfold State.ready; dsimp only; split <;> rfl
@[simp] theorem State.ready_beat (s : State) : s.ready.beat = s.beat := by unfold State.ready; dsimp only; split <;> rfl
@[simp] theorem State.ready_others (s : State) : s.ready.others = s.others := by unfold State.ready; dsimp only; split <;> rfl
@[simp] theorem State.ready_pk (s : State) : s.ready.pk = s.pk := by unfold State.ready; dsimp only; split <;> rfl

/-! ## The issue of a bundle (R16, R392) -/

/-- Effects that the operations of the bundle answer, each in the state of the issue beat. -/
def EffectsOf (ops : List SOp) (s : State) (effs : List Eff) : Prop :=
  ∀ e ∈ effs, ∃ x ∈ ops, ∃ (l : Lanes) (tp : Nat), x.run ⟨s, l, tp⟩ = .ok e

theorem gapFaults_ok {n : Nat} {e : Eff} : ∀ {m : Nat} {xs : List (Nat × Out)}, .ok e ∈ gapFaults n m xs → ∃ x ∈ xs, x.2 = .ok e
  | _, [], h => by simp [gapFaults] at h
  | m, x :: r, h => by
    unfold gapFaults at h
    rcases List.mem_cons.mp h with h | h
    · split at h
      · exact absurd h (by simp)
      · split at h
        · exact absurd h (by simp)
        · exact ⟨x, List.mem_cons_self .., h.symm⟩
    · obtain ⟨y, hy, he⟩ := gapFaults_ok h
      exact ⟨y, List.mem_cons_of_mem _ hy, he⟩

theorem gaps_mem {c : Core} {e : Eff} {xs : List (Nat × Out)} (h : .ok e ∈ c.gaps xs) : ∃ x ∈ xs, x.2 = .ok e := by
  unfold Core.gaps at h
  split at h
  · exact gapFaults_ok h
  · obtain ⟨x, hx, he⟩ := List.mem_map.mp h
    exact ⟨x, hx, he⟩

theorem withLate_ok {e : Eff} {xs : List Out} (h : .ok e ∈ withLate xs) : .ok e ∈ xs := by
  unfold withLate at h
  obtain ⟨x, hx, he⟩ := List.mem_map.mp h
  split at he
  · split at he
    · exact absurd he (by simp)
    · exact he ▸ hx
  · exact he ▸ hx

theorem withSwitches_ok {c : Core} {e : Eff} {xs : List (Nat × Out)} (h : .ok e ∈ withSwitches c xs) : ∃ x ∈ xs, x.2 = .ok e := by
  unfold withSwitches at h
  obtain ⟨x, hx, he⟩ := List.mem_map.mp h
  split at he
  · split at he
    · exact absurd he (by simp)
    · exact ⟨x, hx, by simp_all⟩
  · exact ⟨x, hx, he⟩

theorem withClashes_ok {s : State} {e : Eff} : ∀ {lower : List Eff} {xs : List (Nat × Out)}, .ok e ∈ withClashes s lower xs →
    ∃ x ∈ xs, x.2 = .ok e
  | _, [], h => by simp [withClashes] at h
  | lower, (k, o) :: r, h => by
    cases o
    case ok e' =>
      unfold withClashes at h
      rcases List.mem_cons.mp h with h | h
      · split at h
        · exact absurd h (by simp)
        · exact ⟨_, List.mem_cons_self .., h.symm⟩
      · obtain ⟨y, hy, he⟩ := withClashes_ok h
        exact ⟨y, List.mem_cons_of_mem _ hy, he⟩
    all_goals
      simp only [withClashes] at h
      rcases List.mem_cons.mp h with h | h
      · exact absurd h (by simp)
      · obtain ⟨y, hy, he⟩ := withClashes_ok h
        exact ⟨y, List.mem_cons_of_mem _ hy, he⟩

theorem runOps_mem {s : State} {f : Nat → SOp → Lanes} {o : Out} : ∀ {i tp : Nat} {ops : List SOp}, o ∈ runOps s f i tp ops →
    ∃ x ∈ ops, ∃ (l : Lanes) (tp : Nat), x.run ⟨s, l, tp⟩ = o
  | _, _, [], h => by simp [runOps] at h
  | i, tp, x :: r, h => by
    simp only [runOps] at h
    rcases List.mem_cons.mp h with h | h
    · exact ⟨x, List.mem_cons_self .., _, _, h.symm⟩
    · obtain ⟨y, hy, he⟩ := runOps_mem h
      exact ⟨y, List.mem_cons_of_mem _ hy, he⟩

theorem timed_ok {slot : Nat} {r : Option Nat} {o : Out} {e : Eff} (h : timed slot r o = .ok e) : o = .ok e := by
  unfold timed at h
  split at h
  · exact absurd h (by simp)
  · exact absurd h (by simp)
  · exact absurd h (by simp)
  · split at h
    · exact absurd h (by simp)
    · exact h

/-- What the issue of a bundle may come to. -/
def IssueResult (ops : List SOp) (s t : State) : Prop :=
  t = s ∨ (∃ k x, t = trapIssue s k x) ∨ (∃ effs nS nC, EffectsOf ops s effs ∧ t = commit s effs nS nC)

theorem IssueResult.ite {ops : List SOp} {s a b : State} {c : Prop} [Decidable c] (h1 : IssueResult ops s a) (h2 : IssueResult ops s b) :
    IssueResult ops s (if c then a else b) := by
  by_cases h : c
  · rw [if_pos h]; exact h1
  · rw [if_neg h]; exact h2
theorem IssueResult.trap {ops : List SOp} {s : State} {k : Nat} {x : Word64} : IssueResult ops s (trapIssue s k x) := .inr (.inl ⟨k, x, rfl⟩)

/-- The issue of a bundle waits, traps, or commits effects of its operations; nothing else. -/
theorem issueOps_cases (ops : List SOp) (d : Bool) (s : State) : IssueResult ops s (issueOps ops d s) := by
  unfold issueOps
  dsimp only
  refine .ite (.inl rfl) ?_
  generalize budgetFault s.core ops = z1
  cases z1
  case some => exact .trap
  dsimp only
  generalize (stageCollision s).or _ = z2
  cases z2
  case some => exact .trap
  dsimp only
  refine .ite .trap ?_
  generalize firstMismatch _ = z3
  cases z3
  case some => exact .trap
  dsimp only
  generalize firstFault _ = z4
  cases z4
  case some => exact .trap
  refine .inr (.inr ⟨_, _, _, ?_, rfl⟩)
  intro e he
  obtain ⟨o, ho, hoe⟩ := List.mem_filterMap.mp he
  have ho' : o = .ok e := by
    cases o <;> simp_all [Out.eff]
  subst ho'
  obtain ⟨w, hw, hwe⟩ := withClashes_ok ho
  have hw2 := (List.of_mem_zip (a := w.1) (b := w.2) hw).2
  rw [hwe] at hw2
  obtain ⟨v, hv, hve⟩ := withSwitches_ok hw2
  have hv2 := (List.of_mem_zip (a := v.1) (b := v.2) hv).2
  rw [hve] at hv2
  obtain ⟨x, hx, hxe⟩ := gaps_mem (withLate_ok hv2)
  have hz := (List.of_mem_zip (a := x.1) (b := x.2) hx).2
  rw [hxe] at hz
  split at hz
  · obtain ⟨y, hy, hye⟩ := List.mem_map.mp hz
    have h1 := timed_ok hye
    have h2 := (List.of_mem_zip (a := y.1) (b := y.2) hy).1
    rw [h1] at h2
    exact runOps_mem h2
  · exact runOps_mem hz

/-- The same for one operation. -/
theorem issueOne_cases (opc : Nat) (o : TOp) (run : TOp → Env → Out) (d : Bool) (s : State) :
    issueOne opc o run d s = s ∨ (∃ k x, issueOne opc o run d s = trapIssue s k x) ∨
    (∃ effs nS nC, (∀ e ∈ effs, ∃ l tp, run o ⟨s, l, tp⟩ = .ok e) ∧ issueOne opc o run d s = commit s effs nS nC) := by
  rcases issueOps_cases [⟨opc, o, run o⟩] d s with h | h | ⟨effs, nS, nC, he, h⟩
  · exact .inl h
  · exact .inr (.inl h)
  · refine .inr (.inr ⟨effs, nS, nC, fun e hm => ?_, h⟩)
    obtain ⟨x, hx, l, tp, hr⟩ := he e hm
    rw [List.mem_singleton] at hx
    subst hx
    exact ⟨l, tp, hr⟩

/-- A fold over the effects' changes of the state keeps what each of them keeps. -/
theorem foldl_spost {α : Type} (f : State → α) : ∀ (effs : List Eff) (s : State), (∀ e ∈ effs, ∀ s, f (e.spost s) = f s) →
    f (effs.foldl (fun s e => e.spost s) s) = f s
  | [], _, _ => rfl
  | e :: r, s, h => by
    rw [List.foldl_cons, foldl_spost f r _ (fun x hx => h x (List.mem_cons_of_mem _ hx)), h e (List.mem_cons_self ..)]

/-- R16, R193: a commit writes no byte, when no effect of it does. -/
theorem commit_mem (s : State) (effs : List Eff) (nS nC : Nat) (h : ∀ e ∈ effs, ∀ s : State, (e.spost s).mem = s.mem) :
    (commit s effs nS nC).mem = s.mem := by
  unfold commit
  dsimp only
  rw [foldl_spost (fun s => s.mem) effs _ h]
  split <;> rfl

end Sys2Proof.Machine
end

