-- ==== Sys2Proof/Tests/Slice0.lean ====
section
/-! SUPPORT. Tests: ill-formed terms that the checks refuse; words that decode; for each statement with hypotheses a state and
operands that meet them, clause by clause, at the ends of their ranges; one step on small states with results of the manual. -/
namespace Sys2Proof.Tests
open Sys2Proof Sys2Proof.Machine
set_option Elab.async false

/-! ## Small states and operands -/

/-- A core that runs. -/
def c0 : Core := { core0 0 0 with run := .running, yleft := 100, yrun := 100, pc := 5, ncode := 100 }
def s0 : State := { State.reset with beat := 100, core := c0 }
/-- The state with another core in the focus, with other architectural state, with other package state. -/
def withC (f : Core → Core) : State := { s0 with core := f c0 }
def withA (f : Arch → Arch) : State := withC (fun c => { c with a := f c.a })
def withP (f : Pack → Pack) : State := { s0 with pk := f s0.pk }
def setS (n : BitVec 6) (x : Word64) : State := withA (fun a => a.ws n x 0)

/-- An operation on s5, s1 and s2, of type `ty`, in position `slot`. -/
def tS (ty : BitVec 6) : TOp := ⟨0, 0#5, ty, 5#8, 1#8, 2#8, 0#6, 0#8, 0#4, 0#22⟩
/-- The same on v5, v1 and v2. -/
def tV (ty : BitVec 6) : TOp := ⟨1, 0#5, ty, 0x45#8, 0x41#8, 0x42#8, 0#6, 0#8, 0#4, 0#22⟩
/-- An X operation with a displacement. -/
def tX (disp : BitVec 22) : TOp := ⟨6, 0#5, 0#6, 0#8, 1#8, 2#8, 0#6, 0#8, 3#4, disp⟩

/-- A computation that succeeds, with a value of which `p` holds. -/
def okAnd {α ε : Type} (x : Except ε α) (p : α → Bool) : Bool := match x with | .ok a => p a | .error _ => false
def failsWith {α ε : Type} (x : Except ε α) (p : ε → Bool) : Bool := match x with | .ok _ => false | .error e => p e
/-- The next state, and what holds of it. -/
def nextAnd (r : Result) (p : State → Bool) : Bool := match r with | .next t => p t | _ => false

/-! ## Ill-formed terms (each check of WellFormed refuses one) -/

def good : TOp := ⟨0, 0#5, 4#6, 5#8, 1#8, 2#8, 0#6, 0#8, 0#4, 0#22⟩
theorem test_wf_add : (Instr.add good).wf = true := by decide
theorem test_wf_slot : (Instr.add { good with slot := 8 }).wf = false := by decide
theorem test_wf_class : (Instr.add { good with slot := 3 }).wf = false := by decide
theorem test_wf_md : (Instr.add { good with md := 2#5 }).wf = false := by decide
theorem test_wf_type : (Instr.add { good with ty := 9#6 }).wf = false := by decide
theorem test_wf_register : (Instr.add { good with dst := 0x41#8 }).wf = false := by decide
theorem test_wf_predicate : (Instr.vsel { tV 0#6 with pr := 2#6 }).wf = true ∧ (Instr.vsel { tV 0#6 with pr := 3#6 }).wf = false := by decide
theorem test_wf_holes : (Instr.add { good with hd := 0xE0#8 }).wf = false := by decide
theorem test_wf_literal_kind : (Instr.add { good with lk := 9#4 }).wf = false := by decide
theorem test_wf_literal_unasked : (Instr.add { good with lit := 1#22 }).wf = false := by decide
theorem test_wf_steps :
    (Instr.movhiDirect 1#6 3#2 0#22).wf = false ∧ (Instr.movhiDirect 1#6 2#2 0x100000#22).wf = false ∧
    (Instr.l2Fill 4 0 false).wf = false ∧ (Instr.l2Writeback 0 0x18000000 false).wf = false ∧
    (Instr.recordFetch 8192 false).wf = false ∧ (Instr.chunkRead 8192 false).wf = false ∧ (Instr.chunkWrite 8192).wf = false ∧
    (Instr.recordComplete 8192).wf = false ∧ (Instr.copyRecordTimeout 8192).wf = false ∧ (Instr.cstopEffect 8192).wf = false ∧
    (Instr.fifoChunkRelease 8192).wf = false := by decide
theorem test_wf_host :
    (∀ mk ∈ [Instr.launch, Instr.inval, Instr.pad, Instr.kill, Instr.park, Instr.resume, Instr.cold, Instr.recallRank, Instr.copyin,
      Instr.copyout, Instr.dbgread, Instr.attest, Instr.svc, Instr.join, Instr.ranknew, Instr.leave, Instr.packetFetch],
      (mk ⟨4096, List.replicate 8 0#64, none⟩).wf = false) ∧
    (Instr.packetFetch ⟨0, [], none⟩).wf = false ∧ (Instr.hostDmaCompletion ⟨4096, [], none⟩ true).wf = false ∧
    (Instr.bar0RegisterWrite 4 0#64).wf = false ∧ (Instr.serviceRequest 6 0#64 0#64).wf = false ∧ (Instr.poisonScrub (2 ^ 30) true).wf = false ∧
    (Instr.throttleChange 4).wf = false ∧ (Instr.migration 0 0 4096).wf = false ∧ (Instr.notifyTail 4096 0#32).wf = false ∧
    (Instr.notifyCompletionHead 4096 0#32).wf = false ∧ (Instr.qcfgEnable 0 0#64).wf = false ∧
    (Instr.qcfgDisable 0 0x8000000000000000#64).wf = false ∧ (Instr.qifctlEnable 64 1#64).wf = false ∧
    (Instr.qifctlClose 0 1#64).wf = false ∧ (Instr.qifctlRevoke 0 1#64).wf = false := by decide
def flit0 : Flit := ⟨0, 0#64, List.replicate 56 0#8, 0, 0, 0, none, 0⟩
theorem test_wf_fabric :
    (∀ mk ∈ [Instr.writeRequestFlit, Instr.readRequestFlit, Instr.atomicRequestFlit, Instr.replyFlit, Instr.collectiveDataFlit,
      Instr.abortFlit, Instr.shiftFlit, Instr.beatFlit, Instr.migrationFlit],
      (mk flit0).wf = true ∧ (mk { flit0 with port := 144 }).wf = false ∧ (mk { flit0 with payload := [] }).wf = false) ∧
    (Instr.writeRequestFlit { flit0 with count := 49 }).wf = false ∧ (Instr.linkRetry 144).wf = false ∧
    (Instr.linkSilenceTimeout 144).wf = false ∧ (Instr.linkBringUp 144 0).wf = false := by decide

/-! ## Decoding: words of the manual's examples and tables -/

def entry (n : Nat) (t : Template) (k : Nat) : Option Template := if k == n then some t else none
def oneSlot (r : Except XFault Piece) : Option Instr := match r with | .ok (.op i _) => some i | _ => none

/-- The example of file 02: ADD with a literal, VADD.f32, JMP loop. -/
theorem test_decode_bundle :
    okAnd (expandBundle (fun k => if k == 1 then some 0x0000100000000281#64 else if k == 2 then some 0x40204101010C0290#64 else none)
      0xC0000020FFF0C00000C00000C000008003E840810B404518#192) (fun is => is ==
    [.add ⟨0, 0#5, 4#6, 5#8, 6#8, 0#8, 0#6, 0x28#8, 1#4, 1000#22⟩, .vadd ⟨1, 0#5, 0x10#6, 0x41#8, 0x42#8, 0x43#8, 0#6, 0x29#8, 0#4, 0#22⟩,
      .jmpDirect 0xFFF0#16]) = true := by decide +kernel
/-- The same bundle when entry 2 is invalid: a dictionary miss at position 1 (R47, R48). -/
theorem test_decode_miss :
    failsWith (expandBundle (entry 1 0x0000100000000281#64) 0xC0000020FFF0C00000C00000C000008003E840810B404518#192)
      (fun f => f == ⟨0x01, 1, 0, 0⟩) = true := by decide +kernel

/-- Direct forms, bit by bit from R37: MOV s2, 9; SHL s3, 4; LD s4, [s5 + 8]; ST; BEQZ s6; CALL; GETS s12, RNGC; SETS; TRAP 7; HALT. -/
theorem test_decode_direct :
    decodeTableWord 24 0b00_000001_000010_0000001001 = some (.movDirectImm 2#6 9#10) ∧
    decodeTableWord 24 0b00_001010_000011_000100_0000 = some (.shlDirect 3#6 4#6) ∧
    decodeTableWord 24 0b00_001100_000100_000101_0001 = some (.ldDirect 4#6 5#6 1#4) ∧
    decodeTableWord 24 0x0D3051 = some (.stDirect 12#6 5#6 1#4) ∧
    decodeTableWord 24 0b00_100001_000110_1111111110 = some (.beqzDirect 6#6 0x3FE#10) ∧
    decodeTableWord 24 0b00_100011_0000000000010000 = some (.callDirect 16#16) ∧
    decodeTableWord 24 0x26300D = some (.getsDirect 12#6 13#6) ∧ decodeTableWord 24 0x27100B = some (.setsDirect 4#6 0x0B#6) ∧
    decodeTableWord 24 0b00_101111_00000000_00000111 = some (.trapDirect 7#8) ∧ decodeTableWord 24 0x300000 = some .haltDirect := by decide
/-- R38: a must-be-zero bit, a reserved opcode, a form of the other position. -/
theorem test_decode_direct_refused :
    decodeTableWord 24 0x300001 = none ∧ decodeTableWord 24 0x0E0000 = none ∧
    failsWith (expandSlot (fun _ => none) 0 0x300000#24) (fun f => f == ⟨0x03, 0, 2, 0⟩) = true ∧ failsWith (expandSlot (fun _ => none) 3 0x010000#24) (fun f => f == ⟨0x03, 3, 1, 0⟩) = true ∧
    failsWith (expandSlot (fun _ => none) 0 0x300001#24) (fun f => f == ⟨0x03, 0, 2, 0⟩) = true ∧ failsWith (expandSlot (fun _ => none) 6 0x300001#24) (fun f => f == ⟨0x03, 6, 3, 0⟩) = true := by
  decide

/-- Families: the templates and slots of the manual's examples. -/
theorem test_decode_branch :
    oneSlot (expandSlot (entry 3 0xD1821000000004C3#64) 6 0x40C414#24) = some (.bcmp ⟨6, 2#5, 4#6, 0#8, 4#8, 5#8, 0#6, 0x4C#8, 3#4, 0#22⟩) := by
  decide +kernel
theorem test_decode_vector :
    oneSlot (expandSlot (entry 5 0x5222420100000284#64) 1 0x414314#24) =
      some (.vcmp ⟨1, 2#5, 0x10#6, 0x83#8, 0x45#8, 0#8, 0#6, 0x28#8, 4#4, 0#22⟩) ∧
    oneSlot (expandSlot (entry 9 0x64214101010C0280#64) 1 0x424308#24) = none ∧
    oneSlot (expandSlot (entry 12 0x6D20000200000280#64) 1 0x430608#24) =
      some (.pcnt ⟨1, 0#5, 0#6, 6#8, 0x82#8, 0#8, 0#6, 0x28#8, 0#4, 0#22⟩) := by decide +kernel
theorem test_decode_engine :
    oneSlot (expandSlot (entry 1 0x8040470101140280#64) 3 0x404210#24) =
      some (.mop ⟨3, 0#5, 0x11#6, 0xC2#8, 0x44#8, 0x45#8, 0#6, 0x28#8, 0#4, 0#22⟩) := by decide +kernel
/-- An A operation by R39 and the table of R153: ARD.f32 with H1 to DST and H2 to SA, its row an immediate. -/
theorem test_decode_accumulator :
    oneSlot (expandSlot (entry 1 0x90A0410300000280#64) 7 (1#2 ++ 1#8 ++ 7#6 ++ 2#6 ++ 0#2)) =
      some (.ard ⟨7, 0#5, 0x10#6, 0x47#8, 0xC2#8, 0#8, 0#6, 0x28#8, 0#4, 0#22⟩) := by decide +kernel
theorem test_decode_load :
    oneSlot (expandSlot (entry 1 0xB000400000000291#64) 0 0x404417#24) =
      some (.ld ⟨0, 0#5, 0x10#6, 4#8, 5#8, 0#8, 0#6, 0x29#8, 1#4, 0#22⟩) := by decide +kernel
theorem test_decode_copy :
    oneSlot (expandSlot (entry 4 0xA061000000000400#64) 4 0x410700#24) =
      some (.cstartIn ⟨4, 1#5, 0#6, 0#8, 7#8, 0#8, 0#6, 0x40#8, 0#4, 0#22⟩) := by decide +kernel
theorem test_decode_system :
    oneSlot (expandSlot (entry 12 0xE582000000000000#64) 6 0x430000#24) = some (.adjm ⟨6, 2#5, 0#6, 0#8, 0#8, 0#8, 0#6, 0#8, 0#4, 0#22⟩) ∧
    oneSlot (expandSlot (entry 1 0xE980000000000000#64) 6 0x404000#24) = some (.ckpt ⟨6, 0#5, 0#6, 0#8, 0#8, 0#8, 0#6, 0#8, 0#4, 0#22⟩) ∧
    oneSlot (expandSlot (entry 1 0xEC80000000000000#64) 6 0x404000#24) = some (.bkpt ⟨6, 0#5, 0#6, 0#8, 0#8, 0#8, 0#6, 0#8, 0#4, 0#22⟩) ∧
    oneSlot (expandSlot (entry 1 0xEA80000000000000#64) 6 0x404000#24) = some (.rte ⟨6, 0#5, 0#6, 0#8, 0#8, 0#8, 0#6, 0#8, 0#4, 0#22⟩) := by
  decide +kernel
/-- R44: codes of templates that DSET refuses: an unknown opcode, another class, a scalar SB of a MOP. -/
theorem test_template_codes :
    checkTemplate 0xFF00000000000000#64 = 1 ∧ checkTemplate 0x0020100000000281#64 = 2 ∧ checkTemplate 0x8040470100140280#64 = 5 ∧
    checkTemplate 0x0000100000000281#64 = 0 := by decide +kernel

/-- R39, R49: the encoder gives the words of the manual's examples. -/
theorem test_encode :
    encode (.add ⟨0, 0#5, 4#6, 5#8, 6#8, 0#8, 0#6, 0x28#8, 1#4, 1000#22⟩) = some ⟨0, 0x404518#24, some 1000#22, some 0x0000100000000281#64⟩ ∧
    encode (.jmpDirect 0xFFF0#16) = some ⟨6, 0x20FFF0#24, none, none⟩ := by decide +kernel

/-! ## Witnesses: states and operands that meet the hypotheses of the statements -/

/-- Every statement whose one hypothesis is that the operation may issue (results of scalar and vector operations, engine and accumulator
operations, copy instructions, X operations), in template form and, with `false`, in direct form. -/
theorem witness_issues : (List.range 256).all (fun opc => issues opc (tS 4#6) true s0 && issues opc (tS 4#6) false s0) = true := by decide +kernel
theorem witness_issues_direct :
    issues 0x00 (dirS 63#6 0#6 1#6 0#4 0#22 0#5 4#6) false s0 = true ∧ issues 0xDD (dirX (sreg 5#6) (sreg 0x1F#6) 0#8 0#4 0#22 0#5) false s0 = true ∧
    issues 0xD7 (dirX 0#8 0#8 0#8 0#4 0#22 0#5) false s0 = true ∧ issues 0xE3 (dirX 0#8 0#8 0#8 0#4 0#22 (bankMd 1#1)) false s0 = true := by
  decide +kernel

/-- ScalarFloats: FSGN, FCVTI to an integer, ICVTF from one. -/
theorem witness_scalar_float :
    0 < (tS 0x11#6).t.width ∧ (tS 1#6).t.isInt = true ∧ (tS 8#6).t.isInt = true ∧
    (tS 0x10#6).t.isFloat = true ∧ (srcTy { tS 0x10#6 with sb := 1#8 }).isInt = true := by decide +kernel
/-- VectorFunctionsAndReductions, on extremes: integers; floats with no active lane, with NaNs only, with a number. -/
def nanV : State := withA (fun a => { a with v := a.v.set 1 (Vector.replicate 32 0x7FC00000#32) })
theorem witness_extremes :
    (tV 3#6).t.isInt = true ∧ (tV 0x10#6).t.isInt = false ∧
    (∀ k < 32, takes { tV 0x10#6 with pr := 2#6 } s0 k = false) ∧
    (∀ k < 32, takes (tV 0x10#6) nanV k = true ∧ (flA false (tV 0x10#6) nanV k).v.isNan = true) ∧
    (takes (tV 0x10#6) s0 31 = true ∧ (flA false (tV 0x10#6) s0 31).v.isNan = false) := by decide +kernel

/-! ### Control -/

/-- BranchesAndCalls: the first and the last bundle of the code object are in it, the places before and after are not. -/
theorem witness_targets :
    (0 ≤ dispOf (tX (-5)) s0 ∧ dispOf (tX (-5)) s0 < 100) ∧ (0 ≤ dispOf (tX 94#22) s0 ∧ dispOf (tX 94#22) s0 < 100) ∧
    ¬(0 ≤ dispOf (tX (-6)) s0) ∧ ¬(dispOf (tX 95#22) s0 < 100) ∧ s0.core.ncode = 100 := by decide +kernel
/-- Each condition holds in one state and fails in another. -/
theorem witness_conditions :
    (bcmpTest 0 .i64 (srcA s0.core.a (tX 0#22)) (s0.core.a.rs 2#6) = true ∧ bcmpTest 0 .i64 1#64 (s0.core.a.rs 2#6) = false) ∧
    ((srcA s0.core.a (tX 0#22) == 0#64) = true ∧ (srcA (setS 1#6 1#64).core.a (tX 0#22) != 0#64) = true) ∧
    (predTest 0 (s0.core.a.rp 0#4) = true ∧ predTest 0 (s0.core.a.rp 1#4) = false) ∧
    (s0.core.a.rp 1#4 = s0.core.a.rp 2#4) ∧ (s0.core.a.rp 0#4 ≠ s0.core.a.rp 1#4) := by decide +kernel
/-- BranchesAndCalls: a stack pointer at STKLO; register targets at the last bundle, at 2^32 and beyond the code. -/
theorem witness_calls :
    StackOk s0 ∧ StackOk (withA (fun a => { a.ws 63#6 256#64 0 with stklo := 256#64 })) ∧
    (srcA (setS 1#6 99#64).core.a (tX 0#22)).toNat = 99 ∧ (srcA (setS 1#6 100#64).core.a (tX 0#22)).toNat = 100 ∧
    2 ^ 32 ≤ (srcA (setS 1#6 0x100000000#64).core.a (tX 0#22)).toNat ∧
    issues 0xD6 (tX 0#22) true (setS 1#6 99#64) = true ∧ issues 0xD7 (tX 0#22) true (setS 62#6 99#64) = true := by
  unfold StackOk; decide +kernel
theorem witness_stack_faults :
    (let s := withA (fun a => { a.ws 63#6 128#64 0 with stklo := 256#64 })
     (s.core.a.rs 63#6).toNat < s.core.a.stklo.toNat ∧ issues 0xD5 (tX 0#22) true s = true ∧ issues 0xD6 (tX 0#22) true s = true) ∧
    (let s := setS 63#6 64#64
     s.core.a.stklo.toNat ≤ (s.core.a.rs 63#6).toNat ∧ (s.core.a.rs 63#6).toNat % 128 ≠ 0 ∧ issues 0xD5 (tX 0#22) true s = true) := by
  decide +kernel
/-- LoopSetUp: an inner loop at the first bundle it may hold, inside an active outer one, by LOOP and by LOOPX with stages. -/
def loopS : State := withA (fun a => { a.ws 1#6 4#64 0 with loops := #v[⟨0, 20, true⟩, ⟨0, 0, false⟩, ⟨0, 0, false⟩, ⟨0, 0, false⟩] })
theorem witness_loop :
    (∀ opc ∈ [0xD9, 0xDA], issues opc { tX 15#22 with md := 5#5 } true loopS = true) ∧ loopS.core.a.pend = [] ∧
    (loopS.core.pc : Int) + 1 ≤ dispOf (tX 1#22) loopS ∧ (loopS.core.pc : Int) + 1 ≤ dispOf (tX 15#22) loopS ∧
    (∀ j < 1, (loopAt loopS.core.a j).active = true → (loopAt loopS.core.a j).start ≤ loopS.core.pc + 1 ∧
      dispOf (tX 15#22) loopS ≤ (loopAt loopS.core.a j).stop) ∧
    ¬(lstgAct loopS.core.a.lstg = true ∧ lstgLoop loopS.core.a.lstg < 1) ∧ lstgPb loopS.core.a.lstg = 0 := by decide +kernel
/-- SequencerAdvances: a redirect that is due, a taken transfer, no loop at the bundle, a loop that ends here with passes left. -/
def seqC : Core := { c0 with a := { c0.a with pend := [⟨1, 42, true, 99⟩] } }
def endC : Core := { c0 with a := { c0.a with
  loops := #v[⟨0, 5, true⟩, ⟨0, 0, false⟩, ⟨0, 0, false⟩, ⟨0, 0, false⟩], lc := #v[2#64, 0#64, 0#64, 0#64] } }
theorem witness_sequencer :
    (∃ e, seqC.a.pend = [e] ∧ e.left ≤ 1) ∧ (c0.a.pend = [] ∧ c0.hm = false ∧ ∀ j < 4, (loopAt c0.a j).active = false) ∧
    (endC.a.pend = [] ∧ lstgAct endC.a.lstg = false ∧ (loopAt endC.a 0).active = true ∧ (loopAt endC.a 0).stop = endC.pc ∧
      (∀ j < 4, 0 < j → (loopAt endC.a j).active = false) ∧ 1 < (endC.a.lc.toList.getD 0 0#64).toNat) :=
  ⟨⟨_, rfl, by decide⟩, by decide +kernel⟩
/-- YieldWaitTrapHalt: outside guarded mode; WAITB to its own beat, to an earlier one in timetabled code; nothing trapped. -/
theorem witness_system :
    s0.core.guarded = false ∧ s0.core.trap = none ∧ (srcA (setS 1#6 100#64).core.a (tX 0#22)).toNat ≤ s0.beat ∧
    (let s := withC (fun c => { c with timetabled := true })
     issues 0xDC (tX 0#22) true s = true ∧ s.core.timetabled = true ∧ (srcA s.core.a (tX 0#22)).toNat < s.beat) ∧
    (let s := withC (fun c => { c with timetabled := true, a := c.a.ws 1#6 100#64 0 })
     issues 0xDC (tX 0#22) true s = true ∧ s.core.timetabled = true ∧ s.beat ≤ (srcA s.core.a (tX 0#22)).toNat) ∧
    (let s := withC (fun c => { c with gm := true })
     issues 0xEB (tX 0#22) true s = true ∧ s.core.guarded = true ∧ s.core.drained = true ∧ heldClash s 6 = none) ∧
    (let s := withC (fun c => { c with gm := true, switchReq := true })
     issues 0xDB (tX 0#22) true s = true ∧ s.yields s.core = true ∧ s.core.drained = true ∧ heldClash s 6 = none) := by decide +kernel
/-- The operation meets neither a wait nor a fault of its own. -/
def loopEnds (x : SOp) (s : State) : Bool :=
  (regWait s x).isNone && !dictWait s false && (budgetFault s.core [x]).isNone && (stageCollision s).isNone && (collision s [] [x]).isNone &&
  (drawCollision [x] (if drawsS x.opc x.o then 1 else 0) (if drawsC x.opc then 1 else 0)).isNone &&
  (match x.run (seen x.opc x.o s) with | .ok e => (e.late e.perfs).isNone && !e.ckpt | _ => false)
/-- LoopEndFaults: RET at the end of an active loop; a NOP-like MOV in its delay. -/
theorem witness_loop_end :
    (let s := { s0 with core := { endC with a := endC.a.ws 62#6 7#64 0 } }
     let o := dirX 0#8 0#8 0#8 0#4 0#22 0#5
     loopEnds ⟨0xD7, o, opRet o⟩ s = true ∧ s.core.a.loops.toList.any (fun l => l.active && l.stop == s.core.pc) = true ∧ o.slot ≤ 6 ∧
     s.core.timetabled = false ∧ s.core.hm = false ∧ s.core.guarded = false ∧ s.core.yleft ≠ 0) ∧
    (let s := { s0 with core := { endC with a := { endC.a with pend := [⟨2, 42, true, 99⟩] } } }
     loopEnds ⟨0x16, tS 4#6, opMov (tS 4#6)⟩ s = true ∧ s.core.a.pend ≠ [] ∧
     s.core.a.loops.toList.any (fun l => l.active && l.stop == s.core.pc) = true) := by decide +kernel

/-! ### Special registers, dictionary, adjoint, checkpoint -/

/-- SpecialRegisterAccess: the last listed index, the firmware's, the ones beyond; each kind of register. -/
theorem witness_special :
    (0x1F#8).toNat < 0x20 ∧ 0x20 ≤ (0x20#8).toNat ∧ 0x20 < (0x21#8).toNat ∧ readOnly 0x1F = false ∧ readOnly 0x00 = true ∧
    s0.core.a.adjmode = 0#2 ∧ s0.core.a.tapeFlushed = true ∧ s0.core.drained = true ∧ heldClash s0 6 = none ∧
    (withA (fun a => { a with adjmode := 1#2 })).core.a.adjmode ≠ 0#2 ∧
    issues 0xDE { tX 0#22 with dst := 0x11#8 } true (withA (fun a => { a with adjmode := 1#2 })) = true ∧
    issues 0xDE { tX 0#22 with dst := 0x17#8 } true s0 = true ∧ issues 0xDE { tX 0#22 with dst := 0x20#8 } true s0 = true ∧
    (let s := withC (fun c => { c with flights := [⟨200, 90, 0, none, [.s 9#6 0#64 true 0], 0#8, none, none⟩] })
     issues 0xDE { tX 0#22 with dst := 0x17#8 } true s = true ∧ s.core.drained = false) := by decide +kernel
theorem witness_trapc_fields : c0.cause < 256 ∧ c0.kind < 4 ∧ c0.hvec < 2 ^ 32 := by decide +kernel

/-- DictionaryInstructions: a DLD from an aligned held page; its last byte outstanding, its completion due, poisoned or not. -/
def page0 : Tlb := ⟨0, 4096, 0, 0, 0, 0, 0, false, false, false, true, true, true, [], 0⟩
def dlds (done : Option Nat) (bad : Bool) : State :=
  withC (fun c => { c with dld := some ⟨true, 90, none, done, 0, [.pa 0], [0#8], bad, [], none, [], 0⟩ })
theorem witness_dictionary :
    (let s := withC (fun c => { c with tlb := [page0] })
     issues 0xE0 (tX 0#22) true s = true ∧ s.core.timetabled = false ∧ pathOf s.core 0 = .priv ∧ stackTest s.core.a 1#8 0 = none ∧
     okAnd (imageLocs s s.core 0) (fun ls => ls.length == 2048) = true ∧ okAnd (imageLocs s s.core 2048) (fun ls => ls.length == 2048) = true) ∧
    ((dlds none false).core.dld.map (fun d => (d.done, d.failed, d.readAt, d.locs.any Loc.away))) = some (none, none, none, false) ∧ (dlds none false).core.reqs = [] ∧
    (∀ bad, ((dlds (some 100) bad).core.dld.map (fun d => (d.done, d.poisoned))) = some (some 100, bad)) := by decide +kernel
/-- AdjointOperations: no earlier access; a differentiable page; the mode off and on; a tape at home, and one that is not. -/
def dpage : Tlb := { page0 with fmt := 1, d := true }
theorem witness_adjoint :
    s0.adjBusy s0.core 101 = false ∧ s0.core.a.adjmode = 0#2 ∧ (withA (fun a => { a with adjmode := 1#2 })).core.a.adjmode ≠ 0#2 ∧
    (let s := withC (fun c => { c with tlb := [dpage] })
     pathOf s.core 0 = .priv ∧ okAnd (s.regionOf s.core 0) (fun g => g.d && g.fmt == 1) = true ∧
     okAnd (s.regionOf { s.core with tlb := [{ dpage with fmt := 2 }] } 4095) (fun g => g.d && g.fmt == 2) = true) ∧
    okAnd (s0.tapeLocs s0.core true s0.core.a.unhomed.1 s0.core.a.tapep.toNat) (fun ls => ls == []) = true ∧ s0.core.timetabled = false ∧
    (let s := withC (fun c => { c with tlb := [page0], a := { c.a with tape := List.replicate 16 1#8, tapep := 16#64 } })
     okAnd (s.tapeLocs s.core true s.core.a.unhomed.1 s.core.a.tapep.toNat) (fun ls => ls.length == 16) = true ∧
     s.core.a.tape.length ≤ s.core.a.tapep.toNat ∧ s.core.a.tapeHome ≤ s.core.a.tapep.toNat) := by
  decide +kernel
/-- CheckpointsAndReturns: drained with a store withheld, not drained; in the handler and not; the return, its earlier results delivered. -/
def held0 : Perf := ⟨90, 88, 0, 0, 0, 0, none, [⟨.spad 0 0 64, 0xFF#8, 7#8⟩], none, 0, 1, none, false, none⟩
theorem witness_checkpoint :
    (let s := withC (fun c => { c with gm := true, held := [held0] })
     issues 0xE9 (tX 0#22) true s = true ∧ issues 0xE9 (dirX 0#8 0#8 0#8 0#4 0#22 0#5) false s = true ∧ s.core.drained = true ∧ heldClash s 6 = none) ∧
    (let s := withC (fun c => { c with flights := [⟨200, 90, 0, none, [.s 9#6 0#64 true 0], 0#8, none, none⟩] })
     issues 0xE9 (tX 0#22) true s = true ∧ s.core.drained = false) ∧
    (let s := withC (fun c => { c with hm := true }); issues 0xEA (tX 0#22) true s = true ∧ s.core.hm = true) ∧ s0.core.hm = false ∧
    (let s := withC (fun c => { c with hm := true, waits := [.rte 100] })
     s.core.waits = [.rte 100] ∧ s.waitOver s.core (.rte 100) = true ∧ s.core.pcWritten = false) := by decide +kernel

/-! ### Memory operations -/

def tM (dst : BitVec 8) (ty : BitVec 6) : TOp := ⟨6, 0#5, ty, dst, 1#8, 2#8, 0#6, 0#8, 0#4, 0#22⟩
/-- s1 = `a`; the first page is held; the first quarters and the page hold F32 elements (`fmt` 1) or raw data. -/
def memF (fmt a : Nat) : State := { withC (fun c => { c with a := c.a.ws 1#6 (BitVec.ofNat 64 a) 0, tlb := [{ page0 with fmt := fmt }] }) with
  banks := [0, 1].map (fun k => { banks0 0 k with qfmt := (banks0 0 k).qfmt.set 0 (BitVec.ofNat 64 fmt) }) }
def memS (a : Nat) : State := memF 0 a
def ownA : Nat := spadBase + 64
def clusA : Nat := spadBase + 0x40000
/-- An operation that reaches its access, of which `p` holds. -/
def reach (opc : Nat) (o : TOp) (s : State) (p : Checked → Bool) : Bool :=
  issues opc o true s && !(activeElems opc o (memMask (seen opc o s) opc o)).isEmpty &&
  okAnd (checkMem (seen opc o s) opc o (activeElems opc o (memMask (seen opc o s) opc o))) p
theorem reaches_of_reach (opc : Nat) (o : TOp) (s : State) (p : Checked → Bool) (h : reach opc o s p = true) :
    ∃ k, Reaches opc o s k ∧ p k = true := by
  simp only [reach, Bool.and_eq_true, Bool.not_eq_true', List.isEmpty_eq_false_iff] at h
  obtain ⟨⟨h1, h2⟩, h3⟩ := h
  generalize hc : checkMem _ _ _ _ = r at h3
  match r, h3 with
  | .ok k, h3 => exact ⟨k, ⟨h1, h2, hc⟩, h3⟩
/-- The tests of `Unhindered` as a Bool. -/
def free_ (opc : Nat) (o : TOp) (s : State) (k : Checked) (spad atomic : Bool) (b0 b1 : Nat) : Bool :=
  (fillTest (seen opc o s) (accessRanges (seen opc o s) opc o k)).isNone && (!spad || (windowTest (seen opc o s) o k.els atomic b0 b1).isNone)
theorem unhindered_of_free {opc : Nat} {o : TOp} {s : State} {k : Checked} {spad atomic : Bool} {b0 b1 : Nat}
    (h : free_ opc o s k spad atomic b0 b1 = true) : Unhindered opc o s k spad atomic b0 b1 := by
  simp only [free_, Bool.and_eq_true, Option.isNone_iff_eq_none, Bool.or_eq_true, Bool.not_eq_true'] at h
  exact ⟨h.1, fun hs => h.2.resolve_left (by simp [hs])⟩
def memTable : List (Nat × TOp) :=
  [(0xB0, tM 5#8 0x11#6), (0xB2, tM 0x45#8 0x10#6), (0xB4, { tM 0x45#8 0x10#6 with sb := 0x42#8 }), (0xB6, tM 5#8 0x10#6),
   (0xB7, tM 0x45#8 0x10#6), (0xC6, tM 5#8 8#6), (0xB1, tM 5#8 0x10#6), (0xB3, tM 0x45#8 0x10#6), (0xB5, { tM 0x45#8 0x10#6 with sb := 0x42#8 }),
   (0xC7, tM 5#8 8#6), (0xC9, tM 5#8 0x10#6), (0xCA, tM 0x45#8 0x10#6)] ++
  ((List.range 12).map (fun i => (0xB8 + i, tM 5#8 (if i == 1 then 0x10#6 else 8#6)))) ++ [(0xC4, { tM 0x45#8 0x10#6 with sb := 0x42#8 })]
/-- Nothing hinders an access at the beats at which its kind uses a bank: a load reads at once, or four beats later in another core's
scratchpad; a store at its perform beat; an atomic in its window. -/
def freeAt (opc : Nat) (o : TOp) (s : State) (k : Checked) : Bool :=
  let e := seen opc o s
  let spad := whereOf s.core k.els != .memory
  let add := if whereOf s.core k.els == .clus then 4 else 0
  if isAtomicOp opc then free_ opc o s k spad true (s.beat + 2 + add) (s.beat + 4 + add)
  else if (loadTable.map Prod.snd).contains opc then
    (if whereOf s.core k.els == .clus then
      (fillTest e (accessRanges e opc o k)).isNone &&
      (windowTest e o (k.els.filter (fun el => winCore el.addr == s.core.pcore)) false s.beat s.beat).isNone &&
      (windowTest e o (k.els.filter (fun el => winCore el.addr != s.core.pcore)) false (s.beat + 4) (s.beat + 4)).isNone
    else free_ opc o s k spad false s.beat s.beat)
  else free_ opc o s k (spad && !s.core.guarded) false (storeBeat e opc k.els) (storeBeat e opc k.els)
/-- LoadsAndStoresIssue, AtomicsIssue: every operation in its own scratchpad, in another core's and in memory, with nothing in its way; in
guarded mode a store, a release and an atomic. -/
theorem witness_memory :
    memTable.all (fun x =>
      let m := memF (if x.1 == 0xB9 || x.1 == 0xC4 then 1 else 0)
      reach x.1 x.2 (m ownA) (fun k => whereOf (m ownA).core k.els == .own && freeAt x.1 x.2 (m ownA) k && !k.diff) &&
      reach x.1 x.2 (m clusA) (fun k => whereOf (m clusA).core k.els == .clus && freeAt x.1 x.2 (m clusA) k && !k.diff) &&
      reach x.1 x.2 (m 64) (fun k => whereOf (m 64).core k.els == .memory && freeAt x.1 x.2 (m 64) k && !k.diff)) = true ∧
    ([0xB1, 0xB8, 0xC7].all (fun opc =>
      let s := { memS ownA with core := { (memS ownA).core with gm := true } }
      s.core.guarded && reach opc (tM 5#8 8#6) s (fun k => freeAt opc (tM 5#8 8#6) s k && decide (heldCount s.core.held + entries k ≤ 64)))) = true ∧
    s0.core.guarded = false ∧ (memS ownA).core.timetabled = false := by decide +kernel
theorem witness_memory_inactive :
    memTable.all (fun x => let s := { memS 64 with core := { (memS 64).core with a := (memS 64).core.a.wp 2#4 0#32 } }
      let o := { x.2 with pr := 2#6 }
      issues x.1 o true s && (activeElems x.1 o (memMask (seen x.1 o s) x.1 o)).isEmpty) = true := by decide +kernel
/-- OwnScratchpadWords: the first and the last word of the window of the core, with no cells of memory. -/
theorem witness_own_words :
    OwnRaw64 s0 spadBase ∧ (let s := withC (fun c => { c with pcore := 127 }); OwnRaw64 s (spadBase + 127 * 0x40000)) ∧
    issues 0xB0 (dirMem 5#6 1#6 15#4) false s0 = true ∧ issues 0xB1 (dirMem 5#6 1#6 0#4) false s0 = true ∧
    s0.core.a.stklo.toNat ≤ spadBase := by unfold OwnRaw64; decide +kernel
/-- ComparesMismatch: equal operands; a difference in the high half; in lane 31; in a predicate. -/
theorem witness_mismatch :
    halves (s0.core.a.rs 1#6) = halves (s0.core.a.rs 2#6) ∧
    (let s := setS 5#6 0x100000000#64
     (halves (s.core.a.rs 5#6))[1]? = some 1#32 ∧ (halves (s.core.a.rs 2#6))[1]? = some 0#32 ∧ activeS s.core.a (tS 4#6) = true ∧
     issues 0xC9 (tS 4#6) true s = true ∧ (halves (s.core.a.rs 5#6))[0]? = (halves (s.core.a.rs 2#6))[0]?) ∧
    (let s := withA (fun a => a.wv 0x05#6 (vecOf 32 (fun k => if k == 31 then 1#32 else 0#32)) 0)
     issues 0xCA (tV 4#6) true s = true ∧ (laneMask s.core.a (tV 4#6)).getLsbD 31 = true ∧
     laneAt (s.core.a.rv 5#6) 31 ≠ laneAt (s.core.a.rv 2#6) 31 ∧ (∀ j < 31, laneAt (s.core.a.rv 5#6) j = laneAt (s.core.a.rv 2#6) j)) ∧
    (let s := withA (fun a => a.wp 1#4 1#32); [s.core.a.rp 1#4] ≠ [s.core.a.rp 2#4] ∧ issues 0xC8 (tS 4#6) true s = true) := by decide +kernel
/-- BusyUnitsFault: the engine and the A slot busy for one more beat; the operation runs once its unit is free. -/
def runsFree (x : SOp) (s : State) : Bool := match x.run ⟨s, lanes0, 0⟩ with | .ok e => (e.late e.perfs).isNone && !e.ckpt | _ => false
theorem witness_busy :
    (let s := withC (fun c => { c with engBusy := 101, aBusy := 101 })
     s.beat < s.core.engBusy ∧ s.beat < s.core.aBusy ∧ (sopOf (.mzero (tM 0xC1#8 0#6))).isSome = true ∧ (sopOf (.ard (tM 0x45#8 0x10#6))).isSome = true ∧
     (match sopOf (.mzero (tM 0xC1#8 0#6)) with | some x => runsFree x s0 && issues x.opc x.o true s | none => false) = true ∧
     (match sopOf (.ard { tM 0x45#8 0x10#6 with sa := 0xC1#8 }) with | some x => runsFree x s0 && issues x.opc x.o true s | none => false) = true) := by
  decide +kernel
/-- FenceIssues: nothing outstanding; a store outstanding at a wider scope; guarded mode. -/
theorem witness_fence :
    issues 0xC5 (tS 0#6) true s0 = true ∧ s0.fenceFree s0.core 0 s0.beat = true ∧ s0.core.fswDue = [] ∧
    (let s := withC (fun c => { c with outst := [⟨1, 90, 0, [.pa 0], false, false, 0, false⟩] })
     s.fenceFree s.core 1 s.beat = false ∧ s.core.uncovered s.perfs 1 s.beat true = true ∧ s.core.guarded = false ∧ s.core.timetabled = false ∧
     issues 0xC5 { tS 0#6 with md := 1#5 } true s = true) ∧
    (let s := withC (fun c => { c with timetabled := true, outst := [⟨1, 90, 0, [.pa 0], false, false, 0, false⟩] })
     s.core.timetabled = true ∧ s.core.uncovered s.perfs 1 s.beat true = true ∧ issues 0xC5 { tS 0#6 with md := 1#5 } true s = true) ∧
    (let s := withC (fun c => { c with gm := true }); s.core.guarded = true ∧ issues 0xC5 (tS 0#6) true s = true) := by decide +kernel

/-! ### Deliveries, stores, replies, events of memory -/

def fly (ws : List Wr) (fl : Flags8) (flt : Option (Nat × Word64)) : Flight := ⟨100, 98, 3, none, ws, fl, flt, none⟩
def landS (f : Flight) (fctl : Word64) : State := withC (fun c => { c with flights := [f], a := { c.a with fctl := fctl } })
/-- Delivery: one result due now, to s63 and to s0; an enabled flag; a delivery fault. -/
theorem witness_delivery :
    (∀ n ∈ [0#6, 63#6], let f := fly [.s n 7#64 true 0] 1#8 none
      f.due ≤ (landS f 0#64).beat ∧ f.fault = none ∧ (landS f 0#64).core.trapping f.fl = false) ∧
    (let f := fly [.v 0#6 0x80000001#32 lanes0 0] 1#8 none
     (landS f 0#64).core.trapping f.fl = false ∧ (landS f 1#64).core.trapping f.fl = true ∧ (∀ w ∈ f.ws, w.early = false)) ∧
    ((fly [.s 1#6 0#64 true 0] 0#8 (some (0x09, 0#64))).fault = some (0x09, 0#64)) ∧ (landS (fly [] 0#8 none) 0#64).core.trap = none ∧
    (landS (fly [] 0#8 none) 0#64).core.steps = [] := by decide +kernel

/-- A request on raw bytes of the own scratchpad (fixed) or of a page. -/
def elem0 (l : Nat → Loc) (a : Nat) : Elem := ⟨0, a, (List.range 8).map l, 0, 64, 0, 0, false, none⟩
def req0 (k : ReqKind) (l : Nat → Loc) (a : Nat) (fixed : Option (Nat × Nat)) : Req :=
  ⟨9, k, 0xB8, tM 5#8 8#6, 90, a, [elem0 l a], 1#32, 5#64, lanes0, 6#64, lanes0, lanes0, false, false, 0, [], [], none, 0, [], fixed, false, false, (0, 0), [], none⟩
def spad0 (i : Nat) : Loc := .spad 0 0 (64 + i)
def perf0 (rel : Option Nat) (bad : Nat) : Perf :=
  ⟨100, 90, 0, 0, 0, 9, some { req0 .store spad0 ownA (some (100, 100)) with opc := 0xB1 }, [], rel, bad, 1, none, false, none⟩
/-- A release to memory, to be sent or on its way. -/
def memRel (sc bad : Nat) (sent : Bool) : Perf :=
  { perf0 (some sc) bad with req := some { req0 .store .pa 0 none with opc := 0xB1 }, ws := if sent then [⟨.pa 0, 0xFF#8, 7#8⟩] else [], sent := sent }
/-- StoresPerform: one store due, to the own scratchpad, and no other access; a STREL to the scratchpad that is ready and one that is not, and to memory, to be sent and sent, each with and without
a failure that it covers. -/
theorem witness_store_performs :
    (let s := { s0 with perfs := [perf0 none 0] }
     let r := { req0 .store spad0 ownA (some (100, 100)) with opc := 0xB1 }
     s.Canonical ∧ s.duePerfs = [perf0 none 0] ∧ (perf0 none 0).req = some r ∧ r.kind = .store ∧
     (s.refresh (s.coreAt 0 0) r).map (fun el => el.locs) = [(List.range 8).map spad0] ∧
     ((s.coreAt 0 0).fctlNow s.beat).trapping (encodeStore r (s.refresh (s.coreAt 0 0) r)).2 = false) ∧
    (let r := req0 .load spad0 ownA (some (100, 104))
     let s := withC (fun c => { c with reqs := [r] })
     s.duePerfs = [] ∧ s.dueReqs.map (fun x => (x.1.pclus, x.2)) = [(0, r)] ∧ r.kind = .load ∧ s.core.dld = none) ∧
    (∀ bad ∈ [0, 2], ∀ sc ∈ [3, 4], let p := perf0 (some sc) bad
     let s : State := { s0 with perfs := [p] }
     let u : State := withC (fun c => { c with copyFails := [⟨0, 0, 80, 1, 0, 0⟩], outst := [⟨1, 80, 0, [.pa 0], false, false, 0, false⟩] })
     s.duePerfs = [p] ∧ p.sent = false ∧ p ∈ s.perfs ∧ p.locs.any Loc.isSpad = true ∧ s.strelReady p = true ∧
     (∀ b ∈ p.banks, s.windowHit b.1 b.2.1 b.2.2 s.beat s.beat = false) ∧ { u with perfs := [p] }.strelReady p = false ∧
     { u with perfs := [p] }.duePerfs = [p]) ∧
    (∀ bad ∈ [0, 2], let p := memRel 3 bad true
     { s0 with perfs := [p] }.strelDue = some p ∧ p.locs.any Loc.isSpad = false ∧
     { s0 with perfs := [memRel 4 bad false] }.duePerfs = [memRel 4 bad false]) := by
  unfold State.Canonical; decide +kernel
theorem witness_load_performs :
    let r := req0 .load spad0 ownA (some (100, 104))
    let s := withC (fun c => { c with reqs := [r] })
    s.dueReqs = [(s.core, r)] ∧ s.others = [] := ⟨rfl, rfl⟩
def fenceS (b : Nat) (out : List Outst) : State := withC (fun c => { c with waits := [.fence 3 5#6 b 0], outst := out })
/-- AccessOutcomes: a FENCE whose stores are done, one with a store outstanding, one at its time limit; a load at its; a store reported. -/
theorem witness_outcomes :
    (fenceS 90 []).core.fenceWait = some (3, 5#6, 90, 0) ∧ (fenceS 90 []).fenceReady (fenceS 90 []).core = true ∧
    (let s := fenceS 90 [⟨1, 80, 0, [.pa 0], false, false, 0, false⟩]; s.fenceReady s.core = false ∧ s.core.fenceWait = some (3, 5#6, 90, 0)) ∧
    (let s := { fenceS 90 [⟨1, 80, 0, [.pa 0], false, false, 0, false⟩] with beat := 90 + timeoutBeats }; 90 + timeoutBeats ≤ s.beat) ∧
    (let s := { withC (fun c => { c with reqs := [req0 .load .pa 0 none] }) with beat := 90 + timeoutBeats }
     ((inputCore s (9 * 4096)).reqs.find? (fun r => r.id == 9 && r.mayTimeOut)).isSome = true ∧ 90 + timeoutBeats ≤ s.beat) ∧
    ((inputCore (fenceS 90 [⟨1, 80, 0, [.pa 0], false, false, 0, false⟩]) 4096).outst.find? (fun x => x.id == 1)).isSome = true ∧
    (127 < 128 ∧ 0xFFFF < 2 ^ 16 ∧ c0.fswDue = [] ∧ c0.a.fsw.toNat / 256 % 256 = 0 ∧ { c0 with a := { c0.a with fsw := 0x100#64 } }.a.fsw.toNat / 256 % 256 ≠ 0) := by
  decide +kernel
/-- Tables that map the rank's first gigabyte to the first of HBM: stage 2 at 0x1000, stage 1 at 0x4000. -/
def rank0 (st : Residency) : Rank := ⟨0, 0, 0, st, some 0, 0x4000, [], 0#64, [], 0#64, 0, 0, 0, Image.empty, none, [], false, false⟩
def job0 : Job := ⟨0, 0, 0x1000, 0, 1, [(0, 0#16)], []⟩
def tabs : Memory := ⟨[(0x1000, 1#8), (0x1001, 0x20#8), (0x2000, 1#8), (0x2001, 0x30#8), (0x3000, 143#8), (0x4000, 1#8), (0x4001, 0x50#8),
  (0x5000, 1#8), (0x5001, 0x60#8), (0x6000, 159#8)], []⟩
def tabS : State := { withP (fun p => { p with ranks := [rank0 .running], jobs := [job0] }) with mem := tabs }
/-- TranslationsAndL2: the first and the last address of a leaf; no rank; a dirty sector, the last of HBM. -/
theorem witness_walks :
    (∀ a ∈ [0, 2 ^ 30 - 1], ∀ k ∈ [0, 5], walkAddr ((k * 2 ^ 64 + a) * 4096 + 3) = a ∧ walkTable ((k * 2 ^ 64 + a) * 4096 + 3) = k) ∧
    okAnd (tabS.translate 0 0 0) (fun t => t.va == 0 && t.size == 2 ^ 30 && t.out == 0) = true ∧
    okAnd (tabS.translate 0 0 (2 ^ 30 - 1)) (fun t => decide (t.va ≤ 2 ^ 30 - 1 ∧ 2 ^ 30 - 1 < t.va + t.size)) = true ∧
    failsWith (tabS.translate 0 0 (2 ^ 30)) (fun f => f.detail == 2) = true ∧ failsWith (s0.translate 0 0 0) (fun f => f.detail == 2) = true ∧
    (let s : State := { tabS with l2 := [⟨3, 0x17FFFFFF, true, 5#128, false, 0, 1#1024⟩] }
     s.Canonical ∧ 3 < 4 ∧ sectorExists 0x17FFFFFF = true ∧ (s.sectorAt 3 (0x17FFFFFF * 128)).isSome = true ∧ sectorExists 0 = true) := by
  unfold State.Canonical; decide +kernel
/-- HomeAtomics: an atomic, an accumulation and a clear whose home may perform it; 64-bit operands. -/
theorem witness_home_atomic :
    (∀ k ∈ [ReqKind.atomic, .accum, .clear], let s := withC (fun c => { c with reqs := [req0 k .pa 0 none] })
     (inputCore s (9 * 4096)).reqs.find? (fun r => r.id == 9 && r.fixed.isNone && !r.held && r.isRmw && r.homed.isNone && decide (r.answer ≤ 1) &&
      !r.local_.isEmpty) = some (req0 k .pa 0 none) ∧
     s.Canonical ∧ s.homeBlocked s.core (req0 k .pa 0 none) = false ∧ s.l2 = [] ∧ (req0 k .pa 0 none).psn = [] ∧
     (s.core.fctlNow s.beat).trapping (rmwOf (req0 k .pa 0 none) (req0 k .pa 0 none).local_ (fun _ => 0#8)).2.2 = false) ∧
    (let r := req0 .atomic .pa 0 none
     r.o.t = .n64 ∧ (elem0 .pa 0).width = 64 ∧ 2 ^ 64 - 1 < 2 ^ 64 ∧ r.opc ≠ 0xC4 ∧ ({ r.o with ty := 4#6 } : TOp).t = .i64) := by
  unfold State.Canonical; decide +kernel
/-- A full tile of 64 bytes of die 0. -/
def tile64 : TTile := ⟨0, 64, 0, 0, 1, 0, [⟨64, 64, false, false, true⟩, ⟨0, 0, false, false, false⟩, ⟨0, 0, false, false, false⟩,
  ⟨0, 0, false, false, false⟩], some 96⟩
/-- RepliesAndWaits: data, poison, a refusal; a load and an atomic; a beat reached and one not; a table readable; a tile four beats full. -/
theorem witness_replies :
    (∀ a ∈ [0, 1, 9, 17, 31], let r := { req0 .load .pa 0 none with answer := a }
     let s := withC (fun c => { c with reqs := [r] })
     (inputCore s (9 * 4096)).reqs.find? (fun r => r.id == 9 && r.fixed.isNone && !r.held) = some r ∧ leaves r = false ∧ homeOwed s.core r = false ∧
     homeOwed { s.core with reqs := [r, { req0 .atomic .pa 0 none with id := 8, issue := 89 }] } r = true) ∧
    (∀ h ∈ [none, some [0#8]], let r := { req0 .atomic .pa 0 none with answer := 1, homed := h }
     let s := withC (fun c => { c with reqs := [r] })
     (inputCore s (9 * 4096)).reqs.find? (fun r => r.id == 9 && r.fixed.isNone && !r.held) = some r ∧ r.owesHome = h.isNone) ∧
    (withC (fun c => { c with waits := [.beat 100] })).core.waits = [.beat 100] ∧ (100 : Nat) ≤ s0.beat ∧ s0.beat < 101 ∧
    (let s := { tabS with core := { c0 with tombLoad := some 100 } }
     s.tableAway s.core s.core.a.rngt.toNat = [] ∧ okAnd (s.readTable s.core s.core.a.rngt.toNat) (fun _ => true) = true) ∧
    (let s := withP (fun p => { p with tiles := [tile64] })
     s.pk.tiles[0]? = some tile64 ∧ tile64.full = some 96 ∧ (∀ d ∈ tile64.dies, d.fired = false) ∧ 96 + 4 ≤ s.beat) := by decide +kernel
/-- TrapHandling: a trap of each kind whose entry beat has come, by the handler route, in and out of guarded mode; causes and HVEC at the
ends of their ranges. -/
theorem witness_trap :
    (∀ k < 3, ∀ gm : Bool, let r : TrapReq := ⟨0x08, k, 5, 7#64, 96, false⟩
     let s := withC (fun c => { c with trap := some r, hvec := 99, gm := gm, held := [held0] })
     s.entryDue s.core r = true ∧ s.core.handlerRoute r.cause = true) ∧
    { c0 with hvec := 1 }.handlerRoute 0x08 = true ∧ { c0 with hvec := 100 }.handlerRoute 0x08 = false ∧ c0.handlerRoute 0x08 = false := by
  decide +kernel

/-! ### Engine, accumulator, copy instructions -/

def engT (sa : BitVec 8) : TOp := ⟨3, 0#5, 0x10#6, 0xC1#8, sa, 0x42#8, 0#6, 0#8, 0#4, 0#22⟩
/-- EngineIssue: a free engine; an aligned span of F32 elements for MFILL and MSTASH; a descriptor of one element for MUCFG and MOPV. -/
def unfS : State := { memF 1 (spadBase + 0x10000) with
  mem := ⟨[(0x10004, 1#8), (0x10006, 1#8), (0x10008, 1#8), (0x1000A, 0x11#8), (0x1000B, 0x11#8), (0x1000D, 0x11#8)].map
    (fun x => (spadKey 0 0 x.1, x.2)), []⟩
  core := { (memF 1 (spadBase + 0x10000)).core with a := { (memF 1 (spadBase + 0x10000)).core.a with
    unf0 := 0x0001000100000000#64, unf1 := 0x0000110011110001#64, unfq := 1#64 } } }
theorem witness_unfolding :
    (let s := unfS
     let rd := fun (i : Nat) => s.spadSee s.core (s.beat + 2) (ownLoc s.core i)
     issues 0x88 (engT 1#8) true s = true ∧ stackTest s.core.a 1#8 (srcA s.core.a (engT 1#8)).toNat = none ∧
     okAnd (engAddr (seen 0x88 (engT 1#8) s) (srcA s.core.a (engT 1#8))) (fun x => x == 0x10000) = true ∧
     okAnd (loadUnf (s.banksOf s.core.pclus s.core.pcore) rd 0x10000) (fun _ => true) = true ∧
     (fillTest (seen 0x88 (engT 1#8) s) [(ownAddr s.core 0x10000, 16)]).isNone = true ∧ s.windows = []) ∧
    (let s := unfS
     let u := unfOf s.core.a.unf0.toNat s.core.a.unf1.toNat
     issues 0x83 (engT 1#8) true s = true ∧ unfOk s.core.a.unf0.toNat s.core.a.unf1.toNat = true ∧ okAnd (tensorQ (s.banksOf 0 0) u) (fun q => q == s.core.a.unfq) = true ∧
     mFmt (engT 1#8).t = Fmt.ofCode (qFmt s.core.a.unfq) ∧ (mFmt (engT 1#8).t).isSome = true ∧ fmtOk (qFmt 1#64) (qGeom 1#64) = true ∧
     qGeom 1#64 = 0 ∧ (tensorElem 1#64 (fun _ => 0#8) ((tensorBase 1#64 u).getD 0)).2.2 = none ∧ s.windows = [] ∧ s.pk.colls = [] ∧
     (fillTest (seen 0x83 (engT 1#8) s) ((List.range 4).map (fun i => (ownAddr s.core i, 1)))).isNone = true) := by
  decide +kernel
theorem witness_engine :
    s0.core.engBusy ≤ s0.beat ∧ s0.core.aBusy ≤ s0.beat ∧
    (∀ opc ∈ [0x86, 0x87], let s := memF 1 spadBase
     issues opc (engT 1#8) true s = true ∧ okAnd (tileSpan (seen opc (engT 1#8) s) (engT 1#8)) (fun x =>
       (fillTest (seen opc (engT 1#8) s) [(ownAddr s.core x.1, x.2)]).isNone && !s.windowHit 0 0 (x.1 / 0x10000) 102 133 &&
       !s.windowHit 0 0 (x.1 / 0x10000) (s.beat + beatsOf s .mx + 2) (s.beat + beatsOf s .mx + 33)) = true ∧ s.pk.colls = [] ∧ s.core.guarded = false) ∧
    (∀ opc ∈ [0x92, 0x93], let s := memF 1 spadBase
     okAnd (spillSpan (seen opc (engT 1#8) s) (engT 1#8)) (fun x => (fillTest (seen opc (engT 1#8) s) [(ownAddr s.core x, 4096)]).isNone) = true ∧
     okAnd (spillSpan (seen opc { engT 1#8 with ty := 0#6 } s) { engT 1#8 with ty := 0#6 }) (fun _ => true) = true ∧ s.windows = []) := by
  decide +kernel
/-- EngineResults: sums of a zero and of a nonzero product; a tile with a step. -/
theorem witness_engine_steps :
    Bin.af48.decode (tileAt tile0 31 31).toNat = .fin ⟨false, 0, 0⟩ ∨ (∃ d, Bin.af48.decode (tileAt tile0 31 31).toNat = .fin d) := by
  exact .inr ⟨_, rfl⟩
theorem witness_engine_product :
    (xmul (Bin.f32.decode 0x3F800000) (Bin.f32.decode 0x40000000)).v = .fin ⟨false, 2 ^ 46, 1 - 46⟩ ∨
    (match (xmul (Bin.f32.decode 0x3F800000) (Bin.f32.decode 0x40000000)).v with | .fin d => d.m != 0 && d.log2 == 1 | _ => false) = true := by
  decide +kernel

def chS (x : Chan) : State := withC (fun c => { c with chan0 := x })
def ch0 : Chan := { Chan.idle with st := 1 }
/-- CopyAndBankInstructions: channels idle, failed and running; aligned and misaligned records; a range at its limits; the two bank
switches; BUFSWAP in and out of the handler, drained or not. -/
theorem witness_copy_instructions :
    chanOf (tX 0#22) = 0 ∧ chanOf { tX 0#22 with slot := 5 } = 1 ∧ s0.core.chan0.st = 0 ∧ (chS { ch0 with st := 3 }).core.chan0.st = 3 ∧
    (chS ch0).core.chan0.st = 1 ∧ (srcA (setS 1#6 64#64).core.a (tX 0#22)).toNat % 64 = 0 ∧ (srcA (setS 1#6 63#64).core.a (tX 0#22)).toNat % 64 ≠ 0 ∧
    (let s := withA (fun a => (a.ws 1#6 (BitVec.ofNat 64 spadBase) 0).ws 2#6 (BitVec.ofNat 64 (spadBase + 0x2000000)) 0)
     spadBase ≤ (srcA s.core.a (tX 0#22)).toNat ∧ (s.core.a.rs (regN (tX 0#22).sb)).toNat = spadBase + 0x2000000 ∧ issues 0xA4 (tX 0#22) true s = true) ∧
    (let s := withA (fun a => { a with stklo := 256#64 })
     stackTest s.core.a 1#8 0 = none ∧ (stackTest s.core.a 63#8 (srcA s.core.a { tX 0#22 with sa := 63#8 }).toNat).isSome = true ∧
     issues 0xA0 { tX 0#22 with sa := 63#8 } true s = true) ∧
    ¬spadBase ≤ (srcA s0.core.a (tX 0#22)).toNat ∧ (tX 0#22).md.getLsbD 0 = false ∧ ({ tX 0#22 with md := 1#5 } : TOp).md.getLsbD 0 = true ∧
    (withC (fun c => { c with events := [1#64] })).core.takeEvents.events = 1#64 :: [] ∧ s0.core.takeEvents.events = [] ∧ activeS s0.core.a (tX 0#22) = true ∧
    movesTape (s0.banksOf 0 0) 3 1 = false ∧
    (let s := { withC (fun c => { c with tlb := [page0], a := { c.a with tape := [1#8], tapep := 1#64 } }) with
      banks := [{ banks0 0 0 with modes := (banks0 0 0).modes.set 0 3#2 }] }
     movesTape (s.banksOf 0 0) 0 0 = true ∧ s.core.a.tape.length ≤ s.core.a.tapep.toNat ∧ s.core.a.tapeHome ≤ s.core.a.tapep.toNat ∧
     okAnd (s.tapeLocs s.core true s.core.a.unhomed.1 s.core.a.tapep.toNat) (fun ls => ls != []) = true) ∧ heldClash s0 6 = none ∧
    (withC (fun c => { c with hm := true })).core.hm = true ∧ s0.core.hm = false ∧ s0.core.drained = true ∧
    (let s := withC (fun c => { c with engBusy := 100, flights := [fly [] 0#8 none] }); s.core.drained = false ∧ issues 0xA9 (tX 0#22) true s = true) := by
  decide +kernel

/-! ### Copy channels -/

def recA : Nat := spadBase + 0x2000
def recW (count : Nat) (f : Word64) : List Word64 :=
  [0x8000000000000000#64, BitVec.ofNat 64 spadBase, BitVec.ofNat 64 (spadBase + 0x1000), BitVec.ofNat 64 count, f, 0#64, 0#64, 0#64]
def recM (xs : List (Nat × Byte)) : Memory := ⟨xs.map (fun x => (spadKey 0 0 (0x2000 + x.1), x.2)), []⟩
def fetchS (m : Memory) : State := { chS { ch0 with fetchAt := some (recA, 100) } with mem := m }
theorem witness_own_channel : OwnChan s0 0 0 ∧ OwnChan s0 1 1 ∧
    OwnChan (withC (fun c => { c with pclus := 31, pcore := 127 })) 1 8191 := by unfold OwnChan; decide +kernel
/-- CopyChannelsRun: a record to fetch: parked, invalid, valid. -/
theorem witness_record_fetch :
    (let s := fetchS (recM []); let c := s.pagesFor s.core [recA, recA + 63]
     okAnd (s.copyReg c false recA) (fun g => g.fifo == none) = true ∧ s.awayOf c [] ((List.range 64).map (fun i => recA + i)) = [] ∧
     ((List.range 64).map (fun i => s.copyByte c [] (recA + i))).any Prod.snd = false ∧ (recF ((List.range 8).map (fun _ => 0#64))).own = false) ∧
    (recF (recW 0 0#64)).own = true ∧ (recF (recW 0 0#64)).unf = false ∧ recBad (recW 0 0#64) = true ∧
    (recF (recW 128 0#64)).acc = false ∧ recBad (recW 128 0#64) = false ∧
    (let s := fetchS (recM [(7, 0x80#8), (13, 0x80#8), (17, 0x10#8), (21, 0x80#8), (24, 0x80#8)])
     (List.range 8).map (fun i => BitVec.ofNat 64 (leNat (((((List.range 64).map (fun i => s.copyByte s.core [] (recA + i))).map Prod.fst).drop (8 * i)).take 8)))
       = recW 128 0#64) := by decide +kernel
/-- A record with UNF, and its descriptor: valid, or zeros; either poisoned; an ACC record whose quarter holds F32, or raw data. -/
def unfBytes : List (Nat × Byte) := [(7, 0x80#8), (13, 0x80#8), (17, 0x10#8), (21, 0x80#8), (24, 1#8), (32, 0x11#8), (36, 1#8), (38, 1#8),
  (41, 0x30#8), (45, 0x80#8)]
def descBytes : List (Nat × Byte) := [(0x1004, 1#8), (0x1006, 1#8), (0x1008, 1#8), (0x100A, 0x11#8), (0x100B, 0x11#8), (0x100D, 0x11#8)]
def recU : List Word64 := [0x8000000000000000#64, BitVec.ofNat 64 spadBase, BitVec.ofNat 64 (spadBase + 0x1000), 1#64, 0x0001000100000011#64,
  BitVec.ofNat 64 (spadBase + 0x3000), 0#64, 0#64]
def bytesOf (s : State) (a n : Nat) : List (Byte × Bool) := (List.range n).map (fun i => s.copyByte s.core [] (a + i))
def wordsOf (bs : List (Byte × Bool)) : List Word64 :=
  (List.range (bs.length / 8)).map (fun i => BitVec.ofNat 64 (leNat (((bs.map Prod.fst).drop (8 * i)).take 8)))
theorem witness_record_unfolding :
    (∀ ok : Bool, let s := fetchS (recM (unfBytes ++ if ok then descBytes else []))
     let d := (recF recU).udesc
     wordsOf (bytesOf s recA 64) = recU ∧ recBad recU = false ∧ (recF recU).unf = true ∧ (recF recU).acc = false ∧
     (s.pagesFor s.core [d, d + 15, (recF recU).dst]).tlb = s.core.tlb ∧ s.copyRefused s.core false [d, d + 15] = none ∧
     okAnd (s.copyReg s.core false d) (fun g => g.fifo == none) = true ∧ s.awayOf s.core [] ((List.range 16).map (fun i => d + i)) = [] ∧
     (bytesOf s d 16).any Prod.snd = false ∧ (match wordsOf (bytesOf s d 16) with | [v, w] => unfOk v.toNat w.toNat | _ => !ok) = ok ∧
     (bytesOf { s with blocks := [blockOf 0 0 0x2000] } recA 64).any Prod.snd = true ∧
     (bytesOf { s with blocks := [blockOf 0 0 0x3000] } d 16).any Prod.snd = true) ∧
    (recBad (recW 32 0x100#64) = false ∧ (recF (recW 32 0x100#64)).acc = true ∧ s0.accBad c0 (recF (recW 32 0x100#64)) = true ∧
     ({ s0 with banks := [{ banks0 0 0 with qfmt := (banks0 0 0).qfmt.set 0 1#64 }] } : State).accBad c0 (recF (recW 32 0x100#64)) = false) := by
  decide +kernel
def crec (count : Nat) (f : Word64) : CRec :=
  ⟨recA, recW count f, 90, 94, (recF (recW count f)).chunks, 0, [], [], [], 0, false, false, 0, (0#64, 0#64), none, 96⟩
/-- A chunk to read: plain, packed, of values, of values that cannot be read; its bank free or busy. -/
theorem witness_chunk_read :
    (let s := chS { ch0 with cur := some (crec 129 0#64) }
     let w := recF (recW 129 0#64)
     okAnd (s.chunkPlaces (s.pagesFor s.core [w.src]) w (unfOf 0 0) 0) (fun ps =>
       let c := s.chunkPages s.core w ps
       let as := ps.flatMap (s.placeBytes c w)
       as.length == 128 && (s.awayOf c [] as).isEmpty && !s.portBusy 0 false (banksAt as) && (s.copyRefused c false as).isNone &&
       ({ s with windows := [⟨99, 0, 0, 0, 90⟩] } : State).portBusy 0 false (banksAt as)) = true ∧
     (crec 129 0#64).lastRead ≠ some s.beat ∧ (crec 129 0#64).ready = [] ∧ w.pck = false ∧
     s.isFlat (s.pagesFor s.core [w.src]) w.src = false ∧ s.fifoAt s.core w w.src (w.inChunk 0) false = none ∧ w.value = false ∧
     (crec 129 0#64).nread < (crec 129 0#64).chunks ∧ (crec 129 0#64).base + 0 ≤ s.beat) ∧
    (let s := { chS { ch0 with cur := some (crec 129 0#64) } with banks := [{ banks0 0 0 with modes := (banks0 0 0).modes.set 1 3#2 }] }
     let as := (List.range 128).map (fun i => spadBase + 0xFFC0 + i)
     (s.copyRefused s.core false as).isSome = true ∧ okAnd (s.copyReg s.core false (spadBase + 0xFFC0)) (fun g => g.fifo == none) = true ∧
     s.awayOf s.core [] as = [] ∧ s.portBusy 0 false (banksAt as) = false ∧ (recF (recW 129 0x20#64)).pck = true) ∧
    (let s := chS { ch0 with cur := some (crec 32 1#64) }
     let w := recF (recW 32 1#64)
     w.value = true ∧ w.pck = false ∧ okAnd (s.chunkPlaces (s.pagesFor s.core [w.src]) w (unfOf 0 0) 0) (fun ps =>
       okAnd (s.chunkItems (s.chunkPages s.core w ps) w [] none 0 ps 0) (fun x => !x.2)) = true) ∧
    (let s := { chS { ch0 with cur := some (crec 32 1#64) } with banks := [{ banks0 0 0 with qfmt := (banks0 0 0).qfmt.set 0 7#64 }] }
     let w := recF (recW 32 1#64)
     w.value = true ∧ okAnd (s.chunkPlaces (s.pagesFor s.core [w.src]) w (unfOf 0 0) 0) (fun ps =>
       failsWith (s.chunkItems (s.chunkPages s.core w ps) w [] none 0 ps 0) (fun e => e == 3)) = true) := by decide +kernel
def ready0 : Ready := ⟨0, 96, 98, [], List.replicate 128 7#8, lanes0, false, 0, 4, false⟩
/-- A chunk to write, its bank free or busy, or where it cannot be written; the ends of records. -/
theorem witness_chunk_write :
    (let s := chS { ch0 with cur := some { crec 128 0#64 with nread := 1, ready := [ready0] } }
     let w := recF (recW 128 0#64)
     let c := s.writePages (s.pagesFor s.core [w.src, w.dst]) w ready0
     ready0.writeAt ≤ s.beat ∧ s.isFlat c w.dst = false ∧ s.fifoAt c w w.dst (w.inChunk 0) true = none ∧ s.Canonical ∧ w.value = false ∧
     okAnd (s.chunkOut c w (ftzOn s.core.a) ready0) (fun x => let ws := x.1; !s.portBusy 0 true (banksAt (ws.map Prod.fst)) &&
       ws.all (fun v => match s.locOf c v.1 with | .spad _ _ _ => true | _ => false) &&
       ({ s with windows := [⟨99, 0, 0, 0, 90⟩] } : State).portBusy 0 true (banksAt (ws.map Prod.fst))) = true ∧
     failsWith (s.chunkOut c { w with dst := 64 } (ftzOn s.core.a) ready0) (fun e => e == 3) = true) := by unfold State.Canonical; decide +kernel
theorem witness_record_ends :
    (let r := { crec 128 0#64 with nread := 1 }
     r.nread = r.chunks ∧ r.ready = [] ∧ r.acks = 0 ∧ r.lastWrite + 1 ≤ s0.beat ∧ (recF r.words).next = 0 ∧ (recF r.words).evt = false) ∧
    (let w := recF ([0x8000000000000040#64] ++ (recW 128 0x80#64).drop 1); w.next = 64 ∧ w.evt = true ∧ ch0.quiet = false) ∧
    (crec 128 0#64).nread < (crec 128 0#64).chunks ∧ ch0.st = 1 ∧ (crec 128 0#64).fetch + 4194304 ≤ 4194394 ∧
    (let x := { ch0 with stopAt := some 100 }; x.stopAt = some 100 ∧ x.cur = none) ∧
    (let x := { ch0 with fetchAt := some (recA, 90) }; x.st = 1 ∧ x.cur = none ∧ 90 + 4194304 ≤ 4194394) ∧
    (∀ n ∈ [31, 32], let c := { c0 with events := List.replicate n 0#64, evDue := [(2, 0, recA)] }
      c.evDue = [(2, 0, recA)] ∧ c.events.length = n) := by decide +kernel
/-- CopyRecordsAndPhases: a FIFO bank with room for the chunk and one without; a bank that switches, of and into each mode. -/
def fifoS (n : Nat) : State :=
  { chS { ch0 with cur := some { crec 128 0#64 with nread := 1, ready := [ready0] } } with
    banks := [{ banks0 0 0 with modes := (banks0 0 0).modes.set 0 2#2, fifos := (banks0 0 0).fifos.set 0 (List.replicate n (0#8, false)) }] }
theorem witness_fifo :
    (let s := fifoS 3
     let w := recF (recW 128 0#64)
     s.fifoAt (s.pagesFor s.core [w.src, w.dst]) w w.dst (w.inChunk 0) true = some (0, 0, 128) ∧
     ((s.banksOf 0 0).fifo 0).length + 128 ≤ 65536 ∧ ready0.writeAt ≤ s.beat ∧ w.value = false ∧
     okAnd (s.copyReg s.core true w.dst) (fun g => g.fifo == some (0, 0)) = true ∧
     okAnd (s.chunkOut s.core w (ftzOn s.core.a) ready0) (fun x => x.1 == [] && x.2.length == 128) = true) ∧
    (∀ xs : List Byte, xs.length = 65409 → 65536 < xs.length + 128) :=
  ⟨by decide +kernel, fun _ h => by omega⟩
theorem witness_bank_switch :
    ∀ m < 4, let s := { withC (fun c => { c with waits := [.bank 3 m] }) with banks := [{ banks0 0 0 with modes := (banks0 0 0).modes.set 3 1#2 }] }
      s.Canonical ∧ s.bankDue s.core = some (3, m) := by unfold State.Canonical; decide +kernel

/-! ### Phases, bundles -/

def launch0 : Launch := ⟨0, 0, 0, 5, 6, false, 0, false, false, 100, 64, 0, 0, 1000, 3#64, [0], 64, none, none, false, none, none, [], 0, 64, none, [], none, []⟩
def launchS (l : Launch) (c : Core) : State := { s0 with pk := { s0.pk with launches := [l], ranks := [rank0 .running], jobs := [job0] }, core := c }
def trapC (cause : Nat) : Core := { c0 with trap := some ⟨cause, 0, 5, 0#64, 90, false⟩ }
/-- CopyRecordsAndPhases: every core at its BUFSWAP; a trap that cancels; the rollback eight beats later; the input chains complete. -/
theorem witness_phases :
    (let l := { launch0 with swaps := [⟨0, 99⟩] }
     (launchS l { c0 with waits := [.phase] }).commitDue = some l) ∧
    (let l := { launch0 with committed := 1 }
     (launchS l (trapC 0x0F)).cancelDue = some (.start l ⟨0x0F, 0, 5, 0#64, 90, false⟩)) ∧
    (let l := { launch0 with committed := 1, cancel := some ⟨0x0F, 92, false⟩ }
     (launchS l (trapC 0x0F)).cancelDue = some (.rollback l ⟨0x0F, 92, false⟩) ∧ (launchS l (trapC 0x0F)).core.issuing = true ∧
     (launchS l c0).core.ofRank l.job l.rank = true) ∧
    (let l := { launch0 with committed := 1, cancel := some ⟨0x0F, 92, true⟩ }
     let s := launchS l { c0 with waits := [.phase] }
     s.cancelDue = some (.go l ⟨0x0F, 92, true⟩) ∧ .phase ∈ s.core.waits ∧ l.timetabled = false) ∧
    { ch0 with curIn := some 64 }.curIn = some 64 := by decide +kernel
/-- Two MOVs of slots 0 and 1 in one bundle; a bundle that does not expand; no beats left. -/
theorem witness_bundles :
    (let x : SOp := ⟨0x16, tS 4#6, opMov (tS 4#6)⟩
     let y : SOp := ⟨0x54, { tV 4#6 with slot := 1 }, opVmov { tV 4#6 with slot := 1 }⟩
     (∀ z ∈ [x, y], regWait s0 z = none ∧ drawsS z.opc z.o = false ∧ drawsC z.opc = false ∧ z.opc ≠ 0xDE) ∧
     dictWait s0 false = false ∧ budgetFault s0.core [x, y] = none ∧ stageCollision s0 = none ∧ collision s0 [] [x, y] = none ∧
     (loopEndFault s0.core [x, y]).isNone = true ∧
     (match x.run ⟨s0, lanes0, 0⟩, y.run ⟨s0, lanes0, 0⟩ with
       | .ok e, .ok f => e.tape == 0 && (windowClash s0.core [] 0 e).isNone && (windowClash s0.core [e] 1 f).isNone
       | _, _ => false) = true ∧ runsFree x s0 = true ∧ runsFree y s0 = true ∧ s0.core.yleft ≠ 0) ∧
    okAnd (expandBundle s0.core.activeDict (BitVec.ofNat _ (wordBundle 0x300000))) (fun is => is.length == 1) = true ∧
    failsWith (expandBundle s0.core.activeDict (BitVec.allOnes _)) (fun _ => true) = true ∧
    (withC (fun c => { c with yleft := 0 })).core.yleft = 0 ∧ s0.core.trap = none := by decide +kernel

/-! ### Host queues and packets -/

/-- Queue 0, enabled, rings of 256 places, under PASID 1. -/
def q0 (fs : List Fetched) : Queue := ⟨0, 0x40008#64, 0x80008#64, 0x8000000000000000#64, 0, 0, 0, 0, true, 0, 0, [], fs, 0, 0⟩
def hostS (x : Queue) (ranks : List Rank) (ls : List Launch) : State :=
  { withP (fun p => { p with booted := true, qifctl := p.qifctl.set 0 0x1001#64, queues := [x], ranks := ranks, jobs := [job0], launches := ls }) with
    mem := tabs }
/-- A packet of 64 bytes, or of 128, under PASID 1, with words 1 and on. -/
def pk (op len : Nat) (ws : List Word64) (host : Option (List Byte)) : Packet :=
  ⟨0, (BitVec.ofNat 64 (op + len * 256 + 2 ^ 44) :: ws ++ List.replicate 16 0#64).take (8 * (len + 1)), host⟩
def sent (p : Packet) (ranks : List Rank) (ls : List Launch) : State := hostS (q0 [⟨7, p⟩]) ranks ls
/-- `Starts` as a Bool. -/
def starts_ (op : Nat) (s : State) (p : Packet) : Bool :=
  decide (p.q < 4096) && pOp p == op && (s.queueOf p.q).fetched == [⟨7, p⟩] && s.mayStart (s.queueOf p.q) && packetOk p &&
    pPasid p == qifPasid (s.qif (ifOf p.q))
theorem starts_of {op : Nat} {s : State} {p : Packet} (h : starts_ op s p = true) : Starts op s p ⟨7, p⟩ [] := by
  simp only [starts_, Bool.and_eq_true, decide_eq_true_eq, beq_iff_eq] at h
  obtain ⟨⟨⟨⟨⟨h1, h2⟩, h3⟩, h4⟩, h5⟩, h6⟩ := h
  exact ⟨h1, h2, rfl, h3, h4, h5, h6⟩
/-- HostQueues: packets that fit, that no ring holds, that cross its end; one PAD; TAIL in and out of the ring. -/
theorem witness_fetch :
    (let p := pk 1 1 [] none
     let x : Queue := { q0 [] with tail := 2 }
     let s := hostS x [] []
     let n := pLen p + 1
     p.words.length = 8 * n ∧ s.ifClosed (ifOf p.q) = false ∧ s.queueOf 0 = x ∧ x.cfg.getLsbD 63 = true ∧ x.head ≠ x.tail ∧
     n ≤ ringSize x.ring ∧ x.head % ringSize x.ring + n ≤ ringSize x.ring ∧ n ≤ (x.tail + 2 ^ 32 - x.head) % 2 ^ 32 ∧
     ringSize 0x40000#64 < n ∧ (255 % ringSize x.ring + n > ringSize x.ring)) ∧
    pOp (pk 0 0 [] none) = 0 ∧
    (let s := hostS (q0 []) [] []
     s.ifClosed 0 = false ∧ s.ifClosed 63 = true ∧ sub32 (256#32).toNat 0 ≤ ringSize (s.queueOf 0).ring ∧
     ringSize (s.queueOf 0).ring < sub32 (257#32).toNat 0 ∧ (s.queueOf 4095).cfg.getLsbD 63 = false ∧ (4095 : Nat) < 4096) ∧
    ringOk 0x40008#64 64 = true ∧ ringOk 0x80008#64 32 = true ∧ ringOk 0#64 64 = false ∧ ringOk 0x1008#64 64 = false ∧
    (let v := 0x1001#64
     let s := withP (fun p => { p with booted := true })
     v.getLsbD 0 = true ∧ v.getLsbD 2 = false ∧ (s.qif 63).getLsbD 0 = false ∧ qifPasid v ≠ 0 ∧ s.pk.booted = true ∧
     ((hostS (q0 []) [] []).qif 0).getLsbD 0 = true ∧ (0x1005#64).getLsbD 2 = true) := by decide +kernel
/-- PacketsAct: a packet of each opcode that starts; one that may not; a malformed one; one under another PASID; no such rank. -/
theorem witness_starts :
    (∀ op ∈ [1, 2, 3, 4, 5, 6, 7, 8, 9, 10, 11, 12, 13, 14, 15], let p := pk op (if op = 1 ∨ op = 13 ∨ op = 14 then 1 else 0) [] none
      starts_ op (sent p [] []) p = true ∧ (sent p [] []).resident (pJob p) (pRank p) = none ∧
      ({ sent p [] [] with pk := { (sent p [] []).pk with booted := false } } : State).mayStart (q0 [⟨7, p⟩]) = false) ∧
    (let p := pk 3 1 [] none; packetOk p = false ∧ (sent p [] []).mayStart (q0 [⟨7, p⟩]) = true) ∧
    (let p : Packet := ⟨0, 0x0000200000000003#64 :: List.replicate 7 0#64, none⟩
     packetOk p = true ∧ pPasid p ≠ 1 ∧ (sent p [] []).mayStart (q0 [⟨7, p⟩]) = true) ∧
    (let p := pk 0 0 [] none; (sent p [] []).mayStart (q0 [⟨7, p⟩]) = true) := by decide +kernel
theorem witness_packet_kinds : PacketOp .launch 1 ∧ PacketOp .leave 15 ∧ RankPacketOp .kill 3 ∧ RankPacketOp .dbgread 10 := by
  refine ⟨.inl ⟨rfl, rfl⟩, ?_, ⟨?_, by decide⟩, ⟨?_, by decide⟩⟩ <;> simp [PacketOp]
/-- A rank in each residency, its launch, and a packet that names it. -/
theorem witness_rank_packets :
    (∀ op ∈ [1, 2, 3, 4, 5, 6, 7, 8, 9, 10], ∀ st ∈ [Residency.running, .idleActive, .waiting, .parked, .held, .cold],
      let p := pk op (if op = 1 then 1 else 0) [] none
      let s := sent p [rank0 st] (if op = 1 then [] else [launch0])
      starts_ op s p = true ∧ s.resident (pJob p) (pRank p) = some (rank0 st) ∧ s.rankOf 0 0 = some (rank0 st) ∧ (rank0 st).moving = false ∧
      (op ≠ 1 → s.launchOf 0 0 = some launch0)) ∧
    { rank0 .parked with moving := true }.moving = true ∧ (rank0 .idleActive).base = some 0 ∧ s0.Canonical ∧ s0.mem.indet = [] ∧
    bankLo 0 + clusterSpan - 1 < bankLo 0 + 1 * clusterSpan ∧ [(0, 1#8), (5, 2#8)].Pairwise (fun (x y : Nat × Byte) => x.1 < y.1) ∧
    s0.pk.keysErased = false := by
  unfold State.Canonical; decide +kernel
theorem witness_resume :
    (let p := pk 5 0 [] none
     let o := opened (sent p [rank0 .parked] []) p ⟨7, p⟩ []
     (o.unpark (rank0 .parked)).isSome = false ∧
     (let s := { o with core := { c0 with run := .idle } }; (s.unpark (rank0 .parked)).isSome = true)) := by decide +kernel
/-- What the cipher answers is not known: each answer has its clause, and one of them holds. -/
theorem witness_cipher (k n c : List Byte) : aesOpen k n c = none ∨ ∃ x, aesOpen k n c = some x := by
  cases aesOpen k n c <;> simp
theorem witness_unwrap (k w : List Byte) : keyUnwrap k w = none ∨ ∃ x, keyUnwrap k w = some x := by cases keyUnwrap k w <;> simp
/-- A copy of the last byte of a page; lengths at their limits; a page of the rank. -/
theorem witness_copies :
    (let p := pk 8 0 [0#64, 0#64, 0#64, 1#64] (some [9#8])
     starts_ 8 (sent p [rank0 .parked] []) p = true ∧ 1 ≤ pWord p 4 ∧ pWord p 4 ≤ 2 ^ 32) ∧
    (let p := pk 9 0 [0#64, 0#64, 0#64, 0x100000001#64] none; ¬(1 ≤ pWord p 4 ∧ pWord p 4 ≤ 2 ^ 32) ∧ p.host = none) ∧
    okAnd (tabS.copyPage (rank0 .parked) 4095) (fun pa => pa == 4095) = true ∧ tabS.Canonical := by unfold State.Canonical; decide +kernel
/-- A session, and none; a report with and without a key of the host, at its shortest. -/
theorem witness_session :
    (let s := withP (fun p => { p with sessions := [(0, [1#8])] })
     s.session 63 = some [1#8] ∧ s.session 64 = none) ∧ s0.session 0 = none ∧ s0.pk.seedErased = false ∧
    pWord (pk 11 0 [0#64, 0#64, 1#64] none) 3 ≠ 0 ∧ pWord (pk 11 0 [] none) 3 = 0 := by decide +kernel
/-- A packet that starts does so with any bytes of the host. -/
theorem starts_with_host {op : Nat} {q : Nat} {ws : List Word64} {rs : List Rank} {ls : List Launch} (h : Option (List Byte))
    (hs : Starts op (sent ⟨q, ws, none⟩ rs ls) ⟨q, ws, none⟩ ⟨7, ⟨q, ws, none⟩⟩ []) (hq : q = 0) :
    Starts op (sent ⟨q, ws, h⟩ rs ls) ⟨q, ws, h⟩ ⟨7, ⟨q, ws, h⟩⟩ [] := by
  subst hq; exact ⟨hs.1, hs.2.1, rfl, rfl, hs.2.2.2.2.1, hs.2.2.2.2.2.1, hs.2.2.2.2.2.2⟩
/-- JOIN: a map of zeros names module 0 for rank 0; roots in HBM and in cold memory. -/
theorem witness_join :
    mapNames [] 0 0 = true ∧ paHbm 0x1000 = true ∧ paCold (2 ^ 41) = true ∧
    (let p := pk 13 1 [0x100000000#64, 0x1000#64, 0#64, 0xFF#64] none
     starts_ 13 (sent p [] []) p = true ∧
     (sent p [] []).jobOf (pJob p) = none ∧ bits (pWord p 4) 0 8 = 0xFF ∧ (sent p [] []).pagePoisoned 0x1000 = false ∧
     bits (pWord p 2) 12 30 * 4096 = 0x1000) := by decide +kernel
theorem witness_join_zeros (m : Nat) : 131072 ≤ (List.replicate (131072 + m) 0#8).length ∧ mapOf (List.replicate (131072 + m) 0#8) = [] := by
  constructor
  · simp
  · have z : ∀ l : List Byte, (∀ b ∈ l, b = 0#8) → leNat l = 0 := by
      intro l
      induction l with
      | nil => intro _; rfl
      | cons b r ih => intro hb; rw [leNat, hb b (by simp), ih (fun x hx => hb x (by simp [hx]))]; rfl
    unfold mapOf
    rw [List.filterMap_eq_nil_iff]
    intro i _
    rw [z _ (fun b hb => List.eq_of_mem_replicate (List.mem_of_mem_drop (List.mem_of_mem_take hb)))]
    rfl
/-- RANKNEW: the job and none, under a session; a table page that the rank may write. LEAVE: ranks alive, dead, none. -/
theorem witness_ranknew :
    let p := pk 14 1 [0#64, 0x4000#64, 0#64, 0x7000#64] none
    let s := { sent p [] [] with pk := { (sent p [] []).pk with sessions := [(0, [1#8])] } }
    let s' : State := { s with pk := { s.pk with jobs := [] } }
    starts_ 14 s p = true ∧ starts_ 14 s' p = true ∧ s.session p.q = some [1#8] ∧ s'.session p.q = some [1#8] ∧ s'.jobOf (pJob p) = none ∧
    s.jobOf (pJob p) = some job0 ∧ pRank p ≤ job0.nrank ∧ s.Canonical ∧
    s.resident (pJob p) (pRank p) = none ∧ s.mapEntry (pJob p) (pRank p) = job0.modnum ∧ bits (pWord p 3) 0 3 < 6 ∧
    (tabS.tablePage { rank0 .parked with rngt0 := 0x7000#64 }) = some 0x7000 := by unfold State.Canonical; decide +kernel
theorem witness_leave :
    (∀ r ∈ (sent (pk 15 0 [] none) [rank0 .dead] []).pk.ranks, r.job = 0 → r.st = .dead) ∧
    (∃ r ∈ (sent (pk 15 0 [] none) [rank0 .held] []).pk.ranks, r.job = 0 ∧ r.st ≠ .dead) := by
  refine ⟨by decide +kernel, rank0 .held, by decide +kernel⟩
/-- SecurityAndServices: a request asked of the host, an answer that is accepted (function 3, 0 or 1) and one refused; a function in host
mode with room for its record. -/
theorem witness_services :
    (∀ w ∈ [0, 1, 2], let p := pk 12 0 [3#64, 5#64, BitVec.ofNat 64 w] none
     let s := { sent p [] [] with pk := { (sent p [] []).pk with svcs := [⟨3, 5#64, 0#64⟩] } }
     starts_ 12 s p = true ∧ (∃ r ∈ s.pk.svcs, r.f = pWord p 1 ∧ r.object = BitVec.ofNat 64 (pWord p 2)) ∧
     ((opened s p ⟨7, p⟩ []).applyDecision p (pWord p 1) 5#64 (pWord p 3)).2 = (if w = 2 then 0x27 else 0)) ∧
    (let p := pk 12 0 [3#64, 5#64] none; ∀ r ∈ (sent p [] []).pk.svcs, ¬(r.f = pWord p 1)) ∧
    (let s := { hostS (q0 []) [] [] with pk := { (hostS (q0 []) [] []).pk with funcsplit := 63 } }
     let x := s.queueOf (64 * bits s.pk.fsreq.toNat 8 8)
     (∀ f < 6, s.asksHost f = true) ∧ s.pk.svcs = [] ∧ s.pk.svcWait = [] ∧ s.ifClosed 0 = false ∧ x.cfg.getLsbD 63 = true ∧ x.halt ≠ 6 ∧ x.room = true ∧
     s.pk.booted = true) := by decide +kernel

/-! ### Launches, steps, contexts -/

/-- A header at 0x8000 for one core, its code at 0x9000; its entry reads as zeros. -/
def hdrM : Memory := ⟨tabs.cells ++ [(0x8000, 2#8), (0x8002, 1#8), (0x8004, 1#8), (0x8009, 0x90#8), (0x8010, 1#8)], []⟩
def launchP : Packet := pk 1 1 [0#64, 0x8000#64, 9#64] none
def prep (m : Memory) : Except Nat Prepared :=
  let s := { opened (sent launchP [rank0 .parked] []) launchP ⟨7, launchP⟩ [] with mem := m, core := core0 0 0 }
  s.prepare (rank0 .parked) (some 0) (pWord launchP 2) (pWord launchP 3) (pWord launchP 4) ((List.range 8).map (fun i => pWord launchP (8 + i)))
/-- LaunchesEnter: a launch prepared, one refused for its header; a free seat; an entry beat to come and one that has come. -/
theorem witness_launch :
    starts_ 1 (sent launchP [rank0 .parked] []) launchP = true ∧ starts_ 1 (sent launchP [rank0 .idleActive] []) launchP = true ∧
    okAnd (prep hdrM) (fun q => q.cores.length == 1 && q.colls.length == 0 && q.t.fr && !q.t.setb) = true ∧
    failsWith (prep tabs) (fun e => e == 0x20) = true := by decide +kernel
theorem witness_armed (q : Prepared) (h : q.colls = []) :
    let s := { sent launchP [rank0 .parked] [] with core := core0 0 0 }
    let l := { launch0 with cores := [c0] }
    s.rankOf 0 0 = some (rank0 .parked) ∧ s.launchOf 0 0 = none ∧ l.waiting = none ∧ l.chosen = none ∧ q.colls = [] ∧ s.pk.colls = [] ∧
    s.seatTaken 0 1 = false ∧ s.idleOn 0 1 0 0 = [] ∧ l.cores ≠ [] ∧ l.setb = none :=
  ⟨by decide +kernel, by decide +kernel, rfl, rfl, h, rfl, by decide +kernel, by decide +kernel, List.cons_ne_nil _ _, rfl⟩
theorem witness_entry :
    (∀ e ∈ [100, 101], ∀ gm : Bool, (withC (fun c => { c with run := .armed e, gm := gm })).core.run = .armed e) ∧ (100 : Nat) ≤ s0.beat ∧ s0.beat < 101 ∧
    (∀ throt treq : Nat, (treq ≠ 0 ∨ (treq = 0 ∧ throt ≠ 1) ∨ (treq = 0 ∧ throt = 1))) := by
  refine ⟨by decide +kernel, by decide +kernel, by decide +kernel, fun _ _ => by omega⟩
/-- StepsAndInvalidations: one of a pinned page, one of its neighbour; a step whose core halted, and one that runs; an idle-active rank on
the chosen context's clusters. -/
def inval0 (va len : Nat) : Inval := ⟨0, 0, va, len, 0, 0, 7, false⟩
theorem witness_steps :
    (let p := pk 2 0 [0#64, 0#64, 4096#64] none; starts_ 2 (sent p [rank0 .running] []) p = true) ∧
    (let s := fun (x : Inval) => { s0 with pk := { s0.pk with invals := [x], launches := [{ launch0 with timetabled := true, pinned := [(0, 4096)] }] } }
     (s (inval0 4095 1)).invalReady (inval0 4095 1) = false ∧ (s (inval0 4096 1)).invalReady (inval0 4096 1) = true ∧
     (s (inval0 4096 1)).pk.invals[0]? = some (inval0 4096 1)) ∧
    (launchS launch0 { c0 with run := .halted }).stepOver launch0 = true ∧ (launchS launch0 c0).stepOver launch0 = false ∧
    (launchS launch0 c0).launchOf 0 0 = some launch0 ∧ (launchS launch0 c0).rankOf 0 0 = some (rank0 .running) ∧ launch0.killed = none ∧
    launch0.reported = false := by decide +kernel
theorem witness_idle_park :
    let l := { launch0 with rank := 1, chosen := some 90 }
    let s := { s0 with pk := { s0.pk with launches := [l], ranks := [rank0 .idleActive, { rank0 .waiting with rank := 1 }] } }
    s.rankOf 0 0 = some (rank0 .idleActive) ∧ l ∈ s.pk.launches ∧ l.chosen ≠ none ∧ ¬(l.job = 0 ∧ l.rank = 0) ∧ s.seatOf 0 1 = some (0, 0) ∧
    (rank0 .idleActive).meets 0 (fpSize 0) = true ∧ (∀ x ∈ [launch0], x.chosen = none) := by
  refine ⟨by decide +kernel, List.mem_singleton.2 rfl, by simp, by decide, by decide +kernel, by decide +kernel, by decide +kernel⟩
/-- ContextsAndTapesMove: a core that leaves, drained or not, its channels quiet; one that may not yet; a withheld store. -/
def leaveC (f : Core → Core) : State := launchS launch0 (f { c0 with switchOut := true })
theorem witness_save :
    ((leaveC id).core.drain = none ∧ (leaveC id).leaveReady (leaveC id).core = true) ∧ s0.leaveReady s0.core = false ∧
    (let s := leaveC (fun c => { c with drain := some (0#64, 0#64) })
     s.core.drain ≠ none ∧ s.leaveReady s.core = true ∧ s.core.drainHeld = false ∧ s.core.guarded = false) ∧
    (let s := leaveC (fun c => { c with drain := some (0#64, 0#64), gm := true })
     s.core.drain ≠ none ∧ s.leaveReady s.core = true ∧ s.core.drainHeld = false ∧ s.core.guarded = true) ∧
    (let s := leaveC (fun c => { c with drain := some (0#64, 0#64), gm := true, held := [held0] })
     s.leaveReady s.core = true ∧ s.core.drainHeld = true) ∧ c0.run = .running ∧
    (let s := launchS launch0 { c0 with run := .saved 0 0 0#64 }; s.allSaved 0 0 = true ∧ (launchS launch0 c0).allSaved 0 0 = false) := by
  decide +kernel
/-- A saved context of one core, chosen to start; its table at page 0. -/
def savedC : Core := { c0 with run := .saved 0 0 0#64 }
def restoreS : State :=
  let r := { rank0 .waiting with image := { Image.empty with cores := [savedC] } }
  { tabS with core := core0 0 0, pk := { tabS.pk with launches := [{ launch0 with chosen := some 90 }], ranks := [r] } }
theorem witness_restore :
    s0.nextStart = none ∧ restoreS.nextStart = some { launch0 with chosen := some 90 } ∧ launch0.cores = [] ∧
    okAnd (restoreS.readTable { savedC.rebase 0 with acq := restoreS.beat, readyAt := max savedC.readyAt restoreS.beat } savedC.a.rngt.toNat)
      (fun _ => true) = true ∧ savedC.run = .saved 0 0 0#64 := by decide +kernel
/-- Traps that go to firmware: of a core without a launch; of a footprint before it stops, before its cores are still, and after. -/
theorem witness_firmware :
    (let s := { s0 with core := trapC 0x12 }; s.core.firmwareTrap = some ⟨0x12, 0, 5, 0#64, 90, false⟩ ∧ s.launchOf 0 0 = none ∧ s.quiesced s.core = true) ∧
    (∀ st ∈ [none, some 92, some 93], let l := { launch0 with stopAt := st }
     let s := launchS l (trapC 0x12)
     s.core.firmwareTrap = some ⟨0x12, 0, 5, 0#64, 90, false⟩ ∧ s.launchOf 0 0 = some l ∧ l.cancel = none ∧ l.committed = 0 ∧ s.core.owesHeld = false ∧
     s.trapReady l = (st == some 92)) ∧
    (let l := { launch0 with stopAt := some 92 }
     let s := launchS l { c0 with trap := some ⟨0x12, 2, 5, 0#64, 90, false⟩, gm := true, held := [held0] }
     s.core.firmwareTrap.isSome = true ∧ s.core.owesHeld = true ∧ s.quiesced s.core = true ∧ l.cancel = none ∧ l.committed = 0) := by decide +kernel
/-- ContextsAndTapesMove: a tape of one byte too many for a record, or too few; the pages of the bytes that move. -/
def tapeS (xs : List Byte) (home : Nat) : State :=
  let c := { c0 with tlb := [page0], a := { c0.a with tape := xs, tapep := BitVec.ofNat 64 xs.length, tapeHome := home } }
  { tabS with core := c, banks := [{ banks0 0 0 with modes := (banks0 0 0).modes.set 3 3#2 }] }
/-- Where the tape stands and what it holds do not matter to its pages: they are those of its first 4,096 places. -/
theorem witness_spill (xs : List Byte) (h : xs.length = 65233) :
    65536 < xs.length + 304 ∧ (tapeS xs 0).core.a.tape = xs ∧ (tapeS xs 0).core.a.tapep.toNat - xs.length = 0 ∧ ¬(xs.drop 1).length + 304 > 65536 := by
  refine ⟨by omega, rfl, ?_, by simp [h]⟩
  show (BitVec.ofNat 64 xs.length).toNat - xs.length = 0
  rw [h]; rfl
theorem witness_spill_pages :
    (tapeS [] 0).tapeBank (tapeS [] 0).core = true ∧ s0.tapeBank s0.core = false ∧
    okAnd ((tapeS [] 0).tapeLocs (tapeS [] 0).core true 0 4096) (fun ls => ls.length == 4096) = true ∧
    (tapeS [] 4096).core.a.tapeHome = 4096 ∧ (tapeS [] 4096).tapeOut (tapeS [] 4096).core = false ∧
    (let s := { tapeS [] 4096 with perfs := [{ held0 with slot := 6, ws := [⟨.pa 0, 0xFF#8, 7#8⟩] }] }; s.tapeOut s.core = true) := by decide +kernel
theorem witness_refill :
    (∀ b ∈ [none, some 100, some 101], let s := { tabS with core := { c0 with tlb := [page0], tapeFill := b, a := { c0.a with
       adjmode := 2#2, tape := List.replicate 287 1#8, tapep := 288#64 } } }
     s.core.wantsRefill = true ∧ s.core.tapeFill = b ∧
     okAnd (s.withPages s.core (fun c => match s.tapeLocs c false 0 1 with | .ok _ => .ok [] | .error f => .error f) 4).2 (fun _ => true) = true ∧
     okAnd (s.tapeLocs s.core false 0 1) (fun ls => ls.length == 1 && (ls.filter Loc.away).isEmpty) = true) ∧
    s0.core.wantsRefill = false := by decide +kernel

/-! ### Security, power, BAR0 -/

def image0 : BootImage := ⟨true, true, true, true, 1, 1, false⟩
/-- SecurityAndServices: an image that boots and one for each reason; mismatches; a poisoned page that one 4 KiB leaf maps, or none. -/
theorem witness_boot :
    s0.pk.booted = false ∧ bootReason image0 = 0 ∧ bootReason { image0 with rsaOk := false } = 1 ∧ bootReason { image0 with slhOk := false } = 2 ∧
    bootReason { image0 with fsvn := 2 } = 3 ∧ bootReason { image0 with readable := false } = 4 ∧ bootReason { image0 with fuses := false } = 5 ∧
    (withP (fun p => { p with booted := true })).pk.booted = true ∧ s0.pk.launches = [] ∧ s0.pk.mismatch = none ∧
    (withP (fun p => { p with mismatch := some 90 })).pk.mismatch = some 90 ∧ s0.beat ≤ 90 + 2 ^ 30 ∧
    (90 + 2 ^ 30 < ({ s0 with beat := 91 + 2 ^ 30 } : State).beat) := by decide +kernel
theorem witness_poison :
    (let s : State := { s0 with poison := [2 ^ 30 - 1, 5] }
     (2 ^ 30 - 1) ∈ s.poison ∧ s.asksHost 2 = false ∧ s.Canonical ∧ 4 ∉ s.poison ∧ (s.mappers 5).any (fun x => bits x.e 5 3 != 0) = false) ∧
    (withP (fun p => { p with funcsplit := 4 })).asksHost 2 = true ∧
    (∀ l ∈ [launch0], l.timetabled = false) ∧ (launchS launch0 c0).core.ofRank 0 0 = true := by unfold State.Canonical; decide +kernel
theorem witness_bar0 : (∀ off ∈ [0, 8, 0x18, 0xFFF8, 0x10200, 0x1FFF8, 0x20000, 0x2FFF8, 0x30000, 0x3FFF8, 0x60000, 0x7FFF8,
    0x80000, 0x8FFF8, 0x90000, 0xFFFF8], off % 8 = 0 ∧ off < 2 ^ 20) := by decide

/-! ### The fabric -/

def flitK (kind : Nat) (ws : List Nat) : Flit :=
  ⟨0, BitVec.ofNat 64 (kind * 2 ^ 60), (ws.flatMap (leBytes 8) ++ List.replicate 56 0#8).take 56, 8, 0, 0, none, 0⟩
/-- `Arrives` as a Bool. -/
def arrives_ (kind : Nat) (s : State) (f : Flit) : Bool := flitOk f && fKind f == kind && (s.portOf f.port).alive && s.pk.booted
theorem arrives_of {kind : Nat} {s : State} {f : Flit} (h : arrives_ kind s f = true) : Arrives kind s f := by
  simp only [arrives_, Bool.and_eq_true, beq_iff_eq] at h; exact ⟨h.1.1.1, h.1.1.2, h.1.2, h.2⟩
def deadS (n : Nat) : State := withP (fun p => { p with ports := [⟨n, false, 0, 0, 0, 0, none⟩] })
/-- A module that has booted. -/
def bootS : State := withP (fun p => { p with booted := true })
/-- FlitTraffic: flits of each kind over a port that lives, an idle one, one of a reserved kind; no port, another kind, a dead port, a module
that has not booted. -/
theorem witness_flits :
    (∀ kind ∈ [1, 2, 3, 4, 5, 6, 7, 8, 9], arrives_ kind bootS (flitK kind []) = true ∧ ((deadS 0).portOf (flitK kind []).port).alive = false) ∧
    flitOk { flitK 1 [] with port := 144 } = false ∧ fKind (flitK 10 []) = 10 ∧ fKind (flitK 15 []) = 15 ∧ flitOk (flitK 10 []) = true ∧
    fKind (flitK 0 []) = 0 ∧ flitOk (flitK 0 []) = true ∧ fKind (flitK 9 []) ≠ 1 ∧ (bootS.portOf 0).alive = true ∧ s0.pk.booted = false := by
  decide +kernel
theorem witness_flit_kinds : FlitKind .writeRequestFlit 1 ∧ FlitKind .migrationFlit 9 := by simp [FlitKind]
def raw (kind : FlatKind) (off count : Nat) (data : List Byte) : FlatReq := ⟨kind, 0, 0, 0, true, 0, physRank, off, 5, 0, 1#32, 0xA0, count, data⟩
theorem witness_requests :
    (let f := raw .write 0x100 0 [1#8, 2#8]
     f.opc = 0xA0 ∧ f.rank = physRank ∧ s0.Canonical ∧ f.data.length = 2 ∧
     ∀ i < 2, (paHbm (f.off + i) = true ∨ paCold (f.off + i) = true) ∧ s0.pagePoisoned (f.off + i) = false) ∧
    (let f := raw .read 0xC000000000 4 []; f.off ≤ f.off + 3 ∧ f.off + 3 < f.off + f.count ∧ paHbm (f.off + 3) = false ∧ paCold (f.off + 3) = false) ∧
    (let f := flitK 3 [0x100]
     arrives_ 3 bootS f = true ∧ f.req = none ∧ (fWord f 0).testBit 55 = false ∧
     (∀ i < 8, paHbm (bits (fWord f 0) 0 42 + i) = true ∧ bootS.homePoisoned (bits (fWord f 0) 0 42 + i) = false)) ∧
    (let b := raw .write 0x100 0 [1#8, 2#8]
     let f := { flitK 1 [0x100] with count := 2, req := some b }
     flitOk f = true ∧ fWord f 0 = flatAddr b ∧ f.count = (wireOf b).length ∧ b.kind = .write ∧ s0.pk.parts = [] ∧
     (s0.assemble f b).2.isSome = true ∧ (s0.assemble { f with count := 1 } b).2 = none) ∧
    (let s := { s0 with poison := [0] }; s.pagePoisoned 0x100 = true ∧ s.homePoisoned 0x100 = true) := by
  unfold State.Canonical; decide +kernel
def rem0 (port : Nat) (k : FlatKind) (want : Nat) : Remote := ⟨0, port, 0, 0, 9, none, 0, want, [], 90, false, some 1, raw k 0x100 want []⟩
theorem witness_reply_flits :
    (let s := fun (r : Remote) => withP (fun p => { p with remotes := [r] })
     (s (rem0 0 .read 48)).pk.remotes.find? (fun x => x.ctx == fCtx (flitK 4 []) && x.port != 0xFFFF && !x.held) = some (rem0 0 .read 48) ∧
     (s (rem0 0 .write 0)).pk.remotes.find? (fun x => x.ctx == fCtx (flitK 4 []) && x.port != 0xFFFF && !x.held) = some (rem0 0 .write 0) ∧
     s0.pk.remotes.find? (fun x => x.ctx == fCtx (flitK 4 []) && x.port != 0xFFFF && !x.held) = none ∧
     bits (fWord (flitK 4 [2]) 0) 0 8 ≠ 0 ∧ bits (fWord (flitK 4 [0]) 0) 32 16 = 0 ∧
     bits (fWord (flitK 4 [48 * 2 ^ 32]) 0) 32 16 = 48 ∧ bits (fWord (flitK 4 [48 * 2 ^ 32]) 0) 16 16 = 0 ∧
     bits (fWord (flitK 4 [48 * 2 ^ 32 + 2]) 0) 0 8 = 2 ∧ (rem0 0 .read 48).data = [] ∧
     (let rm := rem0 0xFFFF .read 4
      (s rm).pk.remotes.find? (fun x => x.port == 0xFFFF && x.body == rm.body && !x.held) = some rm ∧ (s rm).behind rm = false ∧
      (s rm).atTarget rm = false ∧ ((s rm).serveFlat 0xFFFF rm.body).2.isSome = true ∧
      { s rm with pk := { (s rm).pk with heldReqs := [(0xFFFF, { rm.body with req := rm.ctx })] } }.atTarget rm = true) ∧
     (let r1 := rem0 0xFFFF .read 4
      let r2 := { r1 with ctx := 1, body := raw .read 0x102 4 [] }
      let u := withP (fun p => { p with remotes := [r1, r2] })
      u.pk.remotes.find? (fun x => x.port == 0xFFFF && x.body == r2.body && !x.held) = some r2 ∧ u.behind r2 = true)) := by decide +kernel
/-- The rank's first gigabyte in module 1: stage 2 places its second gigabyte of job addresses there. -/
def farTabS : State := { tabS with pk := { tabS.pk with booted := true }, mem := ⟨[(0x1000, 1#8), (0x1001, 0x20#8), (0x2000, 1#8), (0x2001, 0x30#8), (0x3000, 143#8), (0x3008, 143#8),
  (0x300B, 0x40#8), (0x300E, 0x10#8), (0x4000, 1#8), (0x4001, 0x50#8), (0x5000, 1#8), (0x5001, 0x60#8), (0x6000, 159#8), (0x6001, 2#8),
  (0x6003, 0x40#8)], []⟩ }
/-- RepliesAndWaits, TrapEntry: a Tombola table in another module, also one that a rollback loads. -/
theorem witness_far_table :
    (let s := { farTabS with core := { c0 with tombLoad := some 100 } }; (s.tableAway s.core s.core.a.rngt.toNat).length = 4096 ∧ s.core.tombLoad = some 100) ∧
    (let r : TrapReq := ⟨0x08, 0, 5, 0#64, 96, false⟩
     let s := { farTabS with core := { c0 with gm := true, hvec := 99, trap := some r, shadow := { c0.shadow with rngt := 0x1000#64 } } }
     s.entryDue s.core r = true ∧ s.core.handlerRoute r.cause = true ∧ (s.rollbackAway s.core r).length = 4096) := by decide +kernel
/-- RepliesSettle: plain bytes and a load whose page lies in a third module, up to the last byte of the page; a request that the module serves
alone, and one that it refuses. -/
theorem witness_third_modules :
    (∀ a ∈ [0, 2 ^ 30 - 4], let r := { raw .read a 4 [] with rank := 0 }
     farTabS.thirdReads r = (List.range 4).map (fun i => .far 1 (2 ^ 30 + a + i)) ∧ (farTabS.serveWith r []).2.1.st ≠ 1 ∧
     farTabS.pk.remotes.find? (fun x => x.port == 0xFFFF && x.body == r && !x.held) = none) ∧
    farTabS.thirdReads { raw .read 0x10 4 [] with rank := 0, opc := 0xB0, ty := 1 } ≠ [] ∧
    (let x := s0.serveWith (raw .read 0x100 4 []) []
     x.2.1.st = 0 ∧ x.2.2 = [] ∧ s0.thirdReads (raw .read 0x100 4 []) = [] ∧ s0.thirdAtomics (raw .read 0x100 4 []) = []) ∧
    (s0.serveWith (raw .read 0xC000000000 4 []) []).2.1.st = 1 := by decide +kernel
def flatW : FlatReq := { raw .write 0 0 [1#8] with rank := 0 }
theorem witness_flat_targets :
    flatW.rank < physRank ∧ (withP (fun p => { p with ranks := [{ rank0 .parked with moving := true }] })).rankOf 0 0 = some { rank0 .parked with moving := true } ∧
    (withP (fun p => { p with ranks := [rank0 .dead] })).rankOf 0 0 = some (rank0 .dead) ∧
    (∀ a ∈ [1, 127], flatW.kind ≠ .read ∧ flatW.tagged = true ∧ lateTag a flatW.tag = true) ∧ lateTag 0 flatW.tag = false ∧ lateTag 128 flatW.tag = false ∧
    s0.rankOf 0 0 = none ∧
    (∀ e : Bool, let s := withP (fun p => { p with tombs := [⟨0, 0, 3, e⟩] })
     s.pk.tombs.find? (fun t => t.job == flatW.job && t.rank == flatW.rank && !t.ended) = (if e then none else some ⟨0, 0, 3, false⟩) ∧
     s.pk.tombs.any (fun t => t.job == flatW.job && t.rank == flatW.rank && t.ended) = e ∧ s.pk.remotes = [] ∧
     (withP (fun p => { p with remotes := [{ rem0 0xFFFF .write 0 with body := flatW }], tombs := s.pk.tombs })).pk.remotes.map (fun x => (x.port, x.body)) =
       [(0xFFFF, flatW)]) ∧
    s0.pk.tombs.any (fun t => t.job == flatW.job && t.rank == flatW.rank && t.ended) = false := by decide +kernel
/-- TargetsAnswer: whichever routes firmware chose, they are live, or dead. -/
def noLinks : State := withP (fun p => { p with ports := (List.range 144).map (fun n => ⟨n, false, 0, 0, 0, 0, none⟩) })
theorem witness_routes (m k : Nat) : (s0.portOf (s0.routeOf m k)).alive = true ∧ (noLinks.portOf (noLinks.routeOf m k)).alive = false := by
  refine ⟨rfl, ?_⟩
  have h : ∀ p : Fin 144, (noLinks.portOf p).alive = false := by decide +kernel
  have d : ∀ p ∈ routes m, (noLinks.portOf p).alive = false := by
    intro p hp
    obtain ⟨q, -, rfl⟩ := List.mem_map.1 hp
    exact h ⟨q % 144, Nat.mod_lt _ (by decide)⟩
  have e : (routes m).filter (fun p => (noLinks.portOf p).alive) = [] := List.filter_eq_nil_iff.2 (fun p hp => by simp [d p hp])
  unfold State.routeOf
  rw [e]
  exact d _ (by simp [routes])
def portS (p : Port) (ref : Bool) : State := { withP (fun k => { k with ports := [p], beatRef := ref, booted := true }) with beat := 5000 }
def port0 : Port := ⟨0, true, 0, 0, 0, 16, none⟩
theorem witness_links :
    (portS { port0 with n := 143 } false).portOf 143 = { port0 with n := 143 } ∧ { port0 with retries := 14 }.retries + 1 < 16 ∧ 16 ≤ { port0 with retries := 15 }.retries + 1 ∧
    (portS { port0 with last := 904 } false).beat = 904 + 4096 ∧ (portS { port0 with last := 905 } false).beat < 905 + 4096 ∧
    (portS port0 false).pk.colls = [] ∧ (portS port0 false).pk.remotes = [] ∧
    (∀ x ∈ [4968, 5000], arrives_ 8 (portS port0 true) (flitK 8 [x]) = true ∧
      fWord (flitK 8 [x]) 0 + port0.flight ≤ (portS port0 true).beat + 16 ∧ (portS port0 true).beat ≤ fWord (flitK 8 [x]) 0 + port0.flight + 16) ∧
    (fWord (flitK 8 [4967]) 0 + port0.flight + 16 < (portS port0 true).beat) ∧ ((portS port0 true).beat + 16 < fWord (flitK 8 [5001]) 0 + port0.flight) := by
  decide +kernel

/-! ### Collectives -/

def send0 : Send := ⟨100, 0, false, 0, 0x100, 4, 0, 0, 0, false, none⟩
/-- A chunk of 128 bytes at 0x200, copied, or summed of two operands with staging at 0x400. -/
def chunk0 (opf : Nat) : Chunk := ⟨0x200, 128, if opf = 0 then 1 else 2, false, opf, if opf = 0 then 0 else 0x400, 0, none, none⟩
def coll0 (c : Chunk) : Coll := ⟨0, 0, 4, 0, 0, [0], spadBase, [send0], [c], 90, 200, 0, 0, none, none, [], 0, [], 1, 2, [0], [], [], none⟩
def collS (k : Coll) : State := { tabS with pk := { tabS.pk with colls := [k], booted := true } }
/-- The places of `n` bytes from an address on. -/
def places (k : Coll) (a n : Nat) : List (Option Spot) := (collS k).collSpots k a n true
theorem witness_transfers :
    (let f := flitK 5 [4]
     arrives_ 5 (collS (coll0 (chunk0 0))) f = true ∧ (noted (collS (coll0 (chunk0 0))) f).collFor f.job f.rank (bits (fWord f 0) 0 16) = some 0 ∧
     (noted bootS f).collFor f.job f.rank (bits (fWord f 0) 0 16) = none ∧ arrives_ 5 bootS f = true ∧ bootS.movedTarget 0 0 = false ∧
     (let s : State := { bootS with pk := { bootS.pk with colls := [{ coll0 (chunk0 0) with rank := 1 }], tombs := [⟨0, 0, 3, false⟩] } }
      s.movedTarget 0 0 = true)) ∧
    (let k := coll0 (chunk0 0)
     (collS k).pk.colls[0]? = some k ∧ k.failed = none ∧ (collS k).rankOf 0 0 = some (rank0 .running) ∧ k.chunks[0]? = some (chunk0 0) ∧
     255 % 256 ≠ (rank0 .running).atag ∧ 0 % 256 = (rank0 .running).atag ∧ (chunk0 0).len < 125 + 4 ∧ 124 + 4 ≤ (chunk0 0).len ∧
     (chunk0 0).count + 4 ≤ (chunk0 0).expect ∧ { chunk0 0 with count := 124 }.count + 4 = (chunk0 0).expect) ∧
    (∀ x ∈ [(chunk0 0, 0x200), (chunk0 1, 0x480)], places (coll0 x.1) x.2 2 = [some (.loc (.pa x.2)), some (.loc (.pa (x.2 + 1)))] ∧
      ∀ p ∈ [x.2, x.2 + 1], (Spot.loc (.pa p)).pageBad (collS (coll0 x.1)) = false) ∧
    places (coll0 (chunk0 0)) 0x40000000 1 = [none] := by decide +kernel
theorem witness_sends :
    (let k := coll0 (chunk0 0)
     (collS k).sendReady k send0 = true ∧ k.pshift = [] ∧ k.sends[0]? = some send0 ∧ (collS k).sendReady k { send0 with ofs := 101 } = false ∧
     k.armed ≤ (collS k).beat ∧ send0.sent = false ∧ send0.trig = false ∧ send0.after = 0 ∧ k.kind = 0 ∧
     ((collS k).collRead k 0x100 4).isSome = true ∧ ((collS k).collRead k 0x40000000 4).isSome = false ∧ { k with kind := 1 }.kind = 1 ∧
     { k with pshift := [(90, 64)] }.pshift ≠ [] ∧ k.missing ((collS k).collSpots k 0x100 4 false) = [] ∧ (collS k).collWaits k = false ∧
     k.missing (farTabS.collSpots k 0x100 4 false) = (List.range 4).map (fun i => .far 1 (2 ^ 30 + 0x100 + i)) ∧ farTabS.collWaits k = false ∧
     { farTabS with pk := { farTabS.pk with remotes := [{ rem0 0 .read 4 with clus := collClus, core := 0, id := 4 }] } }.collWaits k = true) ∧
    (∀ d ∈ [none, some 99, some 100], let k := coll0 { chunk0 0 with done := d }
     k.chunks[1 - 1]? = some { chunk0 0 with done := d } ∧ (collS k).sendReady k { send0 with after := 1 } = (d == some 99)) ∧
    (∀ b ∈ [none, some 100, some 101], (collS (coll0 (chunk0 0))).sendReady (coll0 (chunk0 0)) { send0 with trig := true, fire := b } = (b == some 100)) := by
  decide +kernel
theorem witness_completions :
    (let k := coll0 { chunk0 0 with done := some 99 }
     k.failed = none ∧ k.flagged = none ∧ k.armed ≤ (collS k).beat ∧ (collS k).collWaits k = false ∧ k.bad = none ∧ { k with bad := some 8 }.bad = some 8 ∧
     ∀ c ∈ k.chunks, c.done ≠ none) ∧
    (∃ c ∈ (coll0 (chunk0 0)).chunks, c.done = none) ∧ { coll0 (chunk0 0) with tmo := 100 }.tmo ≤ s0.beat ∧ s0.beat < { coll0 (chunk0 0) with tmo := 101 }.tmo ∧
    { coll0 (chunk0 0) with failed := some 2 }.failed ≠ none ∧ { coll0 (chunk0 0) with flagged := some 0#64 }.flagged ≠ none ∧
    (let c := { chunk0 1 with full := some 99, len := 4 }
     c.full ≠ none ∧ c.done = none ∧ c.opf ≠ 0 ∧ c.len % 4 = 0 ∧ (collS (coll0 c)).collWaits (coll0 c) = false ∧
     (coll0 c).missing ((collS (coll0 c)).collSpots (coll0 c) c.addr c.len true ++ (collS (coll0 c)).collSpots (coll0 c) c.stg (c.nop * c.len) true) = [] ∧
     places (coll0 c) c.addr c.len = ((List.range 4).map (fun j => (.loc (.pa (0x200 + j)) : Spot))).map some ∧
     (coll0 c).missing (farTabS.collSpots (coll0 c) c.addr c.len true) ≠ []) ∧
    (126 < 128 ∧ (coll0 (chunk0 0)).cid < 2 ^ 16 ∧ (coll0 (chunk0 0)).late < 2 ^ 32) ∧ arrives_ 6 bootS (flitK 6 []) = true ∧
    arrives_ 7 bootS (flitK 7 []) = true := by
  refine ⟨by decide +kernel, ⟨_, List.mem_singleton.2 rfl, rfl⟩, by decide, by decide, by decide, by decide, by decide +kernel, by decide, by decide +kernel,
    by decide +kernel⟩
theorem witness_shifts :
    (let k := coll0 (chunk0 0)
     (collS k).pk.colls = [k] ∧ k.me = 0 ∧ k.me ≠ 1 ∧ (1, 0) ∉ k.seen ∧ (1, 0) ∈ { k with seen := [(1, 0)] }.seen ∧
     0 % 256 = (collS k).tagOf k.job k.rank k.tag ∧ 1 % 256 ≠ (collS k).tagOf k.job k.rank k.tag) ∧
    36 + 64 ≤ s0.beat ∧ s0.beat < 37 + 64 ∧ { coll0 (chunk0 0) with pshift := [(36, 64)] }.pshift = [(36, 64)] := by decide +kernel

/-! ### The map, migration, the step -/

theorem witness_map :
    (let s := { hostS (q0 []) [] [] with pk := { (hostS (q0 []) [] []).pk with remotes := [{ rem0 1 .read 4 with far := none, body := flatW }] } }
     s.jobOf 0 = some job0 ∧ s.accessesTo 0 0 = true) ∧
    (let s := { hostS (q0 []) [] [] with pk := { (hostS (q0 []) [] []).pk with remotes := [rem0 1 .read 4] } }
     s.jobOf 0 = some job0 ∧ s.accessesTo 0 0 = false ∧ ∀ x ∈ s.pk.remotes, x.held = false) := by decide +kernel
theorem witness_migration :
    (∀ m : Bool, let r := { rank0 .parked with moving := m }
     let s := hostS (q0 []) [r] []
     s.jobOf 0 = some job0 ∧ s.rankOf 0 0 = some r ∧ r.st = .parked ∧ (∀ l ∈ s.pk.launches, ¬(l.job = 0 ∧ l.rank = 0)) ∧ r.moving = m) ∧
    job0.modnum = 0 ∧ 4095 ≠ job0.modnum ∧ s0.rankOf 0 0 = none ∧
    (let f := flitK 9 [0, 2 ^ 48]; arrives_ 9 bootS f = true ∧ bits (fWord f 1) 48 1 = 1 ∧ bits (fWord (flitK 9 []) 1) 48 1 = 0) ∧
    (withP (fun p => { p with keysErased := true })).pk.keysErased = true := by decide +kernel
/-- StepRunsDecoded: an input that is due and one that acts on nothing; an event; a core that issues one operation, a bundle, none, and one
whose fetch fails. -/
def word0 : State := State.reset.withFetchWord 24 0b00_000001_000010_0000001001
theorem witness_step :
    word0.nextInput = none ∧ word0.nextEvent = none ∧ word0.hadTurn word0.core = false ∧ word0.ready.mayIssue = true ∧
    okAnd (word0.ready.fetch word0.ready.core) (fun w => okAnd (expandBundle word0.ready.core.activeDict w) (fun is => is.length == 1)) = true ∧
    (({ State.reset with inputs := [(0, .glitchSensor)] } : State).nextInput.map (fun x => x.1.isSome)) = some true ∧
    (landS (fly [] 0#8 none) 0#64).nextInput = none ∧ (landS (fly [] 0#8 none) 0#64).nextEvent.isSome = true ∧
    State.reset.nextInput = none ∧ State.reset.nextEvent = none ∧ State.reset.ready.mayIssue = false ∧
    word0.ready.fetchAway word0.ready.core = [] ∧
    (∀ x ∈ [(none, false), (none, true), (some 2, false)], let c := { c0 with tlb := [{ page0 with module := 1 }], fetchBad := x.1, fetchAsk := x.2 }
     let s := { withP (fun p => { p with jobs := [job0] }) with core := c }
     s.nextInput = none ∧ s.nextEvent = none ∧ s.hadTurn s.core = false ∧ s.ready.mayIssue = true ∧
     (s.ready.fetchAway s.ready.core).length = 24 ∧ s.ready.core.fetchBad = x.1 ∧ s.fresh.core.fetchAsk = x.2) := by decide +kernel
theorem witness_step_input : ({ State.reset with inputs := [(0, .add good)] } : State).nextInput.map (fun x => x.1.isNone) = some true := by decide +kernel
/-- StepKeepsMemoryForm: the memory after reset has its form, and so has one with bytes and an indeterminate range. -/
theorem witness_memory_form : State.reset.Canonical ∧ tabS.Canonical ∧ Memory.wf (Memory.blur tabs 0x4000 0x1000 0) = true := by
  unfold State.Canonical; decide +kernel

/-! ## Witnesses for the statements that say where the events of the machine complete

Their other clauses have the witnesses of the statements above: AccumulatorSlotCompletes `witness_engine`; the deliveries, fences and
atomics of CoreEventsComplete `witness_outcomes`, `witness_replies`, `witness_home_atomic`, `witness_trap` and `witness_firmware`;
CopyAndPhaseEventsComplete `witness_record_fetch`, `witness_chunk_read`, `witness_chunk_write`, `witness_record_ends`, `witness_fifo`,
`witness_bank_switch` and `witness_phases`; PacketsComplete `witness_fetch` to `witness_leave`, `witness_launch`, `witness_entry`,
`witness_steps` and `witness_idle_park`; HostAndDeviceEventsComplete `witness_fetch`, `witness_services`, `witness_boot`, `witness_poison`
and `witness_bar0`; FabricEventsComplete `witness_flits`, `witness_reply_flits`, `witness_links`, `witness_transfers`, `witness_sends`,
`witness_completions`, `witness_map`, `witness_migration` and `witness_flat_targets`. -/

/-- StoresComplete: rows due, to the scratchpad and to memory, on their way and arrived; a release of a store to memory whose turn has come;
a store whose outcome is outstanding. -/
def row0 (l : Loc) (sent : Bool) : Perf := ⟨100, 90, 0, 0, 0, 9, none, [⟨l, 0xFF#8, 7#8⟩], none, 0, 1, none, sent, none⟩
def strel0 : Perf := { perf0 (some 3) 0 with req := some { req0 .store .pa 0 none with opc := 0xB1 } }
theorem witness_stores_complete :
    (∀ l ∈ [Loc.spad 0 0 64, .pa 64], ∀ sent : Bool, let s := { s0 with perfs := [row0 l sent] }
     s.duePerfs = [row0 l sent] ∧ (row0 l sent).req = none ∧ (row0 l sent).release = none ∧ s.poison = []) ∧
    (Loc.spad 0 0 64).isSpad = true ∧
    (let s := { s0 with perfs := [strel0] }
     let r := { req0 .store .pa 0 none with opc := 0xB1 }
     let e := encodeStore r ((s.refresh (s.coreAt 0 0) r).filter (fun el => el.fmt != fmtFlat))
     let p := { strel0 with sent := true, ws := [⟨.pa 0, 0xFF#8, 7#8⟩] }
     s.duePerfs = [strel0] ∧ strel0.sent = false ∧ strel0.req = some r ∧ r.kind = .store ∧ r.fixed = none ∧ strel0.locs.any Loc.isSpad = false ∧ e.2 = 0#8 ∧
     ({ s0 with perfs := [p] } : State).strelDue = some p ∧ p.release = some 3 ∧ p.bad = 0 ∧ r.psn = [] ∧ r.tape = none ∧ r.elems ≠ [] ∧ r.flatLanes = [] ∧
     p.locs.any Loc.isSpad = false) ∧
    (let s := withC (fun c => { c with outst := [⟨1, 80, 0, [.pa 0], false, false, 0, false⟩] })
     s.core.pclus < 32 ∧ s.core.pcore < 128 ∧ 4096 % 4096 = coreNo s.core ∧ (s.core.outst.find? (fun x => x.id == 4096 / 4096)).isSome = true) := by
  decide +kernel
/-- MemoryEventsComplete: the walk of the first and of the last address of a page; an access that its target serves, awaited here or not. -/
theorem witness_memory_events :
    (∀ a ∈ [0, 2 ^ 30 - 1], (4096 * a) % 4096 = coreNo tabS.core ∧ 4096 * a / 4096 < 2 ^ 64 ∧
      okAnd (tabS.translate tabS.core.job tabS.core.rank (4096 * a / 4096)) (fun x => decide (x.va ≤ a ∧ a < x.va + x.size)) = true) ∧
    (∀ p < 144, (s0.serveFlat p (raw .read 0x100 4 [])).2.isSome = true) ∧ s0.pk.remotes = [] ∧
    (let rm := rem0 0xFFFF .read 4
     let s := withP (fun p => { p with remotes := [rm] })
     (s.serveFlat 0xFFFF { rm.body with req := rm.ctx }).2.isSome = true ∧ (s.serveFlat 0xFFFF { rm.body with req := rm.ctx }).1.pk.remotes = [rm] ∧
     rm.port = 0xFFFF ∧ rm.held = false ∧ s.atTarget rm = false) := by decide +kernel
/-- ContextEventsComplete: a core that leaves while another of its footprint runs; a chosen context whose core can start. -/
theorem witness_context_events :
    [none, some (0#64, 0#64)].all (fun d => let s := { launchS { launch0 with named := [0, 1] } { c0 with switchOut := true, drain := d } with
       others := [{ c0 with pcore := 1, coreid := 1 }] }
     decide (s.leaveReady s.core = true ∧ s.core.drain = d ∧ s.core.drainHeld = false ∧
       s.others.any (fun c => c.run == .running && c.job == 0 && c.rank == 0) = true)) = true ∧
    (let l := { launch0 with chosen := some 90 }
     let r := { rank0 .waiting with image := { Image.empty with cores := [savedC] } }
     restoreS.nextStart = some l ∧ restoreS.launchOf 0 0 = some l ∧ (restoreS.idleOn 0 (fpSize r.fpc) 0 0).isEmpty = true ∧
     okAnd (restoreS.startCores l r 0 restoreS.beat) (fun cs => cs.length == 1) = true) := by decide +kernel
theorem witness_context_rank : restoreS.rankOf 0 0 = some { rank0 .waiting with image := { Image.empty with cores := [savedC] } } := rfl
/-- PacketEventsComplete: a copy within a page succeeds in both directions; JOIN and SVC that are accepted: `witness_join`,
`witness_services`. FlitEventsComplete: requests that their target serves, and one that it refuses. -/
theorem witness_packet_events :
    ((tabS.copyIn (rank0 .parked) (pieces 0 1) [9#8]).2 = 0 ∧ (tabS.copyOut (rank0 .parked) 1 (pieces 4095 1) 0).2 = 0) ∧
    (∀ x ∈ [(0x100, 0), (0xC000000000, 1)], ∀ k ∈ [(FlatKind.write, 1), (.read, 2), (.atomic, 3)], let f := flitK k.2 [x.1]
     arrives_ k.2 bootS f = true ∧ f.req = none ∧ f.port < 144 ∧ (((noted bootS f).serveFlat f.port (reqOf f k.1)).2.map Ans.st) = some x.2) := by
  decide +kernel

/-! ## Witnesses for the clauses on operands at the ends of their ranges, on adjoint accesses, and on refused accesses -/

/-- BranchesAndCalls: BRG on agreeing predicates that hold and that do not, its target in and out of the code object; CALL and its direct form out
of it, and on a bad stack pointer. -/
theorem witness_branch_ends :
    [-5, 95#22].all (fun d => let o := { tX d with sa := 0x80#8, sb := 0x80#8 }
     issues 0xD4 o true s0 && s0.core.a.rp (predN o.sa) == s0.core.a.rp (predN o.sb) && predTest (o.md.toNat % 4) (s0.core.a.rp (predN o.sa)) &&
     !predTest (({ o with md := 2#5 } : TOp).md.toNat % 4) (s0.core.a.rp (predN o.sa))) = true ∧
    issues 0xD5 (tX 95#22) true s0 = true ∧
    [94#16, 95#16].all (fun disp => let o := dirX 0#8 0#8 0#8 3#4 (disp.signExtend 22) 0#5
     issues 0xD5 o false s0 && decide ((s0.core.pc : Int) + disp.toInt < 100) == (disp == 94#16) &&
     issues 0xD5 o false (withA (fun a => { a.ws 63#6 128#64 0 with stklo := 256#64 })) && issues 0xD5 o false (setS 63#6 64#64)) = true := by
  decide +kernel
/-- SpecialRegisterAccess: GETS and SETS, in both forms, at index 0x1F, 0x20 and beyond, and of the registers with rules of their own. -/
theorem witness_special_ends :
    (∀ n ∈ [0x00#6, 0x0B#6, 0x11#6, 0x12#6, 0x17#6, 0x1F#6, 0x20#6, 0x3F#6],
      issues 0xDD (dirX (sreg 5#6) (sreg n) 0#8 0#4 0#22 0#5) false s0 = true ∧ issues 0xDE (dirX (sreg n) (sreg 5#6) 0#8 0#4 0#22 0#5) false s0 = true ∧
      issues 0xDD { tX 0#22 with sa := sreg n } true s0 = true ∧ issues 0xDE { tX 0#22 with dst := sreg n } true s0 = true) ∧
    (let s := withA (fun a => { a with tapep := 16#64 })
     s.core.a.tapeFlushed = false ∧ s.core.a.adjmode = 0#2 ∧ issues 0xDE { tX 0#22 with dst := 0x12#8 } true s = true ∧
     issues 0xDE (dirX 0x12#8 (sreg 5#6) 0#8 0#4 0#22 0#5) false s = true) := by decide +kernel
/-- DictionaryInstructions: a DLD of an image in the own scratchpad, in another core's, in the flat space, of rank 0 and of one beyond NRANK; its
read at issue + 4. -/
theorem witness_dictionary_places :
    (∀ x ∈ [(spadBase, Path.own), (spadBase + 0x40000, .clus 1), (2 ^ 55, .flat), (2 ^ 55 + 2 ^ 39, .flat)], let s := setS 1#6 (BitVec.ofNat 64 x.1)
     issues 0xE0 (tX 0#22) true s = true ∧ pathOf s.core x.1 = x.2 ∧ stackTest s.core.a 1#8 x.1 = none ∧ x.1 % 2048 = 0 ∧
     (s.banksOf 0 (winCore x.1)).mode (winIn x.1 / 0x10000) = 0 ∧ (fillTest (seen 0xE0 (tX 0#22) s) [(x.1, 2048)]).isNone = true ∧
     s.windowHit 0 (winCore x.1) (winIn x.1 / 0x10000) s.beat s.beat = false ∧
     s.windowHit 0 (winCore x.1) (winIn x.1 / 0x10000) (s.beat + 4) (s.beat + 4) = false) ∧
    bits s0.core.rankid.toNat 16 16 = 0 ∧
    (let d : Dld := ⟨true, 96, some 100, none, clusA, [.spad 0 1 0], [], false, [], none, [], 0⟩
     let s := withC (fun c => { c with dld := some d })
     d.readsAt s.beat = true ∧ s.duePerfs = [] ∧ s.dueReqs = [] ∧ s.others = []) := by decide +kernel
/-- What stops a DLD, each cause. -/
theorem witness_dictionary_faults :
    (let s := withC (fun c => { c with timetabled := true }); issues 0xE0 (tX 0#22) true s = true ∧ pathOf s.core 0 = .priv) ∧
    (let s := withA (fun a => { a with stklo := 256#64 })
     issues 0xE0 { tX 0#22 with sa := 63#8 } true s = true ∧ (srcA s.core.a { tX 0#22 with sa := 63#8 }).toNat < s.core.a.stklo.toNat) ∧
    pathOf s0.core (2 ^ 56 : Nat) = .out ∧ pathOf s0.core (2 ^ 54 : Nat) = .unmapped ∧ (spadBase + 1) % 2048 ≠ 0 ∧ (1 : Nat) % 2048 ≠ 0 ∧
    (let s : State := { s0 with banks := [{ banks0 0 0 with modes := (banks0 0 0).modes.set 0 1#2 }] }; (s.banksOf 0 0).mode 0 ≠ 0) ∧
    failsWith (imageLocs s0 s0.core 0) (fun f => f == .miss 0) = true ∧
    (let c := { c0 with tlb := [{ page0 with r := false }] }; failsWith (imageLocs { s0 with core := c } c 0) (fun f => f == .fault 0x08 6 0) = true) ∧
    (let c := { c0 with walkFault := some (0, ⟨false, 1, 2⟩) }; failsWith (imageLocs { s0 with core := c } c 0) (fun f => f == .trans 0 ⟨false, 1, 2⟩) = true) := by
  decide +kernel

/-! ### Adjoint accesses -/

/-- A differentiable page of F32 at 0, with its cells at 4,096, a TAPE bank, and a tape; adjoint mode `m`; s1 = 0. -/
def adjS (m : BitVec 2) (tape : List Byte) : State :=
  { withC (fun c => { c with tlb := [dpage, { page0 with va := 4096, out := 4096, fmt := 1 }], a := { c.a with
      adjmode := m, adjoff := 4096#64, tape := tape, tapep := BitVec.ofNat 64 tape.length, tapel := 0x100000#64 } }) with
    banks := [{ banks0 0 0 with modes := (banks0 0 0).modes.set 3 3#2 }] }
def diffTable : List (Nat × TOp) :=
  [(0xB1, tM 5#8 0x10#6), (0xB3, tM 0x45#8 0x10#6), (0xC9, { tM 5#8 0x10#6 with sb := 5#8 }), (0xCA, { tM 0x45#8 0x10#6 with sb := 0x45#8 })]
def isDiff (s : State) (k : Checked) : Bool := k.diff && whereOf s.core k.els == .memory
/-- The lowest two bytes of the record of a store to address 0 on top of the tape. -/
def ownTape (vec : Bool) : List Byte :=
  if vec then List.replicate 128 1#8 ++ leBytes 8 0xFFFFFFFF ++ leBytes 8 (7 * 2 ^ 60 + 2 * 2 ^ 56) else List.replicate 8 1#8 ++ leBytes 8 (2 * 2 ^ 60 + 2 ^ 56)
/-- AdjointOperations, a store in forward mode: with room up to TAPEL, and with none. -/
theorem witness_forward :
    diffTable.all (fun x => [0x100000#64, 0#64].all (fun l =>
      let s : State := { adjS 1#2 [] with core := { (adjS 1#2 []).core with a := { (adjS 1#2 []).core.a with tapel := l } } }
      let e := seen x.1 x.2 s
      reach x.1 x.2 s (fun k => isDiff s k && (fillTest e (accessRanges e x.1 x.2 k)).isNone &&
        decide ((recordOf (captured x.1 x.2 s .store k none) (s.oldBytes s.core (captured x.1 x.2 s .store k none) (s.ownEarlier s.core s.beat))).length ≤ l.toNat) == (l != 0#64)) &&
      s.tapeBank s.core && decide (s.core.a.adjmode = 1#2) && !s.core.guarded)) = true ∧
    (tM 5#8 0x10#6).t = .f32 ∧ (adjS 1#2 []).core.a.rv (regN 0x45#8) = lanes0 := by decide +kernel
/-- With no TAPE bank; and a tape bank that is full, whatever it holds. -/
theorem witness_forward_full :
    (let s : State := { adjS 1#2 [] with banks := [] }
     s.tapeBank s.core = false ∧ okAnd (s.tapeLocs s.core true 0 16) (fun ls => ls.length == 16) = true) ∧
    okAnd ((adjS 1#2 []).tapeLocs (adjS 1#2 []).core true 0 4096) (fun ls => ls.length == 4096) = true ∧
    (∀ xs : List Byte, xs.length = 65536 → 65536 < xs.length + 16 ∧ (adjS 1#2 xs).core.a.tape = xs) :=
  ⟨by decide +kernel, by decide +kernel, fun _ h => ⟨by omega, rfl⟩⟩
/-- `CellsFree` as a Bool. -/
def cellsFree (opc : Nat) (o : TOp) (s : State) (addr : Nat) (cells : List Elem) : Bool :=
  (fillTest (seen opc o s) (accessRanges (seen opc o s) opc o ⟨addr, cells, true⟩)).isNone && (whereOf s.core cells == .memory)
/-- A load in reverse mode: its cells free; refused, by a page that holds no F32; a walk that failed. -/
theorem witness_reverse_loads :
    [(0xB0, tM 5#8 0x10#6), (0xB2, tM 0x45#8 0x10#6)].all (fun x =>
      let s := adjS 2#2 []
      let bad := fun (c : Core) => ({ s with core := c } : State)
      reach x.1 x.2 s (fun k => isDiff s k && okAnd (cellsOf (seen x.1 x.2 s) x.2 k.els) (fun cs => cellsFree x.1 x.2 s k.addr cs)) &&
      !s.core.owed x.2.dst.toNat && !s.core.awaiting x.2.dst.toNat &&
      (let u := bad { s.core with tlb := [dpage, { page0 with va := 4096, out := 4096 }] }
       reach x.1 x.2 u (fun k => isDiff u k && failsWith (cellsOf (seen x.1 x.2 u) x.2 k.els) (fun f => match f with | .fault _ _ _ => true | _ => false))) &&
      (let u := bad { s.core with tlb := [dpage], walkFault := some (1, ⟨false, 1, 2⟩) }
       reach x.1 x.2 u (fun k => isDiff u k && failsWith (cellsOf (seen x.1 x.2 u) x.2 k.els) (fun f => match f with | .trans _ _ => true | _ => false)))) = true := by
  decide +kernel
/-- A store in reverse mode: an empty tape, one shorter than a record, one with another record on top, its own record in the bank, and at home. -/
theorem witness_reverse_stores :
    diffTable.all (fun x => [[], List.replicate 8 0#8, List.replicate 144 0#8, ownTape (isVecMem x.1)].all (fun tape =>
      let s := adjS 2#2 tape
      let e := seen x.1 x.2 s
      reach x.1 x.2 s (fun k => isDiff s k && okAnd (cellsOf e x.2 k.els) (fun cs =>
        (fillTest e (accessRanges e x.1 x.2 { k with els := k.els ++ cs })).isNone && (fillTest e (accessRanges e x.1 x.2 k)).isNone &&
        cellsFree x.1 x.2 s k.addr cs && decide (k.addr = 0))))) = true ∧
    (laneMask (adjS 2#2 []).core.a (tM 0x45#8 0x10#6)).toNat = leNat (((ownTape true).drop 128).take 8) ∧
    (let s : State := { adjS 2#2 [] with core := { (adjS 2#2 []).core with a := { (adjS 2#2 []).core.a with tapep := 16#64, tapeHome := 16 } } }
     okAnd (s.tapeLocs s.core false 0 16) (fun ls => ls.length == 16) = true ∧ s.core.timetabled = false) := by decide +kernel
/-- ADJLD on a TIER 2 leaf, differentiable or not; records: the highest address. -/
theorem witness_adjoint_tier :
    (∀ d : Bool, let s := withC (fun c => { c with tlb := [{ page0 with tier := 2, d := d, fmt := 2 }] })
     pathOf s.core (addrOf (srcA s.core.a (tX 0#22)) 0#64) = .priv ∧ (s.core.held? 0).map (fun t => (t.tier, t.d)) = some (2, d) ∧
     issues 0xE6 { tX 0#22 with lk := 0#4 } true s = true) ∧ (req0 .store .pa (2 ^ 56 - 1) none).addr < 2 ^ 56 := by decide +kernel

/-! ### Accesses that are refused, or wait -/

/-- What an operation's address checks answer. -/
def accOf (opc : Nat) (o : TOp) (s : State) : Except AFail (List (Elem × Reg)) :=
  s.accessOf s.core (accessAt opc o (wrap 56 (memAddr s.core.a opc o)) (activeElems opc o (memMask (seen opc o s) opc o)) (s.core.a.rv (regN o.sb)))
def accFail (opc : Nat) (o : TOp) (s : State) (p : AFail → Bool) : Bool :=
  issues opc o true s && !(activeElems opc o (memMask (seen opc o s) opc o)).isEmpty && failsWith (accOf opc o s) p
/-- RefusedAccessesTrap: each operation at an unmapped address, at one whose walk failed, at one with no translation, in a TIER 2 page that denies it,
in a rank beyond NRANK, outside the address space; below STKLO; in timetabled code. -/
theorem witness_refused :
    memTable.all (fun x =>
      accFail x.1 x.2 (memS (2 ^ 54)) (fun f => match f with | .fault 0x08 9 _ => true | _ => false) &&
      accFail x.1 x.2 (setS 1#6 64#64) (fun f => match f with | .miss _ => true | _ => false) &&
      accFail x.1 x.2 { setS 1#6 64#64 with core := { (setS 1#6 64#64).core with walkFault := some (0, ⟨false, 1, 2⟩) } }
        (fun f => match f with | .trans _ _ => true | _ => false) &&
      accFail x.1 x.2 (memS (2 ^ 55 + 2 ^ 39)) (fun f => f == .flat) && decide (bits s0.core.rankid.toNat 16 16 < 1) &&
      (let s := { memS 64 with core := { (memS 64).core with tlb := [{ page0 with tier := 2, r := false, w := false }] } }
       accFail x.1 x.2 s (fun f => f == .flat) && decide ((flatTarget s s.core 64).1 ≤ bits s.core.rankid.toNat 16 16)) &&
      decide (2 ^ 56 ≤ memAddr (memS (2 ^ 56)).core.a x.1 x.2 ∨ x.1 = 0xB4 ∨ x.1 = 0xB5 ∨ x.1 = 0xC4 ∨ 0 ≤ memAddr (memS (2 ^ 56)).core.a x.1 x.2)) = true ∧
    (let s := withC (fun c => { c with a := { c.a with stklo := 256#64 }, tlb := [page0] })
     let o := { tM 5#8 8#6 with sa := 63#8 }
     reach 0xB0 o (withC (fun c => { c with tlb := [page0] })) (fun _ => true) = true ∧ okAnd (accOf 0xB0 o s) (fun xs => !xs.isEmpty) = true) := by
  decide +kernel
/-- A load and a gather of memory in timetabled code; an atomic to a differentiable page; one in another module's that is differentiable. -/
theorem witness_refused_more :
    (let s := { memS 64 with core := { (memS 64).core with timetabled := true } }
     issues 0xB0 (tM 5#8 8#6) true s = true ∧ memAt 64 = true ∧
     (s.laneAddrs s.core (accessAt 0xB0 (tM 5#8 8#6) 64 [0] lanes0)).head? = some 64 ∧
     ((s.laneAddrs s.core (accessAt 0xB4 (tM 0x45#8 0x10#6) 64 [0] lanes0)).find? memAt) = some 64) ∧
    (let s := { memS 64 with core := { (memS 64).core with tlb := [dpage] } }
     okAnd (accOf 0xB8 (tM 5#8 4#6) s) (fun xs => xs.any (fun z => z.2.d && !diffOk 0xB8 .i64 z.2 z.1.addr)) = true ∨
     okAnd (accOf 0xB9 (tM 5#8 0x10#6) s) (fun xs => xs.any (fun z => z.2.d && !diffOk 0xB9 .f32 z.2 z.1.addr)) = true) := by decide +kernel
/-- ScalarAddressFaults: the ends of the private space; a word that is aligned, and one that is not, in a bank in and out of SPAD mode. -/
theorem witness_scalar_address :
    pathOf s0.core (spadBase + 0x2000000 : Nat) = .unmapped ∧ pathOf s0.core (2 ^ 55 - 1 : Nat) = .unmapped ∧ pathOf s0.core spadBase = .own ∧
    (let q := (s0.banksOf 0 0).qf 0; qFmt q = 0 ∧ qGeom q = 0 ∧ qDbase q = 0) ∧ (s0.banksOf 0 0).mode 0 = 0 ∧ spadBase % 8 = 0 ∧ (spadBase + 4) % 8 ≠ 0 ∧
    (Ty.n64 ≠ .t6 ∧ Ty.n64.width = 64) := by decide +kernel
/-- UnfilledAccessesWait: a channel's watermark below the access; in timetabled code too; the flag of a failed collective. -/
theorem witness_unfilled :
    (let s : State := { memS ownA with core := { (memS ownA).core with chan0 := { Chan.idle with rlo := spadBase, rhi := spadBase + 128 } } }
     reach 0xB0 (tM 5#8 8#6) s (fun k => !k.diff && (match fillTest (seen 0xB0 (tM 5#8 8#6) s) (accessRanges (seen 0xB0 (tM 5#8 8#6) s) 0xB0 (tM 5#8 8#6) k) with
       | some (.wait _ _) => true | _ => false)) = true) ∧
    (let s : State := { memS ownA with pk := { s0.pk with colls := [{ coll0 (chunk0 0) with flag := ownA, failed := some 2, flagged := some 0x8200000000040001#64 }] } }
     reach 0xB0 (tM 5#8 8#6) s (fun k => !k.diff && (match fillTest (seen 0xB0 (tM 5#8 8#6) s) (accessRanges (seen 0xB0 (tM 5#8 8#6) s) 0xB0 (tM 5#8 8#6) k) with
       | some (.fault 0x14 _) => true | _ => false)) = true) := by decide +kernel

/-! ### Channels, queues, ranks -/

/-- CopyChannelsRun: a record head at 2^56; an atomic window open at the bank of the record. -/
theorem witness_record_heads :
    (let s := chS { ch0 with fetchAt := some (2 ^ 56, 100) }; s.core.chan0.st = 1 ∧ s.core.chan0.cur = none ∧ 100 ≤ s.beat) ∧
    recA < 2 ^ 56 ∧ (fetchS (recM [])).windowOpen (fetchS (recM [])).core [recA, recA + 63] = false ∧
    (let s : State := { fetchS (recM []) with windows := [⟨100, 0, 0, 0, 90⟩] }; s.windowOpen s.core [recA, recA + 63] = true) := by decide +kernel
/-- BundlesOfSeveralOperations: a bundle that does not expand, with nothing to wait for, and with a register that a load owes. -/
theorem witness_bundle_faults :
    failsWith (expandBundle s0.core.activeDict (BitVec.allOnes _)) (fun _ => true) = true ∧ s0.faultWaits (BitVec.allOnes _) = false ∧
    (let s := withC (fun c => { c with reqs := [req0 .load .pa 0 none] })
     let w : Bundle := (0xE00000#24 ++ BitVec.ofNat 168 0b00_000100_000101_000011_0000)
     failsWith (expandBundle s.core.activeDict w) (fun _ => true) = true ∧ s.faultWaits w = true) := by decide +kernel
/-- HostQueues: a ring read that was stopped, of a queue that runs again. -/
theorem witness_stale :
    (let s := hostS { q0 [] with tail := 2, stale := 1 } [] []; (s.queueOf 0).stale ≠ 0 ∧ (s.queueOf 0).halt = 0) ∧
    (hostS { q0 [] with tail := 2 } [] []).queueOf 0 = { q0 [] with tail := 2 } ∧ (q0 []).stale = 0 ∧ (pk 1 1 [] none).words ≠ [] := by decide +kernel
/-- PacketsAct: a held rank without a launch. SecurityAndServices: each function has an object that falls due, and one that does not; the peer's report. -/
theorem witness_held_alone :
    (let p := pk 3 0 [] none
     let s := sent p [rank0 .held] []
     starts_ 3 s p = true ∧ s.resident (pJob p) (pRank p) = some (rank0 .held) ∧ s.launchOf 0 0 = none) := by decide +kernel
theorem witness_functions :
    (∀ x ∈ [(1, 0#64, 0), (3, 7#64, 0x1000), (4, 7#64, 1), (5, 0#64, 1)], let s := sent (pk 0 0 [] none) [rank0 .parked] []
     (s.svcReq x.1 x.2.1 (BitVec.ofNat 64 x.2.2)).isSome = true ∧ (s.svcReq x.1 x.2.1 (BitVec.ofNat 64 x.2.2)).map SvcReq.f = some x.1) ∧
    (({ s0 with poison := [5] } : State).svcReq 2 5#64 0#64).isSome = true ∧ s0.svcReq 2 5#64 0#64 = none ∧ s0.svcReq 4 0#64 3#64 = none ∧
    s0.svcReq 1 0#64 0#64 = none ∧ s0.asksHost 0 = false ∧ ({ (rank0 .parked) with base := none } : Rank).base = none ∧
    ((withP (fun p => { p with booted := true, ranks := [{ rank0 .parked with base := none }], jobs := [job0] })).svcReq 0 0#64 0#64).isSome = true := by
  decide +kernel
/-- LaunchesEnter: a launch whose pages are all here, and one whose timetable lies in another module. -/
def hereS : State := { sent launchP [rank0 .parked] [] with mem := hdrM }
theorem here_spans : hereS.prepSpans (rank0 .parked) (pWord launchP 2) = [(32768, 512, false), (33280, 8, false), (0, 4096, false), (36864, 24, true)] := by
  decide +kernel
theorem here_table : hereS.spanAway 0 0 0 4096 false = [] := by decide +kernel
theorem here_rest : hereS.spanAway 0 0 32768 512 false = [] ∧ hereS.spanAway 0 0 33280 8 false = [] ∧ hereS.spanAway 0 0 36864 24 true = [] := by
  decide +kernel
theorem witness_launch_here : hereS.prepAway (rank0 .parked) (pWord launchP 2) = [] := by
  rw [State.prepAway, here_spans]
  simp [here_table, here_rest, rank0, List.eraseDups]
theorem witness_launch_starts :
    starts_ 1 { sent launchP [rank0 .parked] [] with mem := farTabS.mem } launchP = true ∧
    (withP (fun p => { p with throtHold := true })).pk.throtHold = true := by decide +kernel
theorem witness_launch_away :
    ({ sent launchP [rank0 .parked] [] with mem := farTabS.mem } : State).prepAway (rank0 .parked) (pWord launchP 2) ≠ [] := by
  intro h
  have e : ((({ sent launchP [rank0 .parked] [] with mem := farTabS.mem } : State).prepSpans (rank0 .parked) (pWord launchP 2)).flatMap (fun x =>
      ({ sent launchP [rank0 .parked] [] with mem := farTabS.mem } : State).spanAway (rank0 .parked).job (rank0 .parked).rank x.1 x.2.1 x.2.2)).isEmpty = false := by
    decide +kernel
  rw [State.prepAway] at h
  generalize List.flatMap _ _ = l at h e
  cases l with
  | nil => cases e
  | cons x l => rw [List.eraseDups_cons] at h; cases h
/-- ContextsAndTapesMove: an urgent request in the gap between two passes, and none; a context whose tables are here, and one whose table is
in another module. -/
def gapC (u : Bool) : Core := { c0 with urgent := u, pc := 5, a := { c0.a with
  loops := #v[⟨5, 9, true⟩, ⟨0, 0, false⟩, ⟨0, 0, false⟩, ⟨0, 0, false⟩], lstg := 0x14000#64, stage := true } }
theorem witness_gap : ∀ u : Bool, (gapC u).gapUrgent 100 = u := by decide +kernel
theorem witness_restore_away :
    (let r := { rank0 .waiting with image := { Image.empty with cores := [savedC] } }
     restoreS.restoreAway r 0 = [] ∧
     okAnd (restoreS.restoreTable { savedC.rebase 0 with acq := restoreS.beat, readyAt := max savedC.readyAt restoreS.beat }) (fun _ => true) = true) := by decide +kernel
theorem witness_restore_far :
    let r := { rank0 .waiting with image := { Image.empty with cores := [savedC] } }
    ({ restoreS with mem := farTabS.mem } : State).nextStart.isSome = true ∧ ({ restoreS with mem := farTabS.mem } : State).restoreAway r 0 ≠ [] := by
  refine ⟨by decide +kernel, fun h => ?_⟩
  have m : Loc.far 1 (2 ^ 30) ∈ ({ restoreS with mem := farTabS.mem } : State).restoreAway
      { rank0 .waiting with image := { Image.empty with cores := [savedC] } } 0 := by
    unfold State.restoreAway
    rw [List.mem_eraseDups]
    decide +kernel
  rw [h] at m
  cases m
/-- Traps that go to firmware: no table to wait for, and one that the rollback loads from another module. -/
theorem witness_firmware_away :
    (let s := { s0 with core := trapC 0x12 }; s.rollbackAway s.core ⟨0x12, 0, 5, 0#64, 90, false⟩ = [] ∧ s.core.rollsBack 0 = false) ∧
    (let c := { trapC 0x12 with gm := true, shadow := { c0.shadow with rngt := 0x1000#64 } }
     let s : State := { farTabS with core := c, pk := { farTabS.pk with launches := [{ launch0 with stopAt := some 92 }] } }
     s.core.firmwareTrap = some ⟨0x12, 0, 5, 0#64, 90, false⟩ ∧ s.core.owesHeld = false ∧ s.quiesced s.core = true ∧
     (s.rollbackAway s.core ⟨0x12, 0, 5, 0#64, 90, false⟩).length = 4096 ∧ s.core.rollsBack 0 = true) := by decide +kernel
/-- TapeMoves: with no TAPE bank, a record that may go home, and none; a TAPEFL that waits, with records left and with none. -/
theorem witness_tape_home :
    (let s : State := { tapeS (List.replicate 16 1#8) 0 with banks := [] }
     s.tapeBank s.core = false ∧ (s.tapeDue s.core 0 (s.firstOpen s.core)).isSome = true ∧ s.core.a.adjmode = 0#2 ∧
     s.tapeDue s.core 16 (s.firstOpen s.core) = none ∧ s.core.flushing = false ∧ s.core.a.tape.length + 304 ≤ 65536) ∧
    (∀ n ∈ [0, 16], let s : State := { tapeS (List.replicate 16 1#8) n with core := { (tapeS (List.replicate 16 1#8) n).core with waits := [.tapefl] } }
     s.core.flushing = true ∧ s.flushLeft s.core = (n == 0)) ∧
    (let s := tapeS (List.replicate 16 1#8) 16
     (let t : State := { s with perfs := [{ held0 with slot := 6, id := tapeId, req := none, ws := [⟨.pa 0, 0xFF#8, 7#8⟩] }] }; t.tapeOut t.core = true) ∧
     s.tapeOut s.core = false) := by decide +kernel
/-- CollectivesRun: an abort of the member's tag and of another; its limit over, or not. RanksMove: a rank parked with no launch and a job; requests
that were held, for it and for another. -/
theorem witness_aborts :
    (let k := { coll0 (chunk0 0) with tmo := 100 }
     (collS k).pk.colls[0]? = some k ∧ (0 : Nat) % 256 = (collS k).tagOf k.job k.rank k.tag ∧ (1 : Nat) % 256 ≠ (collS k).tagOf k.job k.rank k.tag ∧
     k.tmo ≤ (collS k).beat) ∧
    (let s := hostS (q0 []) [rank0 .parked] []
     s.rankOf 0 0 = some (rank0 .parked) ∧ s.launchOf 0 0 = none ∧ s.asksHost 1 = false ∧ s.pk.keysErased = false ∧ job0.modnum ≠ 3 ∧ s.pk.heldReqs = [] ∧
     ({ s with pk := { s.pk with funcsplit := 2 } } : State).asksHost 1 = true) ∧
    (∀ r ∈ [0, 1], (withP (fun p => { p with heldReqs := [(0xFFFF, { flatW with rank := r })] })).pk.heldReqs.map (fun x => x.2.rank) = [r]) := by
  decide +kernel
/-! ### Sealed units that open -/

/-- Bytes in memory from an address on. -/
def placed (m : Memory) : Nat → List Byte → Memory
  | _, [] => m
  | a, b :: bs => (placed m (a + 1) bs).put a b
theorem placed_wf (m : Memory) (h : m.wf = true) : ∀ a bs, (placed m a bs).wf = true
  | _, [] => h
  | a, _ :: bs => Memory.put_wf _ _ _ (placed_wf m h (a + 1) bs)
theorem placed_get (m : Memory) (h : m.wf = true) : ∀ (a : Nat) (bs : List Byte) (i : Nat) (hi : i < bs.length), (placed m a bs).get (a + i) = bs[i]
  | _, [], i, hi => absurd hi (Nat.not_lt_zero i)
  | _, _ :: _, 0, _ => Memory.get_put_self _ _ _ (placed_wf m h _ _)
  | a, b :: bs, i + 1, hi => by
    rw [placed, Memory.get_put_ne _ _ (placed_wf m h _ _) (by omega), show a + (i + 1) = (a + 1) + i by omega]
    exact placed_get m h (a + 1) bs i (by simpa using hi)
theorem coldBytes_placed (u : List Byte) : ({ s0 with mem := placed ⟨[], []⟩ 0x20000000000 u } : State).coldBytes
    { rank0 .cold with cold := some (0x20000000000, u.length) } = u :=
  List.ext_getElem (by simp [State.coldBytes]) (fun i _ h2 => by simp [State.coldBytes, State.homeByte, placed_get ⟨[], []⟩ rfl 0x20000000000 u i h2])
/-- ColdRanks: an image in the cold tier that opens under the key of the module. -/
theorem witness_cold_opens : ∃ (s : State) (r : Rank) (x : List Byte), r.st = .cold ∧ s.pk.keysErased = false ∧
    aesOpen (derivedKey 1 r.job 0xFFFF) ((s.coldBytes r).take 64) ((s.coldBytes r).drop 64) = some x := by
  have h : ∀ (u x : List Byte), aesOpen (derivedKey 1 0 0xFFFF) (u.take 64) (u.drop 64) = some x →
      ∃ (s : State) (r : Rank) (x : List Byte), r.st = .cold ∧ s.pk.keysErased = false ∧
        aesOpen (derivedKey 1 r.job 0xFFFF) ((s.coldBytes r).take 64) ((s.coldBytes r).drop 64) = some x :=
    fun u x hu => ⟨_, _, x, rfl, rfl, by rw [coldBytes_placed u]; exact hu⟩
  refine h (List.replicate 64 0#8 ++ aesSeal (derivedKey 1 0 0xFFFF) (List.replicate 64 0#8) []) [] ?_
  rw [List.take_left' List.length_replicate, List.drop_left' List.length_replicate]
  exact aesOpen_aesSeal _ _ _ (by simp [derivedKey, padTo]; omega)

theorem find_mapIdx : ∀ (u : List Byte) (o i : Nat), ((u.mapIdx (fun j b => (o + j, b))).find? (fun x => x.1 == o + i)).map Prod.snd = u[i]?
  | [], _, _ => by simp
  | _ :: _, o, 0 => by simp [List.mapIdx_cons]
  | b :: u, o, i + 1 => by
    rw [List.mapIdx_cons, List.find?_cons_of_neg (by simp), List.getElem?_cons_succ, ← find_mapIdx u (o + 1) i]
    simp only [Nat.add_assoc, Nat.add_comm 1]
def unitF (u : List Byte) : Flit := { flitK 9 [] with payload := leBytes 8 0 ++ leBytes 8 64 ++ leBytes 8 80 ++ (u ++ List.replicate 16 0#8) }
def unitM : MigIn := ⟨0, 0, 0, 0, (List.replicate 64 0#8).mapIdx (fun j b => (0 + j, b))⟩
def unitS : State := withP (fun p => { p with booted := true, migs := [unitM], jobs := [job0], peerKeys := [⟨0, 0, 2, List.replicate 32 0#8⟩] })
theorem unitF_words (u : List Byte) : fWord (unitF u) 0 = 0 ∧ fWord (unitF u) 1 = 64 ∧ fWord (unitF u) 2 = 80 := by
  simp [fWord, unitF, leBytes, leNat]
theorem unitF_size (u : List Byte) : unitSize (unitF u) = 80 := by simp [unitSize, unitF_words u, bits]
theorem unit_bytes (u : List Byte) (hl : u.length = 16) :
    unitM.bytes ++ unitPiece (unitF u) = (List.replicate 64 0#8 ++ u).mapIdx (fun j b => (0 + j, b)) := by
  have hp : unitPiece (unitF u) = u.mapIdx (fun j b => (64 + j, b)) := by
    have h1 : unitPiece (unitF u) = (((unitF u).payload.drop 24).take 16).mapIdx (fun j b => (64 + j, b)) := by
      simp only [unitPiece, unitF_size, (unitF_words u).2.1]; rfl
    rw [h1, show (unitF u).payload.drop 24 = u ++ List.replicate 16 0#8 from rfl, List.take_left' hl]
  rw [hp, List.mapIdx_append]; simp only [unitM, List.length_replicate, Nat.zero_add, Nat.add_comm]
/-- The last piece of a sealed unit that opens, of a rank that is not here. -/
def UnitOpens : Prop := ∃ (s : State) (f : Flit) (m : MigIn) (plain : List Byte), Arrives 9 s f ∧ s.pk.keysErased = false ∧
    bits (fWord f 1) 40 8 = 0 ∧ s.pk.migs = [m] ∧ m.job = bits (fWord f 0) 0 32 ∧ m.rank = bits (fWord f 0) 32 16 ∧ m.unit = 0 ∧ m.page = 0 ∧
    (m.bytes ++ unitPiece f).length = unitSize f ∧ s.jobOf m.job ≠ none ∧ s.rankOf m.job m.rank = none ∧
    (let all := (List.range (unitSize f)).map (fun i => (((m.bytes ++ unitPiece f).find? (fun x => x.1 == i)).map Prod.snd).getD 0#8)
     aesOpen (s.keyFor 2 m.job (fSmod f)) (all.take 64) (all.drop 64) = some plain)
theorem unit_opens (u plain : List Byte) (hl : u.length = 16) (ho : aesOpen (List.replicate 32 0#8) (List.replicate 64 0#8) u = some plain) : UnitOpens := by
  have hw := unitF_words u
  have hall : (List.range (unitSize (unitF u))).map (fun i => (((unitM.bytes ++ unitPiece (unitF u)).find? (fun x => x.1 == i)).map Prod.snd).getD 0#8) =
      List.replicate 64 0#8 ++ u := by
    rw [unit_bytes u hl]
    refine List.ext_getElem (by simp [hl, unitF_size u]) (fun i _ h2 => ?_)
    have := find_mapIdx (List.replicate 64 0#8 ++ u) 0 i
    rw [Nat.zero_add] at this
    rw [List.getElem_map, List.getElem_range, this, List.getElem?_eq_getElem h2, Option.getD_some]
  refine ⟨unitS, unitF u, unitM, plain, arrives_of ?_, rfl, by rw [hw.2.1]; rfl, rfl, by rw [hw.1]; rfl, by rw [hw.1]; rfl, rfl, rfl, ?_, by decide, rfl, ?_⟩
  · simp [arrives_, flitOk, unitF, hl, leBytes_length, flitK]; exact ⟨⟨by simp [fKind, bits], by decide⟩, rfl⟩
  · rw [unit_bytes u hl, unitF_size]; simp [hl]
  · intro all
    rw [show all = _ from hall, show unitS.keyFor 2 unitM.job (fSmod (unitF u)) = List.replicate 32 0#8 from by
      rw [show fSmod (unitF u) = 0 by simp [fSmod, unitF, flitK, bits]]; decide, List.take_left' List.length_replicate, List.drop_left' List.length_replicate]
    exact ho
/-- RanksMigrate: under a key that the host supplied. -/
theorem witness_unit_opens : UnitOpens := by
  refine unit_opens (aesSeal (List.replicate 32 0#8) (List.replicate 64 0#8) []) [] ?_ (aesOpen_aesSeal _ _ _ List.length_replicate)
  rw [aesSeal, List.length_append, gcmTag, xorBytes_length, aesEnc_length _ _ List.length_replicate, beBytes_length, gcmText, xorBytes_length]
  simp
end Sys2Proof.Tests
end

section
/-! ## What leaves memory as it is (R6, log 2)

Bytes of memory change through `Memory.put` and `Memory.blur` alone, which stand behind few operations of the state (`homeWrite`,
`spadWrite`, `writeBack` and what is built of them). For each other operation of the state one lemma says here that memory stays. -/
namespace Sys2Proof.Machine

@[simp] theorem State.ite_mem (p : Prop) [Decidable p] (a b : State) : (if p then a else b).mem = if p then a.mem else b.mem :=
  apply_ite State.mem p a b

@[simp] theorem State.foldl_mem {α : Type} {f : State → α → State} (hf : ∀ s x, (f s x).mem = s.mem) :
    ∀ (l : List α) (s : State), (l.foldl f s).mem = s.mem
  | [], _ => rfl
  | x :: r, s => (State.foldl_mem hf r (f s x)).trans (hf s x)

theorem State.foldl_fst_mem {α β : Type} {f : State × β → α → State × β} (hf : ∀ x a, (f x a).1.mem = x.1.mem) :
    ∀ (l : List α) (x : State × β), (l.foldl f x).1.mem = x.1.mem
  | [], _ => rfl
  | a :: r, x => (State.foldl_fst_mem hf r (f x a)).trans (hf x a)

@[simp] theorem State.poisonPage_mem (s : State) (a : Nat) : (s.poisonPage a).mem = s.mem := by simp [State.poisonPage]
@[simp] theorem State.fillSector_mem (s : State) (die sector : Nat) (uncorrectable : Bool) :
    (s.fillSector die sector uncorrectable).mem = s.mem := by simp [State.fillSector]
@[simp] theorem State.l2Write_mem (s : State) (die a : Nat) (mask v : Byte) : (s.l2Write die a mask v).mem = s.mem := rfl
@[simp] theorem State.clearSectorPoison_mem (s : State) (die sector : Nat) : (s.clearSectorPoison die sector).mem = s.mem := rfl
@[simp] theorem State.blockPoison_mem (s : State) (ws : List ByteW) (poisoned : Bool) :
    (s.blockPoison ws poisoned).mem = s.mem := by simp [State.blockPoison]
@[simp] theorem State.mapFoot_mem (s : State) (job rank : Nat) (f : Core → Core) : (s.mapFoot job rank f).mem = s.mem := rfl
@[simp] theorem State.switchFrom_mem (s : State) (c : Core) : (s.switchFrom c).mem = s.mem := by
  unfold State.switchFrom
  dsimp only
  (repeat' split) <;> simp
@[simp] theorem State.chooseNext_mem (s : State) (base fpc : Nat) : (s.chooseNext base fpc).mem = s.mem := by
  unfold State.chooseNext
  (repeat' split) <;> simp
@[simp] theorem State.settleStores_mem (s : State) : s.settleStores.mem = s.mem := rfl
@[simp] theorem State.failStore_mem (s : State) (clus core issue id bits_ port addr : Nat) :
    (s.failStore clus core issue id bits_ port addr).mem = s.mem := rfl
@[simp] theorem State.sendFlitOf_mem (s : State) (port kind dmod smod tag ctx count job rank : Nat) (payload : List Byte)
    (req : Option FlatReq) (info : Nat) :
    (s.sendFlitOf port kind dmod smod tag ctx count job rank payload req info).mem = s.mem := rfl
@[simp] theorem State.sendFlit_mem (s : State) (port kind dmod smod tag ctx : Nat) (payload : List Byte) :
    (s.sendFlit port kind dmod smod tag ctx payload).mem = s.mem := rfl
@[simp] theorem State.sendBody_mem (s : State) (port dmod ctx want : Nat) (b : FlatReq) : (s.sendBody port dmod ctx want b).mem = s.mem := by
  unfold State.sendBody
  split
  · rfl
  · exact State.foldl_mem (fun _ _ => State.sendFlitOf_mem ..) _ _
@[simp] theorem State.request_mem (s : State) (c : Core) (id addr want : Nat) (far chan : Option Nat) (body : FlatReq) :
    (s.request c id addr want far chan body).mem = s.mem := by simp [State.request]
@[simp] theorem State.askBytes_mem (s : State) (c : Core) (id addr : Nat) (chan : Option Nat) (ls : List Loc) :
    (s.askBytes c id addr chan ls).mem = s.mem := by simp [State.askBytes]
@[simp] theorem State.sendAccess_mem (s : State) (c : Core) (r : Req) (kind : FlatKind) :
    (s.sendAccess c r kind).mem = s.mem := by simp [State.sendAccess]
theorem State.metAtTarget_mem {s : State} {f : FlatReq} {x : State × Ans} (h : s.metAtTarget f = some x) : x.1.mem = s.mem := by
  unfold State.metAtTarget at h
  split at h
  · cases h
  · split at h
    · cases h; rfl
    · split at h
      · cases h; rfl
      · split at h <;> cases h; rfl
@[simp] theorem State.finish_mem (s : State) (rm : Remote) (st : FStatus) (data : List Byte) (info : Nat) :
    (s.finish rm st data info).mem = s.mem := by
  unfold State.finish
  dsimp only
  (repeat' split) <;> simp
@[simp] theorem sendReq_mem (r : Req) (kind : FlatKind) (s : State) : (sendReq r kind s).mem = s.mem := by simp [sendReq]
@[simp] theorem State.askOld_mem (s : State) (r : Req) (off : Nat) : (s.askOld r off).mem = s.mem := by simp [State.askOld]
@[simp] theorem State.dldArrives_mem (s : State) (c : Core) (d : Dld) (uncorrectable : Bool) : (s.dldArrives c d uncorrectable).mem = s.mem := by
  unfold State.dldArrives
  dsimp only
  rw [State.mapCore_mem]
  split
  · exact State.foldl_mem (fun s l => by split <;> simp) _ _
  · rfl
@[simp] theorem State.flushTape_mem (s : State) (issue : Nat) : (s.flushTape issue).mem = s.mem := by
  unfold State.flushTape
  dsimp only
  split <;> simp
@[simp] theorem State.sendTape_mem (s : State) (due : Nat) (ls : List Loc) (bs : List Byte) : (s.sendTape due ls bs).mem = s.mem := rfl
@[simp] theorem State.homeRecords_mem (s : State) : s.homeRecords.mem = s.mem := by
  unfold State.homeRecords
  dsimp only
  split <;> simp
@[simp] theorem State.mapChanCore_mem (s : State) (ch : Nat) (f : Core → Core) : (s.mapChanCore ch f).mem = s.mem := rfl
@[simp] theorem State.onChan_mem (s : State) (ch : Nat) (f : Chan → Chan) : (s.onChan ch f).mem = s.mem := rfl
@[simp] theorem State.endRecord_mem (s : State) (ch stat : Nat) : (s.endRecord ch stat).mem = s.mem := rfl
@[simp] theorem State.copyError_mem (s : State) (c : Core) (uncorrectable : Bool) (as : List Nat) :
    (s.copyError c uncorrectable as).mem = s.mem := by
  unfold State.copyError
  (repeat' split) <;> simp
theorem State.fetchBytes_mem {s t : State} {ch : Nat} {c : Core} {step a n : Nat} (h : s.fetchBytes ch c step a n = .error t) :
    t.mem = s.mem := by
  unfold State.fetchBytes at h
  dsimp only at h
  split at h
  · cases h
  · split at h <;> cases h <;> simp
@[simp] theorem State.serveValueRead_mem (s : State) (f : FlatReq) (got : List (Loc × Byte)) : (s.serveValueRead f got).1.mem = s.mem := by
  unfold State.serveValueRead
  dsimp only
  (repeat' split) <;> simp
@[simp] theorem State.sendCopy_mem (s : State) (c : Core) (f : FlatOut) : (s.sendCopy c f).mem = s.mem := by simp [State.sendCopy]
theorem State.openProxy_mem (s : State) (port : Nat) (f : FlatReq) (ans : Option (List Byte × Nat)) (send : State → Core → Nat → State)
    (hs : ∀ s c n, (send s c n).mem = s.mem) : (s.openProxy port f ans send).mem = s.mem := hs _ _ _
@[simp] theorem State.forward_mem (s : State) (port : Nat) (f : FlatReq) (m : Nat) : (s.forward port f m).1.mem = s.mem := by
  unfold State.forward
  dsimp only
  (repeat' split) <;> simp
@[simp] theorem State.settleCopy_mem (s : State) (rm : Remote) (j : Nat) (st : FStatus) (data : List Byte) :
    (s.settleCopy rm j st data).mem = s.mem := by
  unfold State.settleCopy
  extract_lets ch wr p s1 s2 bad bytes s3 x
  have h3 : s3.mem = s.mem := by simp [s3, s2, s1]
  split
  · split
    · simp [h3]
    · exact h3
  · split
    · exact h3
    · simp [h3]
@[simp] theorem State.settlePrep_mem (s : State) (rm : Remote) (st : FStatus) (data : List Byte) (info : Nat) :
    (s.settlePrep rm st data info).mem = s.mem := rfl
@[simp] theorem State.settleColl_mem (s : State) (rm : Remote) (st : FStatus) (data : List Byte) : (s.settleColl rm st data).mem = s.mem := rfl
@[simp] theorem State.settleOwn_mem (s : State) (rm : Remote) (st : FStatus) (data : List Byte) (info : Nat) :
    (s.settleOwn rm st data info).mem = s.mem := by
  unfold State.settleOwn
  split <;> simp
@[simp] theorem State.sendReply_mem (s : State) (dmod own ctx : Nat) (ans : Ans) : (s.sendReply dmod own ctx ans).mem = s.mem := by
  unfold State.sendReply
  dsimp only
  split
  · rfl
  · exact State.foldl_mem (fun _ _ => State.sendFlitOf_mem ..) _ _
@[simp] theorem State.answer_mem (s : State) (port : Nat) (f : FlatReq) (ans : Ans) : (s.answer port f ans).mem = s.mem := by
  unfold State.answer
  (repeat' split) <;> simp
@[simp] theorem State.stashes_mem (s : State) : s.stashes.mem = s.mem := by simp [State.stashes]
@[simp] theorem State.captureLoads_mem (s : State) (c : Core) (issue : Nat) (ls : List Loc) : (s.captureLoads c issue ls).mem = s.mem := rfl
@[simp] theorem State.memStore_mem (s : State) (c : Core) (psn : List Nat) (ws : List ByteW) : (s.memStore c psn ws).mem = s.mem := by
  unfold State.memStore
  dsimp only
  rw [State.foldl_mem (fun s k => by simp)]
  exact State.foldl_mem (fun s w => by split <;> simp) _ _
@[simp] theorem State.farStore_mem (s : State) (c : Core) (p : Perf) (ws : List ByteW) :
    (s.farStore c p ws).mem = s.mem := by simp [State.farStore]
@[simp] theorem State.fixRecord_mem (s : State) (c : Core) (r : Req) (off : Nat) : (s.fixRecord c r off).mem = s.mem := by
  unfold State.fixRecord
  dsimp only
  (repeat' split) <;> simp
@[simp] theorem State.performSent_mem (s : State) (c : Core) (p : Perf) : (s.performSent c p).mem = s.mem := by
  unfold State.performSent
  dsimp only
  (repeat' split) <;> simp
@[simp] theorem State.flatStore_mem (s : State) (c : Core) (id : Nat) (r : Req) : (s.flatStore c id r).mem = s.mem := by simp [State.flatStore]
@[simp] theorem State.l1Miss_mem (s : State) (c : Core) (r : Req) : (s.l1Miss c r).mem = s.mem := by simp [State.l1Miss]
@[simp] theorem State.fillFor_mem (s : State) (c : Core) (r : Req) (uncorrectable : Bool) :
    (s.fillFor c r uncorrectable).mem = s.mem := by simp [State.fillFor]
@[simp] theorem State.reply_mem (s : State) (c : Core) (r : Req) (f : Flight) : (s.reply c r f).mem = s.mem := rfl
@[simp] theorem State.dldReply_mem (s : State) (c : Core) (x : Nat) (uncorrectable : Bool) : (s.dldReply c x uncorrectable).mem = s.mem := by
  unfold State.dldReply
  split <;> simp
@[simp] theorem State.askTable_mem (s : State) (rngt : Nat) (ls : List Loc) : (s.askTable rngt ls).mem = s.mem := by simp [State.askTable]
@[simp] theorem State.releaseHeld_mem (s : State) (c : Core) : (s.releaseHeld c).mem = s.mem := rfl
@[simp] theorem State.unwindTrap_mem (s : State) (r : TrapReq) : (s.unwindTrap r).mem = s.mem := by simp [State.unwindTrap]
@[simp] theorem State.assemble_mem (s : State) (f : Flit) (b : FlatReq) : (s.assemble f b).1.mem = s.mem := by
  unfold State.assemble
  dsimp only
  (repeat' split) <;> simp
@[simp] theorem State.collAsk_mem (s : State) (k : Coll) (why : Nat) (ls : List Loc) :
    (s.collAsk k why ls).mem = s.mem := by simp [State.collAsk]
@[simp] theorem State.sendAborts_mem (s : State) (k : Coll) (why : Nat) :
    (s.sendAborts k why).mem = s.mem := State.foldl_mem (fun _ _ => State.sendFlit_mem ..) _ _
@[simp] theorem State.lateRank_mem (s : State) (job rank : Nat) : (s.lateRank job rank).mem = s.mem := by
  unfold State.lateRank
  split <;> simp
theorem State.tagged_mem (s : State) (i tag : Nat) (go : State → State) (hg : ∀ s, (go s).mem = s.mem) :
    (s.tagged i tag go).mem = s.mem := by
  unfold State.tagged
  split
  · rfl
  · simp [hg]
@[simp] theorem State.takeShift_mem (s : State) (job cid tag sender num pl : Nat) : (s.takeShift job cid tag sender num pl).mem = s.mem := by
  unfold State.takeShift
  refine State.foldl_mem (fun s i => ?_) _ _
  split
  · split
    · rfl
    · exact State.tagged_mem _ _ _ _ (fun _ => rfl)
  · rfl
@[simp] theorem State.sendShifts_mem (s : State) (job rank pl : Nat) : (s.sendShifts job rank pl).mem = s.mem := by
  unfold State.sendShifts
  refine State.foldl_mem (fun s i => ?_) _ _
  split
  · rfl
  · split
    · rfl
    · dsimp only
      rw [State.setColl_mem, State.takeShift_mem]
      exact State.foldl_mem (fun _ _ => State.sendFlit_mem ..) _ _
@[simp] theorem State.applyShifts_mem (s : State) (job rank : Nat) : (s.applyShifts job rank).1.mem = s.mem := by
  unfold State.applyShifts
  refine State.foldl_fst_mem (fun x i => ?_) _ _
  split
  · rfl
  · split <;> rfl
@[simp] theorem State.sendHeld_mem (s : State) (job rank : Nat) : (s.sendHeld job rank).mem = s.mem := by simp [State.sendHeld]
@[simp] theorem State.arrivedHere_mem (s : State) (job rank : Nat) (entry : Half) :
    (s.arrivedHere job rank entry).mem = s.mem := by simp [State.arrivedHere]
@[simp] theorem State.authFail_mem (s : State) : s.authFail.mem = s.mem := rfl
@[simp] theorem State.authOk_mem (s : State) : s.authOk.mem = s.mem := rfl
@[simp] theorem State.sendUnit_mem (s : State) (target own job rank unit page : Nat) (bs : List Byte) :
    (s.sendUnit target own job rank unit page bs).mem = s.mem := State.foldl_mem (fun _ _ => State.sendFlit_mem ..) _ _
@[simp] theorem State.applySplit_mem (s : State) : s.applySplit.mem = s.mem := rfl
@[simp] theorem State.startMove_mem (s : State) (j : Job) (r : Rank) (target : Nat) :
    (s.startMove j r target).mem = s.mem := by simp [State.startMove]
@[simp] theorem State.noteGm_mem (s : State) : s.noteGm.mem = s.mem := by simp [State.noteGm]
@[simp] theorem State.drop_mem (s : State) (i : Nat) : (s.drop i).mem = s.mem := rfl
@[simp] theorem State.msix_mem (s : State) (v : Nat) : (s.msix v).mem = s.mem := by simp [State.msix]
@[simp] theorem State.sendPending_mem (s : State) : s.sendPending.mem = s.mem := State.foldl_mem (fun _ _ => State.emit_mem ..) _ _
@[simp] theorem State.interrupt_mem (s : State) (q : Nat) : (s.interrupt q).mem = s.mem := by simp [State.interrupt]
@[simp] theorem State.writeRecord_mem (s : State) (q status qtag seq : Nat) (w1 w2 : Word64) :
    (s.writeRecord q status qtag seq w1 w2).mem = s.mem := rfl
@[simp] theorem State.complete_mem (s : State) (q qtag seq : Nat) (irq : Bool) (status : Nat) (w1 w2 : Word64) :
    (s.complete q qtag seq irq status w1 w2).mem = s.mem := by simp [State.complete]
@[simp] theorem State.haltQueue_mem (s : State) (q code : Nat) : (s.haltQueue q code).mem = s.mem := by simp [State.haltQueue]
theorem State.startPacket_mem (s : State) (op : Nat) (p : Packet) (go : Fetched → State → State) (hg : ∀ f s, (go f s).mem = s.mem) :
    (s.startPacket op p go).mem = s.mem := by
  unfold State.startPacket
  dsimp only
  split <;> simp [hg]
@[simp] theorem State.finishPacket_mem (s : State) (f : Fetched) (status : Nat) :
    (s.finishPacket f status).mem = s.mem := by simp [State.finishPacket]
@[simp] theorem State.placeCores_mem (s : State) (cs : List Core) : (s.placeCores cs).mem = s.mem := rfl
@[simp] theorem State.clearCores_mem (s : State) (job rank : Nat) : (s.clearCores job rank).mem = s.mem := rfl
@[simp] theorem State.notCancellable_mem (s : State) (job rank : Nat) : (s.notCancellable job rank).mem = s.mem := rfl
@[simp] theorem State.saveFootprint_mem (s : State) (job rank status : Nat) : (s.saveFootprint job rank status).mem = s.mem := by
  unfold State.saveFootprint
  dsimp only
  (repeat' split) <;> simp
@[simp] theorem State.dropLaunch_mem (s : State) (l : Launch) : (s.dropLaunch l).mem = s.mem := rfl
@[simp] theorem State.report_mem (s : State) (l : Launch) (status : Nat) (w1 w2 : Word64) :
    (s.report l status w1 w2).mem = s.mem := by simp [State.report]
@[simp] theorem State.freeSeat_mem (s : State) (r : Rank) : (s.freeSeat r).mem = s.mem := by
  unfold State.freeSeat
  split <;> simp
@[simp] theorem State.askPrep_mem (s : State) (job rank : Nat) (ls : List Loc) : (s.askPrep job rank ls).mem = s.mem := by simp [State.askPrep]
@[simp] theorem State.clearPrep_mem (s : State) : s.clearPrep.mem = s.mem := rfl
@[simp] theorem State.addSeat_mem (s : State) (base fpc slice : Nat) : (s.addSeat base fpc slice).mem = s.mem := rfl
@[simp] theorem State.bindSeat_mem (s : State) (r : Rank) : (s.bindSeat r).1.mem = s.mem := by
  unfold State.bindSeat
  dsimp only
  (repeat' split) <;> simp
theorem State.openCold_mem {s t : State} {r : Rank} (h : s.openCold r = some t) : t.mem = s.mem := by
  unfold State.openCold at h
  split at h
  · cases h
  · split at h <;> cases h
    rfl
@[simp] theorem State.dataWrite_mem (s : State) (pasid addr : Nat) (bytes : List Byte) : (s.dataWrite pasid addr bytes).mem = s.mem := rfl
@[simp] theorem State.copyOut_mem (r : Rank) (pasid : Nat) :
    ∀ (l : List (Nat × Nat)) (h : Nat) (s : State), (State.copyOut r pasid l h s).1.mem = s.mem
  | [], _, _ => rfl
  | (va, n) :: rest, h, s => by
    unfold State.copyOut
    split
    · rfl
    · rw [State.copyOut_mem r pasid rest, State.dataWrite_mem]
@[simp] theorem State.writeFsreq_mem (s : State) (v : Word64) : (s.writeFsreq v).mem = s.mem := rfl
@[simp] theorem State.sendSvc_mem (s : State) (r : SvcReq) : (s.sendSvc r).mem = s.mem := by simp [State.sendSvc]
@[simp] theorem State.sendSvcs_mem (s : State) : s.sendSvcs.mem = s.mem := by simp [State.sendSvcs]
@[simp] theorem State.judgePeer_mem (s : State) (object : Word64) (ok : Bool) : (s.judgePeer object ok).mem = s.mem := by simp [State.judgePeer]
@[simp] theorem State.setPeerKey_mem (s : State) (object : Word64) (use : Nat) (key : List Byte) :
    (s.setPeerKey object use key).mem = s.mem := rfl
@[simp] theorem State.raiseSvc_mem (s : State) (r : SvcReq) : (s.raiseSvc r).mem = s.mem := by simp [State.raiseSvc]
@[simp] theorem State.setBeat_mem (s : State) (b : Nat) : (s.setBeat b).mem = s.mem := rfl
@[simp] theorem State.noSuchOp_mem (s : State) (p : Packet) :
    (s.noSuchOp p).mem = s.mem := State.startPacket_mem _ _ _ _ (fun f s => State.finishPacket_mem s f _)
@[simp] theorem State.writeQcfg_mem (s : State) (q : Nat) (v : Word64) : (s.writeQcfg q v).mem = s.mem := by simp [State.writeQcfg]
@[simp] theorem State.closeIf_mem (s : State) (i : Nat) : (s.closeIf i).mem = s.mem := by simp [State.closeIf]
@[simp] theorem State.writeQif_mem (s : State) (i : Nat) (v : Word64) : (s.writeQif i v).mem = s.mem := by simp [State.writeQif]
@[simp] theorem State.setBar0_mem (s : State) (off : Nat) (v : Word64) : (s.setBar0 off v).mem = s.mem := rfl
@[simp] theorem State.quickWrites_mem (s : State) (c : Core) : (s.quickWrites c).mem = s.mem := by
  unfold State.quickWrites
  dsimp only
  split
  · rfl
  · rw [State.mapCore_mem]
    exact State.foldl_mem (fun s w => by split <;> simp) _ _
end Sys2Proof.Machine
end

section
/-! ## What keeps the form of memory (R6, log 2)

The operations of the state that do write memory, in the order of the definitions: from a memory of the canonical form they go to one.
Where a definition folds over a page, the list of its 4096 offsets gets a name first, so that no check of the proof runs through it. -/
namespace Sys2Proof.Machine

@[simp] theorem Memory.ite_wf {p : Prop} [Decidable p] {a b : Memory} :
    (if p then a else b).wf = true ↔ (p → a.wf = true) ∧ (¬p → b.wf = true) := by split <;> simp [*]

theorem State.ite_wf {p : Prop} [Decidable p] {a b : State} (ha : a.mem.wf = true) (hb : b.mem.wf = true) :
    (if p then a else b).mem.wf = true := by split <;> assumption

theorem State.ite_fst_wf {α : Type} {p : Prop} [Decidable p] {a b : State × α} (ha : a.1.mem.wf = true) (hb : b.1.mem.wf = true) :
    (if p then a else b).1.mem.wf = true := by split <;> assumption

theorem State.foldl_wf {α : Type} {f : State → α → State} (hf : ∀ s x, s.mem.wf = true → (f s x).mem.wf = true) (l : List α) (s : State)
    (h : s.mem.wf = true) : (l.foldl f s).mem.wf = true := State.foldl_canonical f hf l s h

@[simp] theorem State.spadWrite_wf (s : State) (ws : List ByteW) (h : s.mem.wf = true) : (s.spadWrite ws).mem.wf = true :=
  State.spadWrite_canonical ws h
@[simp] theorem State.homeWrite_wf (s : State) (a : Nat) (m v : Byte) (h : s.mem.wf = true) : (s.homeWrite a m v).mem.wf = true :=
  State.homeWrite_canonical a m v h
@[simp] theorem State.homeWrites_wf (s : State) (ws : List ByteW) (h : s.mem.wf = true) : (s.homeWrites ws).mem.wf = true :=
  State.homeWrites_canonical ws h
@[simp] theorem State.writeBack_wf (s : State) (die sector : Nat) (h : s.mem.wf = true) : (s.writeBack die sector).mem.wf = true :=
  State.writeBack_canonical die sector h
@[simp] theorem State.serveRaw_wf (s : State) (f : FlatReq) (got : List (Loc × Byte)) (h : s.mem.wf = true) :
    (s.serveRaw f got).1.mem.wf = true := by
  unfold State.serveRaw
  dsimp only
  split
  · exact h
  · split
    · split
      · exact h
      · split
        · refine State.foldl_wf (fun s w h => ?_) _ _ (by simp [h])
          split <;> simp [h]
        · simp [h]
    · split <;> exact h
@[simp] theorem State.serveAccess_wf (s : State) (f : FlatReq) (got : List (Loc × Byte)) (h : s.mem.wf = true) :
    (s.serveAccess f got).1.mem.wf = true := by
  unfold State.serveAccess
  dsimp only
  (repeat' split) <;> simp [h]
@[simp] theorem State.throughWrite_wf (s : State) (die : Nat) (ws : List ByteW) (poison : Bool) (h : s.mem.wf = true) :
    (s.throughWrite die ws poison).mem.wf = true := by
  unfold State.throughWrite
  refine State.foldl_wf (fun s k h => by simp [h]) _ _ ?_
  refine State.foldl_wf (fun s w h => ?_) _ _ (by simp [h])
  split
  · split <;> simp [h]
  · exact h
@[simp] theorem State.serveValueWrite_wf (s : State) (f : FlatReq) (h : s.mem.wf = true) : (s.serveValueWrite f).1.mem.wf = true := by
  unfold State.serveValueWrite
  dsimp only
  (repeat' split) <;> simp [h]
@[simp] theorem State.serveRawAtomic_wf (s : State) (f : FlatReq) (h : s.mem.wf = true) : (s.serveRawAtomic f).1.mem.wf = true := by
  unfold State.serveRawAtomic
  dsimp only
  (repeat' split) <;> simp [h]
@[simp] theorem State.serveWith_wf (s : State) (f : FlatReq) (got : List (Loc × Byte)) (h : s.mem.wf = true) :
    (s.serveWith f got).1.mem.wf = true := by
  unfold State.serveWith
  (repeat' split) <;> simp [h]
@[simp] theorem State.serveHere_wf (s : State) (port : Nat) (f : FlatReq) (h : s.mem.wf = true) : (s.serveHere port f).1.mem.wf = true := by
  have hw := State.serveWith_wf s f [] h
  unfold State.serveHere
  dsimp only
  split
  · exact h
  · split
    · rwa [State.openProxy_mem _ _ _ _ _ (fun s c n => State.askBytes_mem ..)]
    · split
      · exact hw
      · rw [State.openProxy_mem _ _ _ _ _ (fun s c n => by simp)]
        exact hw
@[simp] theorem State.serveFlat_wf (s : State) (port : Nat) (f : FlatReq) (h : s.mem.wf = true) : (s.serveFlat port f).1.mem.wf = true := by
  unfold State.serveFlat
  split
  · exact State.serveHere_wf s port f h
  · split
    · simp [h]
    · refine State.ite_fst_wf h ?_
      split
      · rename_i x hx
        rwa [State.metAtTarget_mem hx]
      · exact State.serveHere_wf s port f h
@[simp] theorem State.serve_wf (s : State) (port : Nat) (f : FlatReq) (h : s.mem.wf = true) : (s.serve port f).mem.wf = true := by
  have hf := State.serveFlat_wf s port f h
  unfold State.serve
  dsimp only
  split
  · rwa [State.answer_mem]
  · exact hf
@[simp] theorem State.proxyAnswer_wf (s : State) (p : Proxy) (h : s.mem.wf = true) : (s.proxyAnswer p).1.mem.wf = true := by
  have hw := State.serveWith_wf s p.req p.got h
  unfold State.proxyAnswer
  dsimp only
  split
  · exact h
  · split <;> split <;> assumption
@[simp] theorem State.settleProxy_wf (s : State) (rm : Remote) (st : FStatus) (data : List Byte) (info : Nat) (h : s.mem.wf = true) :
    (s.settleProxy rm st data info).mem.wf = true := by
  unfold State.settleProxy
  dsimp only
  split
  · exact h
  · split
    · exact h
    · rw [State.answer_mem]
      exact State.proxyAnswer_wf _ _ h
@[simp] theorem State.settle_wf (s : State) (rm : Remote) (st : FStatus) (data : List Byte) (info : Nat) (h : s.mem.wf = true) :
    (s.settle rm st data info).mem.wf = true := by simp [State.settle, h]
@[simp] theorem State.switchBank_wf (s : State) (n mode : Nat) (h : s.mem.wf = true) : (s.switchBank n mode).mem.wf = true := by
  unfold State.switchBank
  dsimp only
  split
  · exact h
  · simp [h, Memory.blur_wf]
@[simp] theorem State.sendBytes_wf (s : State) (c : Core) (p : Perf) (ws : List ByteW) (h : s.mem.wf = true) :
    (s.sendBytes c p ws).mem.wf = true := by simp [State.sendBytes, h]
@[simp] theorem State.performReq_wf (s : State) (c : Core) (r : Req) (own : List ByteW) (h : s.mem.wf = true) :
    (s.performReq c r own).mem.wf = true := by
  unfold State.performReq
  dsimp only
  (repeat' split) <;> simp [h]
@[simp] theorem State.performOne_wf (s : State) (p : Perf) (h : s.mem.wf = true) : (s.performOne p).mem.wf = true := by
  unfold State.performOne
  extract_lets s1 c s2
  have h2 : s2.mem.wf = true := h
  split
  · rename_i s3 _
    rw [State.performSent_mem]
    dsimp only [s3]
    split <;> simp [h2]
  · split
    · simp [h2]
    · split
      · dsimp only
        refine State.ite_wf (by simp [h2]) (State.ite_wf (by simp [h2]) (State.ite_wf (by simp [h2]) ?_))
        refine State.sendBytes_wf _ _ _ _ (State.ite_wf (by simp [h2]) (by simp [h2]))
      · split
        · exact h2
        · dsimp only
          exact State.ite_wf (by simp [h2]) (State.ite_wf (by simp [h2]) (by simp [h2]))
@[simp] theorem State.performStore_wf (s : State) (p : Perf) (h : s.mem.wf = true) : (s.performStore p).mem.wf = true := by
  unfold State.performStore
  dsimp only
  (repeat' split) <;> simp [h]
@[simp] theorem State.serveFlit_wf (s : State) (f : Flit) (kind : FlatKind) (h : s.mem.wf = true) : (s.serveFlit f kind).mem.wf = true := by
  unfold State.serveFlit
  split
  · simp [h]
  · dsimp only
    rename_i b _
    have ha := State.assemble_mem s f { b with job := f.job, smod := fSmod f, req := fCtx f, tag := fTag f }
    split
    · rename_i t bs ht
      rw [ht] at ha
      exact State.serve_wf t _ _ (by rw [ha]; exact h)
    · rename_i t ht
      rw [ht] at ha
      rw [ha]
      exact h
@[simp] theorem State.collPut_wf (s : State) (k : Coll) (xs : List (Spot × Byte)) (h : s.mem.wf = true) : (s.collPut k xs).mem.wf = true := by
  unfold State.collPut
  dsimp only
  split <;> simp [h]
@[simp] theorem State.collBlur_wf (s : State) (k : Coll) (n : Nat) (x0 : Spot) (h : s.mem.wf = true) : (s.collBlur k n x0).mem.wf = true := by
  unfold State.collBlur
  split
  · split
    · exact h
    · exact Memory.blur_wf _ _ _ _ h
  · split <;> exact h
@[simp] theorem State.writeFlag_wf (s : State) (i : Nat) (k : Coll) (w : Word64) (h : s.mem.wf = true) :
    (s.writeFlag i k w).mem.wf = true := by simp [State.writeFlag, h]
@[simp] theorem State.blurColl_wf (s : State) (k : Coll) (h : s.mem.wf = true) : (s.blurColl k).mem.wf = true := by
  unfold State.blurColl
  refine State.foldl_wf (fun s x h => ?_) _ _ h
  split
  · exact State.collBlur_wf _ _ _ _ h
  · exact h
@[simp] theorem State.failAt_wf (s : State) (i why : Nat) (h : s.mem.wf = true) : (s.failAt i why).mem.wf = true := by
  unfold State.failAt
  dsimp only
  (repeat' split) <;> simp [h]
theorem State.tagged_wf (s : State) (i tag : Nat) (go : State → State) (hg : ∀ s, s.mem.wf = true → (go s).mem.wf = true)
    (h : s.mem.wf = true) : (s.tagged i tag go).mem.wf = true := by
  unfold State.tagged
  split
  · exact h
  · split
    · exact hg s h
    · simp [h]
@[simp] theorem State.abortHere_wf (s : State) (is : List Nat) (tag why : Nat) (h : s.mem.wf = true) :
    (s.abortHere is tag why).mem.wf = true := by
  unfold State.abortHere
  exact State.foldl_wf (fun s i h => State.tagged_wf s i tag _ (fun s h => State.failAt_wf s i _ h) h) _ _ h
@[simp] theorem State.failColl_wf (s : State) (i why : Nat) (h : s.mem.wf = true) : (s.failColl i why).mem.wf = true := by
  unfold State.failColl
  dsimp only
  (repeat' split) <;> simp [h]
@[simp] theorem State.failRank_wf (s : State) (job rank why : Nat) (h : s.mem.wf = true) : (s.failRank job rank why).mem.wf = true := by
  unfold State.failRank
  refine State.foldl_wf (fun s i h => ?_) _ _ h
  split
  · split <;> simp [h]
  · exact h
@[simp] theorem State.killPort_wf (s : State) (n : Nat) (h : s.mem.wf = true) : (s.killPort n).mem.wf = true := by
  unfold State.killPort
  refine State.foldl_wf (fun s i h => ?_) _ _ (State.foldl_wf (fun s x h => State.settle_wf s x 5 [] 0 h) _ _ h)
  split
  · split <;> simp [h]
  · exact h
@[simp] theorem State.collPlace_wf (s : State) (i chunk slot off tag : Nat) (data : List Byte) (h : s.mem.wf = true) :
    (s.collPlace i chunk slot off tag data).mem.wf = true := by
  unfold State.collPlace
  split
  · exact h
  · refine State.ite_wf h (State.tagged_wf s i tag _ (fun s h => ?_) h)
    dsimp only
    split
    · exact State.failColl_wf s i 6 h
    · exact State.ite_wf (State.failColl_wf s i 6 h) (State.ite_wf (State.failColl_wf s i 8 h) (State.collPut_wf s _ _ h))
@[simp] theorem State.strayFlit_wf (s : State) (job rank cid tag smod : Nat) (h : s.mem.wf = true) :
    (s.strayFlit job rank cid tag smod).mem.wf = true := by
  unfold State.strayFlit
  dsimp only
  split
  · have hf := State.foldl_wf (fun s i h => State.failColl_wf s i 4 h) (s.collsWith job cid) s h
    split <;> simp [hf]
  · split <;> simp [h]
@[simp] theorem State.landTransfers_wf (s : State) (h : s.mem.wf = true) : s.landTransfers.mem.wf = true := by
  unfold State.landTransfers
  refine State.foldl_wf (fun s x h => ?_) _ _ h
  split <;> simp [h]
@[simp] theorem State.collSend_wf (s : State) (me : Nat) (k : Coll) (dmem chunk slot off : Nat) (data : List Byte) (h : s.mem.wf = true) :
    (s.collSend me k dmem chunk slot off data).mem.wf = true := by
  unfold State.collSend
  dsimp only
  split
  · exact h
  · split
    · exact State.failColl_wf s me 3 h
    · rw [State.foldl_mem (fun _ _ => State.sendFlitOf_mem ..)]
      split <;> simp [h]
@[simp] theorem State.putEntry_wf (s : State) (pa e : Nat) (h : s.mem.wf = true) :
    (s.putEntry pa e).mem.wf = true := State.foldl_wf (fun s i h => State.homeWrite_wf s (pa + i) _ _ h) _ s h
theorem State.mapMoved_wf (own page : Nat) (level table : Nat) (s : State) (h : s.mem.wf = true) :
    (State.mapMoved own page level table s).mem.wf = true := by
  induction level generalizing table s with
  | zero =>
    unfold State.mapMoved
    dsimp only
    split
    · exact h
    · split
      · refine State.ite_wf h (State.ite_wf ?_ (State.putEntry_wf _ _ _ h))
        exact State.foldl_wf (fun s i h => State.putEntry_wf s _ _ h) _ _ h
      · exact State.putEntry_wf _ _ _ h
  | succ k ih =>
    unfold State.mapMoved
    obtain ⟨bytes, hb⟩ : ∃ l, List.range 4096 = l := ⟨_, rfl⟩
    rw [hb]
    dsimp only
    split
    · exact h
    · split
      · refine State.ite_wf h (State.ite_wf ?_ (State.putEntry_wf _ _ _ h))
        exact State.foldl_wf (fun s i h => State.putEntry_wf s _ _ h) _ _ h
      · refine State.ite_wf (ih _ s h) (ih _ _ (State.putEntry_wf _ _ _ ?_))
        exact State.foldl_wf (fun s i h => State.homeWrite_wf s _ _ _ h) _ _ h
@[simp] theorem State.serveMoved_wf (s : State) (job rank : Nat) (h : s.mem.wf = true) :
    (s.serveMoved job rank).mem.wf = true := State.foldl_wf (fun s x h => State.serve_wf s x.1 x.2 h) _ _ h
@[simp] theorem State.endMove_wf (s : State) (j : Job) (r : Rank) (target : Nat) (h : s.mem.wf = true) :
    (s.endMove j r target).mem.wf = true := State.serveMoved_wf _ _ _ (State.foldl_wf (fun s x h => State.homeWrite_wf s x.at_ _ _ h) _ s h)
@[simp] theorem State.putFootprint_wf (s : State) (b n : Nat) (im : Image) (h : s.mem.wf = true) :
    (s.putFootprint b n im).mem.wf = true := Memory.fill_wf _ _ _ _ _ h
@[simp] theorem State.blurSeat_wf (s : State) (b n : Nat) (h : s.mem.wf = true) : (s.blurSeat b n).mem.wf = true := Memory.blur_wf _ _ _ _ h
@[simp] theorem State.bury_wf (s : State) (r : Rank) (active : Bool) (h : s.mem.wf = true) : (s.bury r active).mem.wf = true := by
  unfold State.bury
  dsimp only
  (repeat' split) <;> simp [h]
@[simp] theorem State.killContext_wf (s : State) (l : Launch) (status : Nat) (now : Bool) (h : s.mem.wf = true) :
    (s.killContext l status now).mem.wf = true := by
  unfold State.killContext
  dsimp only
  (repeat' split) <;> simp [h]
@[simp] theorem State.switchedOut_wf (s : State) (job rank : Nat) (h : s.mem.wf = true) : (s.switchedOut job rank).mem.wf = true := by
  unfold State.switchedOut
  dsimp only
  (repeat' split) <;> simp [h]
@[simp] theorem State.coreSaved_wf (s : State) (c : Core) (h : s.mem.wf = true) : (s.coreSaved c).mem.wf = true := by simp [State.coreSaved, h]
@[simp] theorem State.endTrapped_wf (s : State) (l : Launch) (h : s.mem.wf = true) : (s.endTrapped l).mem.wf = true := by
  unfold State.endTrapped
  dsimp only
  (repeat' split) <;> simp [h]
@[simp] theorem State.parkRank_wf (s : State) (r : Rank) (h : s.mem.wf = true) : (s.parkRank r).mem.wf = true := by
  unfold State.parkRank
  dsimp only
  split <;> simp [h]
@[simp] theorem State.setBanksOf_wf (s : State) (clus core mode : Nat) (qf : List Word64) (h : s.mem.wf = true) :
    (s.setBanksOf clus core mode qf).mem.wf = true := by
  unfold State.setBanksOf
  refine State.foldl_wf (fun s n h => ?_) _ _ h
  split
  · exact h
  · split
    · exact h
    · exact Memory.blur_wf _ _ _ _ h
@[simp] theorem State.startContext_wf (s : State) (l : Launch) (entry : Nat) (h : s.mem.wf = true) : (s.startContext l entry).mem.wf = true := by
  unfold State.startContext
  split
  · exact h
  · split
    · exact h
    · dsimp only
      have hp := fun l => State.foldl_wf (fun s x h => State.parkRank_wf s x h) l s h
      split
      · split <;> simp [hp]
      · rw [State.placeCores_mem, State.setLaunch_mem, State.setRank_mem]
        split
        · exact State.foldl_wf (fun s c h => State.setBanksOf_wf s _ _ _ _ h) _ _ (by split <;> simp [hp])
        · split <;> simp [hp]
@[simp] theorem State.arm_wf (s : State) (r : Rank) (l : Launch) (b : Nat) (p : Prepared) (h : s.mem.wf = true) :
    (s.arm r l b p).mem.wf = true := by
  unfold State.arm
  dsimp only
  refine State.foldl_wf (fun s i h => ?_) _ _ ?_
  · split
    · split <;> simp [h]
    · exact h
  · split
    · split <;> simp [h]
    · exact State.startContext_wf _ _ _ h
@[simp] theorem State.launch_wf (s : State) (f : Fetched) (h : s.mem.wf = true) : (s.launch f).mem.wf = true := by
  unfold State.launch
  dsimp only
  split
  · simp [h]
  · split
    · simp [h]
    · split
      · simp [h]
      · rename_i r _ _ s1 hs1
        have h1 : s1.mem.wf = true := by
          split at hs1
          · rwa [State.openCold_mem hs1]
          · cases hs1; exact h
        split
        · simp [h]
        · exact State.arm_wf _ _ _ _ _ (by simp [h1])
theorem State.unpark_wf {s t : State} {r : Rank} (h : s.mem.wf = true) (ht : s.unpark r = some t) : t.mem.wf = true := by
  unfold State.unpark at ht
  dsimp only at ht
  split at ht
  · split at ht
    · cases ht
    · cases ht
      exact State.putFootprint_wf _ _ _ _ (State.foldl_wf (fun s y h => State.parkRank_wf s y h) _ _ (by simp [h]))
  · cases ht
@[simp] theorem State.sealCold_wf (s : State) (r : Rank) (h : s.mem.wf = true) : (s.sealCold r).mem.wf = true := by
  unfold State.sealCold
  dsimp only
  rw [State.setRank_mem]
  exact State.foldl_wf (fun s x h => State.homeWrite_wf s _ _ x.2 h) _ s h
theorem State.copyIn_wf (r : Rank) : ∀ (l : List (Nat × Nat)) (bs : List Byte) (s : State), s.mem.wf = true →
    (State.copyIn r l bs s).1.mem.wf = true
  | [], _, _, h => h
  | (va, n) :: rest, bs, s, h => by
    unfold State.copyIn
    split
    · exact h
    · split
      · exact h
      · exact State.copyIn_wf r rest _ _ (State.foldl_wf (fun s x h => State.homeWrite_wf s _ _ x.2 h) _ s h)
@[simp] theorem State.selfServe_wf (s : State) (r : SvcReq) (h : s.mem.wf = true) : (s.selfServe r).mem.wf = true := by
  unfold State.selfServe
  split
  · simp [h]
  · simp [h]
  · split
    · simp [h]
    · exact h
  · exact h
@[simp] theorem State.applyDecision_wf (s : State) (p : Packet) (f : Nat) (object : Word64) (w : Nat) (h : s.mem.wf = true) :
    (s.applyDecision p f object w).1.mem.wf = true := by
  unfold State.applyDecision
  obtain ⟨page, hp⟩ : ∃ l, List.range 4096 = l := ⟨_, rfl⟩
  rw [hp]
  dsimp only
  split
  · (repeat' split) <;> simp [h]
  · (repeat' split) <;> simp [h]
  · split
    · exact State.foldl_wf (fun s i h => State.homeWrite_wf s _ _ _ h) page s h
    · split <;> exact h
  · split <;> simp [h]
  · (repeat' split) <;> simp [h]
  · (repeat' split) <;> simp [h]
@[simp] theorem State.killAll_wf (s : State) (status : Nat) (now : Bool) (h : s.mem.wf = true) : (s.killAll status now).mem.wf = true := by
  unfold State.killAll
  refine State.foldl_wf (fun s l h => ?_) _ _ h
  split
  · split <;> simp [h]
  · exact h
@[simp] theorem State.alarmTwo_wf (s : State) (h : s.mem.wf = true) : s.alarmTwo.mem.wf = true := by simp [State.alarmTwo, h]
@[simp] theorem State.raiseAlarm_wf (s : State) (src level : Nat) (h : s.mem.wf = true) :
    (s.raiseAlarm src level).mem.wf = true := by simp [State.raiseAlarm, h]
@[simp] theorem State.retirePage_wf (s : State) (pg : Nat) (h : s.mem.wf = true) :
    (s.retirePage pg).mem.wf = true := Memory.blur_wf _ _ _ _ (State.foldl_wf (fun s x h => State.putEntry_wf s x.at_ _ h) (s.mappers pg) s h)
@[simp] theorem State.failShifts_wf (s : State) (ks : List Nat) (h : s.mem.wf = true) :
    (s.failShifts ks).mem.wf = true := State.foldl_wf (fun s n h => State.failColl_wf s n 5 h) ks s h
@[simp] theorem State.evict_wf (s : State) (h : s.mem.wf = true) : s.evict.mem.wf = true := by
  unfold State.evict
  split
  · exact h
  · rw [State.settleStores_mem]
    refine State.foldl_wf (fun s die h => ?_) _ _ h
    refine State.foldl_wf (fun s n h => ?_) _ _ h
    exact State.foldl_wf (fun s k h => by simp [h]) _ _ h
@[simp] theorem State.tick_wf (s : State) (h : s.mem.wf = true) : s.tick.mem.wf = true := by
  unfold State.tick
  extract_lets s1 s2 s3 s4 s5
  have h1 : s1.mem.wf = true := State.ite_wf (State.alarmTwo_wf s h) h
  have h3 : s3.mem.wf = true := by simp [s3, s2, h1]
  have h5 : s5.mem.wf = true := State.landTransfers_wf _ (by simp [s4, h3])
  split
  · exact h5
  · exact h5
end Sys2Proof.Machine
end

section
/-! ## The rows outside the slots keep the form of memory (R6, log 2) -/
namespace Sys2Proof.Machine

/-- The outcome of an instruction, where it is a next state, has a memory of the canonical form. -/
def NextWf (r : Result) : Prop := ∀ t, r = .next t → t.mem.wf = true

@[simp] theorem nextWf_next (s : State) : NextWf (.next s) ↔ s.mem.wf = true := ⟨fun h => h s rfl, fun h t ht => by cases ht; exact h⟩
@[simp] theorem nextWf_fault (f : Fault) : NextWf (.fault f) := fun _ ht => nomatch ht
@[simp] theorem nextWf_ite {p : Prop} [Decidable p] {a b : Result} : NextWf (if p then a else b) ↔ (p → NextWf a) ∧ (¬p → NextWf b) := by
  split <;> simp [*]
theorem NextWf.ite {p : Prop} [Decidable p] {a b : Result} (ha : NextWf a) (hb : NextWf b) : NextWf (if p then a else b) :=
  nextWf_ite.mpr ⟨fun _ => ha, fun _ => hb⟩

theorem State.arrive_wf (s : State) (f : Flit) (kind : Nat) (go : State → State) (hg : ∀ s, s.mem.wf = true → (go s).mem.wf = true)
    (h : s.mem.wf = true) : NextWf (s.arrive f kind go) := by
  unfold State.arrive
  simp [h, hg]
theorem State.startPacket_wf (s : State) (op : Nat) (p : Packet) (go : Fetched → State → State)
    (hg : ∀ f s, s.mem.wf = true → (go f s).mem.wf = true) (h : s.mem.wf = true) : (s.startPacket op p go).mem.wf = true := by
  unfold State.startPacket
  dsimp only
  split <;> simp [h, hg]
theorem packetRow_wf (op : Nat) (p : Packet) (s : State) (go : Fetched → State → State) (hg : ∀ f s, s.mem.wf = true → (go f s).mem.wf = true)
    (h : s.mem.wf = true) : NextWf (packetRow op p s go) := by
  simp [packetRow, State.startPacket_wf s op p go hg h]
theorem rankRow_wf (op : Nat) (p : Packet) (s : State) (go : Rank → Fetched → State → State)
    (hg : ∀ r f s, s.mem.wf = true → (go r f s).mem.wf = true) (h : s.mem.wf = true) : NextWf (rankRow op p s go) := by
  refine packetRow_wf op p s _ (fun f s h => ?_) h
  split
  · simp [h]
  · exact hg _ f s h

theorem execDldCompletion_wf (s : State) (h : s.mem.wf = true) : NextWf (execDldCompletion s) := by
  unfold execDldCompletion
  dsimp only
  (repeat' split) <;> simp [h]
theorem execTapeSpill_wf (s : State) (h : s.mem.wf = true) : NextWf (execTapeSpill s) := by
  unfold execTapeSpill
  dsimp only
  (repeat' split) <;> simp [h]
theorem execTapeRefill_wf (s : State) (h : s.mem.wf = true) : NextWf (execTapeRefill s) := by
  unfold execTapeRefill
  extract_lets c a hi lo r
  refine NextWf.ite ?_ (by simpa using h)
  split
  · simpa using h
  · extract_lets away
    split
    · split
      · simpa using h
      · simpa using h
    · split
      · simpa using h
      · simpa using h
theorem execRecordFetch_wf (ch : Nat) (uncorrectable : Bool) (s : State) (h : s.mem.wf = true) :
    NextWf (execRecordFetch ch uncorrectable s) := by
  unfold execRecordFetch
  refine NextWf.ite (nextWf_fault _) ?_
  extract_lets c0 x
  split
  · refine NextWf.ite (by simpa using h) (NextWf.ite (by simpa using h) ?_)
    extract_lets c
    refine NextWf.ite (by simpa using h) ?_
    split
    · simpa using h
    · refine NextWf.ite (by simpa using h) ?_
      split
      · rename_i ht
        simpa [State.fetchBytes_mem ht] using h
      · refine NextWf.ite (by simpa using h) ?_
        extract_lets ws r cu run keep
        refine NextWf.ite (by simpa using h) ?_
        refine NextWf.ite (by simpa using h) (NextWf.ite (by simpa [run] using h) ?_)
        split
        · simpa using h
        · refine NextWf.ite (by simpa using h) (NextWf.ite (by simpa using h) ?_)
          split
          · rename_i ht
            simpa [State.fetchBytes_mem ht] using h
          · exact NextWf.ite (by simpa using h) (NextWf.ite (by simpa using h) (by simpa [run] using h))
  · simpa using h
theorem execChunkRead_wf (ch : Nat) (uncorrectable : Bool) (s : State) (h : s.mem.wf = true) : NextWf (execChunkRead ch uncorrectable s) := by
  unfold execChunkRead
  dsimp only
  (repeat' split) <;> simp [h]
theorem execChunkWrite_wf (ch : Nat) (s : State) (h : s.mem.wf = true) : NextWf (execChunkWrite ch s) := by
  unfold execChunkWrite
  dsimp only
  (repeat' split) <;> simp [h]
theorem execRecordComplete_wf (ch : Nat) (s : State) (h : s.mem.wf = true) : NextWf (execRecordComplete ch s) := by
  unfold execRecordComplete
  dsimp only
  (repeat' split) <;> simp [h]
theorem execCopyRecordTimeout_wf (ch : Nat) (s : State) (h : s.mem.wf = true) : NextWf (execCopyRecordTimeout ch s) := by
  unfold execCopyRecordTimeout
  dsimp only
  (repeat' split) <;> simp [h]
theorem execCstopEffect_wf (ch : Nat) (s : State) (h : s.mem.wf = true) : NextWf (execCstopEffect ch s) := by
  unfold execCstopEffect
  dsimp only
  (repeat' split) <;> simp [h]
theorem execFifoChunkRelease_wf (ch : Nat) (s : State) (h : s.mem.wf = true) : NextWf (execFifoChunkRelease ch s) := by
  unfold execFifoChunkRelease
  dsimp only
  (repeat' split) <;> simp [h]
theorem execBankModeSwitch_wf (s : State) (h : s.mem.wf = true) : NextWf (execBankModeSwitch s) := by
  unfold execBankModeSwitch
  split <;> simp [h]
theorem execResultDelivery_wf (s : State) (h : s.mem.wf = true) : NextWf (execResultDelivery s) := by simp [execResultDelivery, h]
theorem execStorePerform_wf (s : State) (h : s.mem.wf = true) : NextWf (execStorePerform s) := by
  unfold execStorePerform
  refine NextWf.ite ?_ ?_
  · exact (nextWf_next _).mpr (State.foldl_wf (fun s p h => State.performStore_wf s p h) _ s h)
  · exact (nextWf_next _).mpr (State.foldl_wf (fun s x h => State.performReq_wf s _ x.2 _ h) _ s h)
theorem execStrelPerform_wf (s : State) (h : s.mem.wf = true) : NextWf (execStrelPerform s) := by
  unfold execStrelPerform
  split <;> simp [h]
theorem execFenceComplete_wf (s : State) (h : s.mem.wf = true) : NextWf (execFenceComplete s) := by
  unfold execFenceComplete
  split <;> simp [h]
theorem execFenceTimeout_wf (s : State) (h : s.mem.wf = true) : NextWf (execFenceTimeout s) := by
  unfold execFenceTimeout
  split
  · simp [h]
  · dsimp only
    refine NextWf.ite (by simp [h]) ((nextWf_next _).mpr ?_)
    exact State.foldl_wf (fun s x h => by simp [h]) _ _ h
theorem execStoreFailureReport_wf (id status port : Nat) (s : State) (h : s.mem.wf = true) :
    NextWf (execStoreFailureReport id status port s) := by
  unfold execStoreFailureReport
  dsimp only
  split <;> simp [h]
theorem execVariableLoadReply_wf (id : Nat) (uncorrectable : Bool) (s : State) (h : s.mem.wf = true) :
    NextWf (execVariableLoadReply id uncorrectable s) := by
  unfold execVariableLoadReply
  dsimp only
  (repeat' split) <;> simp [h]
theorem execLoadTimeout_wf (id : Nat) (s : State) (h : s.mem.wf = true) : NextWf (execLoadTimeout id s) := by
  unfold execLoadTimeout
  dsimp only
  split <;> simp [h]
theorem execHomeAtomic_wf (id : Nat) (uncorrectable : Bool) (s : State) (h : s.mem.wf = true) :
    NextWf (execHomeAtomic id uncorrectable s) := by
  unfold execHomeAtomic
  extract_lets c die
  split
  · simpa using h
  · refine NextWf.ite (by simpa using h) ?_
    extract_lets els locs secs sick bad s1 s2 set s3 old x cut s4 s5
    have h1 : s1.mem.wf = true := State.foldl_wf (fun s k h => State.writeBack_wf s die k h) secs s h
    have h2 : s2.mem.wf = true := by
      refine State.ite_wf ?_ h1
      rwa [State.foldl_mem (fun s k => State.poisonPage_mem s (k * 128))]
    have h3 : s3.mem.wf = true := by simpa [s3] using h2
    have h4 : s4.mem.wf = true := State.ite_wf h3 (by
      rw [State.mapCore_mem]
      exact State.homeWrites_wf s3 x.1 h3)
    have h5 : s5.mem.wf = true := by
      rwa [State.foldl_mem (fun s k => State.dropSector_mem s die k)]
    clear_value bad
    cases bad with
    | some a => exact (nextWf_next _).mpr (State.ite_wf (by simpa using h2) (by simpa [set] using h2))
    | none =>
      rw [nextWf_next, State.settleStores_mem]
      exact State.ite_wf (by simpa using h5) (by simpa [set] using h5)
theorem execL2Fill_wf (die sector : Nat) (uncorrectable : Bool) (s : State) (h : s.mem.wf = true) :
    NextWf (execL2Fill die sector uncorrectable s) := by simp [execL2Fill, h]
theorem execL2Writeback_wf (die sector : Nat) (uncorrectable : Bool) (s : State) (h : s.mem.wf = true) :
    NextWf (execL2Writeback die sector uncorrectable s) := by simp [execL2Writeback, h]
theorem execTranslationWalk_wf (addr : Nat) (s : State) (h : s.mem.wf = true) : NextWf (execTranslationWalk addr s) := by
  unfold execTranslationWalk
  dsimp only
  split <;> simp [h]
theorem execTurnstileFire_wf (k : Nat) (s : State) (h : s.mem.wf = true) : NextWf (execTurnstileFire k s) := by
  unfold execTurnstileFire
  dsimp only
  (repeat' split) <;> simp [h]
theorem execTombolaReloadDone_wf (s : State) (h : s.mem.wf = true) : NextWf (execTombolaReloadDone s) := by
  unfold execTombolaReloadDone
  dsimp only
  (repeat' split) <;> simp [h]
theorem execWaitEnd_wf (s : State) (h : s.mem.wf = true) : NextWf (execWaitEnd s) := by
  unfold execWaitEnd
  dsimp only
  (repeat' split) <;> simp [h]
theorem execTrapEntry_wf (s : State) (h : s.mem.wf = true) : NextWf (execTrapEntry s) := by
  unfold execTrapEntry
  dsimp only
  (repeat' split) <;> simp [h]
theorem execBeatOverrun_wf (s : State) (h : s.mem.wf = true) : NextWf (execBeatOverrun s) := by simp [execBeatOverrun, h]
theorem execWriteRequestFlit_wf (f : Flit) (s : State) (h : s.mem.wf = true) : NextWf (execWriteRequestFlit f s) := by
  unfold execWriteRequestFlit
  refine State.arrive_wf s f _ _ (fun s h => ?_) h
  simp [h]
theorem execReadRequestFlit_wf (f : Flit) (s : State) (h : s.mem.wf = true) : NextWf (execReadRequestFlit f s) := by
  unfold execReadRequestFlit
  refine State.arrive_wf s f _ _ (fun s h => ?_) h
  simp [h]
theorem execAtomicRequestFlit_wf (f : Flit) (s : State) (h : s.mem.wf = true) : NextWf (execAtomicRequestFlit f s) := by
  unfold execAtomicRequestFlit
  refine State.arrive_wf s f _ _ (fun s h => ?_) h
  simp [h]
theorem execReplyFlit_wf (f : Flit) (s : State) (h : s.mem.wf = true) : NextWf (execReplyFlit f s) := by
  unfold execReplyFlit
  refine State.arrive_wf s f _ _ (fun s h => ?_) h
  dsimp only
  split <;> simp [h]
theorem execFlatAccessAtTarget_wf (r : FlatReq) (s : State) (h : s.mem.wf = true) : NextWf (execFlatAccessAtTarget r s) := by
  unfold execFlatAccessAtTarget
  split <;> simp [h]
theorem execLinkRetry_wf (port : Nat) (s : State) (h : s.mem.wf = true) : NextWf (execLinkRetry port s) := by simp [execLinkRetry, h]
theorem execLinkSilenceTimeout_wf (port : Nat) (s : State) (h : s.mem.wf = true) :
    NextWf (execLinkSilenceTimeout port s) := by simp [execLinkSilenceTimeout, h]
theorem execLinkBringUp_wf (port flight : Nat) (s : State) (h : s.mem.wf = true) :
    NextWf (execLinkBringUp port flight s) := by simp [execLinkBringUp, h]
theorem execBeatFlit_wf (f : Flit) (s : State) (h : s.mem.wf = true) : NextWf (execBeatFlit f s) := by
  unfold execBeatFlit
  refine State.arrive_wf s f _ _ (fun s h => ?_) h
  simp [h]
theorem execCollectiveDataFlit_wf (f : Flit) (s : State) (h : s.mem.wf = true) : NextWf (execCollectiveDataFlit f s) := by
  unfold execCollectiveDataFlit
  refine State.arrive_wf s f _ _ (fun s h => ?_) h
  dsimp only
  split <;> simp [h]
theorem execAbortFlit_wf (f : Flit) (s : State) (h : s.mem.wf = true) : NextWf (execAbortFlit f s) := by
  unfold execAbortFlit
  refine State.arrive_wf s f _ _ (fun s h => ?_) h
  simp [h]
theorem execShiftFlit_wf (f : Flit) (s : State) (h : s.mem.wf = true) : NextWf (execShiftFlit f s) := by
  unfold execShiftFlit
  refine State.arrive_wf s f _ _ (fun s h => ?_) h
  simp [h]
theorem execCollectiveSend_wf (coll send : Nat) (s : State) (h : s.mem.wf = true) : NextWf (execCollectiveSend coll send s) := by
  unfold execCollectiveSend
  split
  · simp [h]
  · split
    · simp [h]
    · refine NextWf.ite (by simp [h]) (NextWf.ite (by simp [h]) ?_)
      split
      · simp [h]
      · dsimp only
        refine NextWf.ite ((nextWf_next _).mpr (State.foldl_wf (fun s l h => ?_) _ _ h)) ?_
        · split
          · exact h
          · refine State.ite_wf h ?_
            split <;> simp [h]
        · split <;> simp [h]
theorem execCollectiveFold_wf (coll chunk : Nat) (s : State) (h : s.mem.wf = true) : NextWf (execCollectiveFold coll chunk s) := by
  unfold execCollectiveFold
  dsimp only
  (repeat' split) <;> simp [h]
theorem execCollectiveComplete_wf (coll : Nat) (s : State) (h : s.mem.wf = true) : NextWf (execCollectiveComplete coll s) := by
  unfold execCollectiveComplete
  split <;> simp [h]
theorem execCollectiveTimeout_wf (coll : Nat) (s : State) (h : s.mem.wf = true) : NextWf (execCollectiveTimeout coll s) := by
  unfold execCollectiveTimeout
  (repeat' split) <;> simp [h]
theorem execMapAdopt_wf (job rank : Nat) (entry : Half) (s : State) (h : s.mem.wf = true) : NextWf (execMapAdopt job rank entry s) := by
  unfold execMapAdopt
  split <;> simp [h]
theorem execMigrationFlit_wf (f : Flit) (s : State) (h : s.mem.wf = true) : NextWf (execMigrationFlit f s) := by
  unfold execMigrationFlit
  refine State.arrive_wf s f _ _ (fun s h => ?_) h
  obtain ⟨page, hp⟩ : ∃ l, List.range 4096 = l := ⟨_, rfl⟩
  rw [hp]
  dsimp only
  refine State.ite_wf h ?_
  split
  · exact h
  · refine State.ite_wf (State.ite_wf h h) ?_
    split
    · exact h
    · split
      · exact State.foldl_wf (fun s x h => State.homeWrite_wf s _ _ x.2 h) _ _ (State.mapMoved_wf _ _ _ _ _ h)
      · exact State.mapMoved_wf _ _ _ _ _ h
theorem execMigration_wf (job rank target : Nat) (s : State) (h : s.mem.wf = true) : NextWf (execMigration job rank target s) := by
  unfold execMigration
  split <;> simp [h]
theorem execTombstoneForward_wf (r : FlatReq) (s : State) (h : s.mem.wf = true) : NextWf (execTombstoneForward r s) := by
  unfold execTombstoneForward
  dsimp only
  (repeat' split) <;> simp [h]
theorem execBufferPhaseCommit_wf (s : State) (h : s.mem.wf = true) : NextWf (execBufferPhaseCommit s) := by
  unfold execBufferPhaseCommit
  split <;> simp [h]
theorem execPhaseCancel_wf (s : State) (h : s.mem.wf = true) : NextWf (execPhaseCancel s) := by
  unfold execPhaseCancel
  split <;> simp [h]
theorem execContextSwitchOut_wf (s : State) (h : s.mem.wf = true) : NextWf (execContextSwitchOut s) := by simp [execContextSwitchOut, h]
theorem execUrgentPreemption_wf (s : State) (h : s.mem.wf = true) : NextWf (execUrgentPreemption s) := by simp [execUrgentPreemption, h]
theorem execFirmwareRoutedTrap_wf (s : State) (h : s.mem.wf = true) : NextWf (execFirmwareRoutedTrap s) := by
  unfold execFirmwareRoutedTrap
  dsimp only
  (repeat' split) <;> simp [h]
theorem execContextRestore_wf (s : State) (h : s.mem.wf = true) : NextWf (execContextRestore s) := by
  unfold execContextRestore
  (repeat' split) <;> simp [h]
theorem execIdleActivePark_wf (job rank : Nat) (s : State) (h : s.mem.wf = true) : NextWf (execIdleActivePark job rank s) := by
  unfold execIdleActivePark
  split <;> simp [h]
theorem execStepEnd_wf (job rank : Nat) (s : State) (h : s.mem.wf = true) : NextWf (execStepEnd job rank s) := by
  unfold execStepEnd
  dsimp only
  (repeat' split) <;> simp [h]
theorem execLaunch_wf (p : Packet) (s : State) (h : s.mem.wf = true) : NextWf (execLaunch p s) := by
  unfold execLaunch
  refine NextWf.ite (by simp) ?_
  split
  · simp [h]
  · exact (nextWf_next _).mpr (State.startPacket_wf s _ p _ (fun f s h => State.launch_wf s f h) h)
theorem execCoreEntry_wf (s : State) (h : s.mem.wf = true) : NextWf (execCoreEntry s) := by
  unfold execCoreEntry
  split <;> simp [h]
theorem execInval_wf (p : Packet) (s : State) (h : s.mem.wf = true) : NextWf (execInval p s) := by
  unfold execInval
  refine NextWf.ite (by simp) ((nextWf_next _).mpr (State.startPacket_wf s _ p _ (fun f s h => ?_) h))
  dsimp only
  split <;> simp [h]
theorem execInvalComplete_wf (k : Nat) (s : State) (h : s.mem.wf = true) : NextWf (execInvalComplete k s) := by
  unfold execInvalComplete
  split <;> simp [h]
theorem execPad_wf (p : Packet) (s : State) (h : s.mem.wf = true) : NextWf (execPad p s) := by
  unfold execPad
  dsimp only
  (repeat' split) <;> simp [h]
theorem execKill_wf (p : Packet) (s : State) (h : s.mem.wf = true) : NextWf (execKill p s) := by
  unfold execKill
  refine packetRow_wf _ p s _ (fun f s h => ?_) h
  dsimp only
  (repeat' split) <;> simp [h]
theorem execPark_wf (p : Packet) (s : State) (h : s.mem.wf = true) : NextWf (execPark p s) := by
  unfold execPark
  refine rankRow_wf _ p s _ (fun r f s h => ?_) h
  dsimp only
  (repeat' split) <;> simp [h]
theorem execResume_wf (p : Packet) (s : State) (h : s.mem.wf = true) : NextWf (execResume p s) := by
  unfold execResume
  refine rankRow_wf _ p s _ (fun r f s h => ?_) h
  dsimp only
  split
  · simp [h]
  · refine State.ite_wf (by simp [h]) ?_
    split
    · rename_i t ht
      rw [State.finishPacket_mem]
      exact State.unpark_wf h ht
    · simp [h]
  · simp [h]
theorem execCold_wf (p : Packet) (s : State) (h : s.mem.wf = true) : NextWf (execCold p s) := by
  unfold execCold
  refine rankRow_wf _ p s _ (fun r f s h => ?_) h
  simp [h]
theorem execRecall_wf (p : Packet) (s : State) (h : s.mem.wf = true) : NextWf (execRecall p s) := by
  unfold execRecall
  refine rankRow_wf _ p s _ (fun r f s h => ?_) h
  refine State.ite_wf ?_ (by simp [h])
  split
  · rename_i t ht
    rw [State.finishPacket_mem, State.openCold_mem ht]
    exact h
  · simp [h]
theorem execCopyin_wf (p : Packet) (s : State) (h : s.mem.wf = true) : NextWf (execCopyin p s) := by
  unfold execCopyin
  refine rankRow_wf _ p s _ (fun r f s h => ?_) h
  refine State.ite_wf (by simp [h]) ?_
  rw [State.finishPacket_mem]
  exact State.copyIn_wf r _ _ s h
theorem execCopyout_wf (p : Packet) (s : State) (h : s.mem.wf = true) : NextWf (execCopyout p s) := by
  unfold execCopyout
  refine rankRow_wf _ p s _ (fun r f s h => ?_) h
  dsimp only
  (repeat' split) <;> simp [h]
theorem execDbgread_wf (p : Packet) (s : State) (h : s.mem.wf = true) : NextWf (execDbgread p s) := by
  unfold execDbgread
  refine rankRow_wf _ p s _ (fun r f s h => ?_) h
  dsimp only
  (repeat' split) <;> simp [h]
theorem execAttest_wf (p : Packet) (s : State) (h : s.mem.wf = true) : NextWf (execAttest p s) := by
  unfold execAttest
  refine packetRow_wf _ p s _ (fun f s h => ?_) h
  dsimp only
  (repeat' split) <;> simp [h]
theorem execFsreqWrite_wf (v : Word64) (s : State) (h : s.mem.wf = true) : NextWf (execFsreqWrite v s) := by simp [execFsreqWrite, h]
theorem execServiceRequest_wf (f : Nat) (object detail : Word64) (s : State) (h : s.mem.wf = true) :
    NextWf (execServiceRequest f object detail s) := by
  unfold execServiceRequest
  (repeat' split) <;> simp [h]
theorem execSvc_wf (p : Packet) (s : State) (h : s.mem.wf = true) : NextWf (execSvc p s) := by
  unfold execSvc
  refine packetRow_wf _ p s _ (fun f s h => ?_) h
  simp [h]
theorem execJoin_wf (p : Packet) (s : State) (h : s.mem.wf = true) : NextWf (execJoin p s) := by
  unfold execJoin
  refine packetRow_wf _ p s _ (fun f s h => ?_) h
  simp [h]
theorem execRanknew_wf (p : Packet) (s : State) (h : s.mem.wf = true) : NextWf (execRanknew p s) := by
  unfold execRanknew
  refine packetRow_wf _ p s _ (fun f s h => ?_) h
  obtain ⟨bytes, hb⟩ : ∃ l, List.range 4096 = l := ⟨_, rfl⟩
  rw [hb]
  dsimp only
  split
  · simp [h]
  · split
    · simp [h]
    · refine State.ite_wf (by simp [h]) ?_
      split
      · simp [h]
      · split
        · simp [h]
        · rw [State.finishPacket_mem, State.bindSeat_mem, State.setRank_mem]
          exact State.foldl_wf (fun s x h => State.homeWrite_wf s _ _ x.2 h) _ _ h
theorem execLeave_wf (p : Packet) (s : State) (h : s.mem.wf = true) : NextWf (execLeave p s) := by
  unfold execLeave
  refine packetRow_wf _ p s _ (fun f s h => ?_) h
  simp [h]
theorem execPacketFetch_wf (p : Packet) (s : State) (h : s.mem.wf = true) : NextWf (execPacketFetch p s) := by simp [execPacketFetch, h]
theorem execNotifyTail_wf (q : Nat) (v : Word32) (s : State) (h : s.mem.wf = true) : NextWf (execNotifyTail q v s) := by simp [execNotifyTail, h]
theorem execNotifyCompletionHead_wf (q : Nat) (v : Word32) (s : State) (h : s.mem.wf = true) :
    NextWf (execNotifyCompletionHead q v s) := by simp [execNotifyCompletionHead, h]
theorem execQcfgEnable_wf (q : Nat) (v : Word64) (s : State) (h : s.mem.wf = true) : NextWf (execQcfgEnable q v s) := by simp [execQcfgEnable, h]
theorem execQcfgDisable_wf (q : Nat) (v : Word64) (s : State) (h : s.mem.wf = true) :
    NextWf (execQcfgDisable q v s) := by simp [execQcfgDisable, h]
theorem execQifctlEnable_wf (i : Nat) (v : Word64) (s : State) (h : s.mem.wf = true) :
    NextWf (execQifctlEnable i v s) := by simp [execQifctlEnable, h]
theorem execQifctlClose_wf (i : Nat) (v : Word64) (s : State) (h : s.mem.wf = true) :
    NextWf (execQifctlClose i v s) := by simp [execQifctlClose, h]
theorem execQifctlRevoke_wf (i : Nat) (v : Word64) (s : State) (h : s.mem.wf = true) :
    NextWf (execQifctlRevoke i v s) := by simp [execQifctlRevoke, h]
theorem execBar0RegisterWrite_wf (off : Nat) (v : Word64) (s : State) (h : s.mem.wf = true) : NextWf (execBar0RegisterWrite off v s) := by
  unfold execBar0RegisterWrite
  dsimp only
  (repeat' split) <;> simp [h]
theorem execHostDmaCompletion_wf (p : Packet) (ok : Bool) (s : State) (h : s.mem.wf = true) :
    NextWf (execHostDmaCompletion p ok s) := by simp [execHostDmaCompletion, h]
theorem execGlitchSensor_wf (s : State) (h : s.mem.wf = true) : NextWf (execGlitchSensor s) := by simp [execGlitchSensor, h]
theorem execMeshBreach_wf (s : State) (h : s.mem.wf = true) : NextWf (execMeshBreach s) := by simp [execMeshBreach, h]
theorem execLockstepMismatch_wf (security : Bool) (s : State) (h : s.mem.wf = true) : NextWf (execLockstepMismatch security s) := by
  unfold execLockstepMismatch
  dsimp only
  split <;> simp [h]
theorem execBoot_wf (b : BootImage) (s : State) (h : s.mem.wf = true) : NextWf (execBoot b s) := by simp [execBoot, h]
theorem execPoisonScrub_wf (page : Nat) (scrub : Bool) (s : State) (h : s.mem.wf = true) : NextWf (execPoisonScrub page scrub s) := by
  unfold execPoisonScrub
  obtain ⟨bytes, hb⟩ : ∃ l, List.range 4096 = l := ⟨_, rfl⟩
  rw [hb]
  refine NextWf.ite (by simp) (NextWf.ite (by simp [h]) (NextWf.ite ?_ (by simp [h])))
  exact (nextWf_next _).mpr (State.foldl_wf (fun s i h => State.homeWrite_wf s _ _ _ h) bytes s h)
theorem execThrottleChange_wf (level : Nat) (s : State) (h : s.mem.wf = true) : NextWf (execThrottleChange level s) := by
  unfold execThrottleChange
  refine NextWf.ite (by simp) (NextWf.ite (by simp [h]) ((nextWf_next _).mpr ?_))
  refine State.foldl_wf (fun s l h => ?_) _ _ h
  simp [h]
theorem execMctpRead_wf (s : State) (h : s.mem.wf = true) : NextWf (execMctpRead s) := by simp [execMctpRead, h]
end Sys2Proof.Machine
end

section
/-! ## A slot operation leaves memory as it is at issue (R16)

What an operation stores, it stores when it performs. So the effects of its answer on the state (`Eff.spost`) write no memory; one lemma
for each shared form of an answer, and one for each operation. -/
namespace Sys2Proof.Machine

/-- The effect of an answer on the state leaves memory as it is: what an operation stores it stores when it performs, not at issue. -/
def Out.KeepsMem (x : Out) : Prop := ∀ e, x = .ok e → ∀ s : State, (e.spost s).mem = s.mem

@[simp] theorem Out.keepsMem_ok (e : Eff) : (Out.ok e).KeepsMem ↔ ∀ s : State, (e.spost s).mem = s.mem :=
  ⟨fun h => h e rfl, fun h _ he => by cases he; exact h⟩
@[simp] theorem Out.keepsMem_fault (k : Nat) (x : Word64) : (Out.fault k x).KeepsMem := fun _ h => nomatch h
@[simp] theorem Out.keepsMem_mismatch (x : Word64) : (Out.mismatch x).KeepsMem := fun _ h => nomatch h
@[simp] theorem Out.keepsMem_wait (k x : Nat) : (Out.wait k x).KeepsMem := fun _ h => nomatch h
@[simp] theorem Out.keepsMem_hold : Out.hold.KeepsMem := fun _ h => nomatch h
@[simp] theorem Out.keepsMem_ite {p : Prop} [Decidable p] {a b : Out} :
    (if p then a else b).KeepsMem ↔ (p → a.KeepsMem) ∧ (¬p → b.KeepsMem) := by
  split <;> simp [*]
theorem Out.KeepsMem.ite {p : Prop} [Decidable p] {a b : Out} (ha : a.KeepsMem) (hb : b.KeepsMem) : (if p then a else b).KeepsMem :=
  Out.keepsMem_ite.mpr ⟨fun _ => ha, fun _ => hb⟩

@[simp] theorem result_keepsMem (e : Env) (opc : Nat) (o : TOp) (ws : List Wr) (fl : Flags8) :
    (result e opc o ws fl).KeepsMem := by simp [result]
@[simp] theorem scalarOut_keepsMem (e : Env) (opc : Nat) (o : TOp) (x : Word64) (fl : Flags8) (taint : Taint) :
    (scalarOut e opc o x fl taint).KeepsMem := by simp [scalarOut]
@[simp] theorem intOut_keepsMem (e : Env) (opc : Nat) (o : TOp) (x : Int) : (intOut e opc o x).KeepsMem := by simp [intOut]
@[simp] theorem bitOut_keepsMem (e : Env) (opc : Nat) (o : TOp) (x : Int) (fl : Flags8) : (bitOut e opc o x fl).KeepsMem := by simp [bitOut]
@[simp] theorem rawOut_keepsMem (e : Env) (opc : Nat) (o : TOp) (x : Word64) (fl : Flags8) : (rawOut e opc o x fl).KeepsMem := by simp [rawOut]
@[simp] theorem ctlFault_keepsMem (detail : Nat) : (ctlFault detail).KeepsMem := by simp [ctlFault]
@[simp] theorem takeTo_keepsMem (e : Env) (target : Int) (ends : Bool) (eff : Eff) (h : ∀ s : State, (eff.spost s).mem = s.mem) :
    (takeTo e target ends eff).KeepsMem := by simp [takeTo, h]
@[simp] theorem takeReg_keepsMem (e : Env) (x : Word64) (ends : Bool) (eff : Eff) (h : ∀ s : State, (eff.spost s).mem = s.mem) :
    (takeReg e x ends eff).KeepsMem := by simp [takeReg, h]
@[simp] theorem branchIf_keepsMem (e : Env) (o : TOp) (c : Bool) : (branchIf e o c).KeepsMem := by simp [branchIf]
@[simp] theorem opCall_keepsMem (o : TOp) (e : Env) : (opCall o e).KeepsMem := by
  unfold opCall
  split <;> simp
@[simp] theorem opCallr_keepsMem (o : TOp) (e : Env) : (opCallr o e).KeepsMem := by
  unfold opCallr
  split <;> simp
@[simp] theorem setupOut_keepsMem (e : Env) (o : TOp) (stages : Option Nat) : (setupOut e o stages).KeepsMem := by simp [setupOut]
@[simp] theorem opYield_keepsMem (o : TOp) (e : Env) : (opYield o e).KeepsMem := by
  unfold opYield
  extract_lets sw
  refine .ite Out.keepsMem_hold ((Out.keepsMem_ok _).mpr fun s => ?_)
  dsimp only
  split <;> simp
@[simp] theorem opGets_keepsMem (o : TOp) (e : Env) : (opGets o e).KeepsMem := by
  unfold opGets
  dsimp only
  (repeat' split) <;> simp
@[simp] theorem setsOut_keepsMem (e : Env) (o : TOp) : (setsOut e o).KeepsMem := by
  unfold setsOut
  split <;> simp
@[simp] theorem opSetsRngt_keepsMem (o : TOp) (e : Env) : (opSetsRngt o e).KeepsMem := by
  have h := setsOut_keepsMem e o
  unfold opSetsRngt
  split
  · rename_i hx
    rw [hx] at h
    simpa using h
  · exact h
@[simp] theorem opSetsCkpts_keepsMem (o : TOp) (e : Env) : (opSetsCkpts o e).KeepsMem := by simp [opSetsCkpts]
@[simp] theorem opSetsAdjoff_keepsMem (o : TOp) (e : Env) : (opSetsAdjoff o e).KeepsMem := by simp [opSetsAdjoff]
@[simp] theorem opSetsTapeb_keepsMem (o : TOp) (e : Env) : (opSetsTapeb o e).KeepsMem := by simp [opSetsTapeb]
@[simp] theorem opSets_keepsMem (o : TOp) (e : Env) : (opSets o e).KeepsMem := by
  unfold opSets
  split <;> simp
@[simp] theorem fltOut_keepsMem (e : Env) (opc : Nat) (o : TOp) (x : XRes) (dst : Bool) : (fltOut e opc o x dst).KeepsMem := by simp [fltOut]
@[simp] theorem fmmOut_keepsMem (e : Env) (opc : Nat) (o : TOp) (mx : Bool) : (fmmOut e opc o mx).KeepsMem := by simp [fmmOut]
@[simp] theorem cvtOut_keepsMem (e : Env) (opc : Nat) (o : TOp) : (cvtOut e opc o).KeepsMem := by simp [cvtOut]
theorem fillTest_keepsMem {e : Env} {ranges : List (Nat × Nat)} {x : Out} (h : fillTest e ranges = some x) : x.KeepsMem := by
  unfold fillTest at h
  (repeat' split at h) <;> cases h <;> simp
@[simp] theorem failOut_keepsMem (f : AFail) : (failOut f).KeepsMem := by
  unfold failOut
  split <;> simp
@[simp] theorem waitFirst_keepsMem (e : Env) (w : Option Out) (x : Out) (h : x.KeepsMem) : (waitFirst e w x).KeepsMem := by
  unfold waitFirst
  (repeat' split) <;> simp [h]
theorem checkFlat_keepsMem {e : Env} {opc a : Nat} {x : Out} (h : checkFlat e opc a = .error x) : x.KeepsMem := by
  unfold checkFlat at h
  (repeat' split at h) <;> cases h <;> simp
theorem checkMem_keepsMem {e : Env} {opc : Nat} {o : TOp} {lanes : List Nat} {x : Out} (h : checkMem e opc o lanes = .error x) :
    x.KeepsMem := by
  unfold checkMem at h
  extract_lets ai a vb y addrs illegal low r at h
  clear_value illegal
  split at h
  · cases h
    simp
  · split at h
    · cases h
      split <;> simp
    · split at h
      · cases h
        simp
      · cases h
        split <;> simp
      · cases h
        simp
      · cases h
        simp
      · exact checkFlat_keepsMem h
      · cases h
        simp
      · split at h <;> cases h
        simp
theorem windowTest_keepsMem {e : Env} {o : TOp} {els : List Elem} {atomic : Bool} {b0 b1 : Nat} {x : Out}
    (h : windowTest e o els atomic b0 b1 = some x) : x.KeepsMem := by
  unfold windowTest at h
  split at h <;> cases h
  simp
@[simp] theorem inactiveOut_keepsMem (e : Env) (opc : Nat) (o : TOp) : (inactiveOut e opc o).KeepsMem := by simp [inactiveOut]
@[simp] theorem loadOut_keepsMem (e : Env) (opc : Nat) (o : TOp) (k : Checked) : (loadOut e opc o k).KeepsMem := by
  unfold loadOut
  extract_lets kind cls L g
  split
  · exact fillTest_keepsMem ‹_›
  · split
    · split
      · exact windowTest_keepsMem ‹_›
      · simp
    · split
      · rename_i h
        rcases Option.or_eq_some_iff.mp h with h | ⟨_, h⟩
        · exact windowTest_keepsMem h
        · exact windowTest_keepsMem h
      · simp
    · rw [Out.keepsMem_ok]
      intro s
      dsimp only
      split <;> simp
@[simp] theorem storeOut_keepsMem (e : Env) (opc : Nat) (o : TOp) (tape : Option Nat) (k : Checked) : (storeOut e opc o tape k).KeepsMem := by
  unfold storeOut
  extract_lets due spad rel _ _ _ eff eff'
  split
  · exact fillTest_keepsMem ‹_›
  · split
    · simp
    · split
      · rename_i h
        split at h
        · exact windowTest_keepsMem h
        · cases h
      · rw [Out.keepsMem_ok]
        intro s
        simp only [eff', eff]
        split <;> rfl
theorem pushWait_keepsMem {e : Env} {n : Nat} {x : Out} (h : pushWait e n = some x) : x.KeepsMem := by
  unfold pushWait at h
  dsimp only at h
  (repeat' split at h) <;> cases h <;> simp
@[simp] theorem forwardOut_keepsMem (e : Env) (opc : Nat) (o : TOp) (k : Checked) : (forwardOut e opc o k).KeepsMem := by
  unfold forwardOut
  extract_lets r off rec_
  split
  · simp
  · split
    · simp
    · split
      · exact pushWait_keepsMem ‹_›
      · have hs := storeOut_keepsMem e opc o (some off) k
        split
        · rename_i eff heq
          rw [heq, Out.keepsMem_ok] at hs
          simpa using hs
        · exact hs
@[simp] theorem cellReq_keepsMem (e : Env) (opc : Nat) (o : TOp) (kind : ReqKind) (addr : Nat) (cells : List Elem) :
    (cellReq e opc o kind addr cells).KeepsMem := by
  unfold cellReq
  extract_lets w add rd base r
  split
  · rename_i h
    rcases Option.or_eq_some_iff.mp h with h | ⟨_, h⟩
    · exact fillTest_keepsMem h
    · split at h
      · cases h
      · exact windowTest_keepsMem h
  · rw [Out.keepsMem_ok]
    intro s
    dsimp only
    split <;> simp
@[simp] theorem reverseLoad_keepsMem (e : Env) (opc : Nat) (o : TOp) (k : Checked) : (reverseLoad e opc o k).KeepsMem := by
  unfold reverseLoad
  split <;> simp
@[simp] theorem reverseStore_keepsMem (e : Env) (opc : Nat) (o : TOp) (k : Checked) : (reverseStore e opc o k).KeepsMem := by
  unfold reverseStore
  extract_lets vec n left
  split
  · simp
  · rename_i cells _
    have hk := cellReq_keepsMem e opc o .clear k.addr cells
    extract_lets early
    have he : ∀ d, (early d).KeepsMem := fun d => waitFirst_keepsMem _ _ _ (Out.keepsMem_fault _ _)
    refine .ite (he 2) (.ite (he 1) ?_)
    split
    · split <;> simp
    · extract_lets okHdr
      refine .ite (he 1) ?_
      split
      · exact fillTest_keepsMem ‹_›
      · rename_i hc
        rw [hc, Out.keepsMem_ok] at hk
        simpa using hk
      · exact hk
@[simp] theorem atomicOut_keepsMem (e : Env) (opc : Nat) (o : TOp) (k : Checked) : (atomicOut e opc o k).KeepsMem := by
  unfold atomicOut
  extract_lets L w add r
  split
  · rename_i h
    rcases Option.or_eq_some_iff.mp h with h | ⟨_, h⟩
    · exact fillTest_keepsMem h
    · split at h
      · cases h
      · exact windowTest_keepsMem h
  · rw [Out.keepsMem_ok]
    intro s
    dsimp only
    split <;> simp
@[simp] theorem opMem_keepsMem (opc : Nat) (o : TOp) (e : Env) : (opMem opc o e).KeepsMem := by
  unfold opMem
  extract_lets lanes
  split
  · split <;> simp
  · split
    · simp
    · split
      · exact checkMem_keepsMem ‹_›
      · simp
@[simp] theorem opChk_keepsMem (o : TOp) (e : Env) : (opChk o e).KeepsMem := by
  unfold opChk
  dsimp only
  (repeat' split) <;> simp
@[simp] theorem opStg_keepsMem (o : TOp) (e : Env) : (opStg o e).KeepsMem := by
  unfold opStg
  split <;> simp
@[simp] theorem opVstg_keepsMem (o : TOp) (e : Env) : (opVstg o e).KeepsMem := by
  unfold opVstg
  dsimp only
  (repeat' split) <;> simp
@[simp] theorem opDld_keepsMem (o : TOp) (e : Env) : (opDld o e).KeepsMem := by
  unfold opDld
  extract_lets x a tgt start path _ spad
  have hs : ∀ r d ls bs b, (start r d ls bs b).KeepsMem := fun r d ls bs b => by simp [start]
  clear_value start
  have hp : ∀ add, (spad add).KeepsMem := fun add => by
    simp only [spad]
    refine .ite (Out.keepsMem_fault _ _) (.ite (Out.keepsMem_fault _ _) ?_)
    split
    · exact fillTest_keepsMem ‹_›
    · simp [hs]
  clear_value spad path
  refine .ite (Out.keepsMem_fault _ _) ?_
  split
  · simp
  · cases path with
    | out => simp
    | unmapped => simp
    | own => exact hp 0
    | clus => exact hp 4
    | flat =>
      dsimp only
      exact .ite (Out.keepsMem_fault _ _) (.ite (Out.keepsMem_fault _ _) (hs _ _ _ _ _))
    | priv =>
      dsimp only
      split
      · simp
      · exact .ite (Out.keepsMem_fault _ _) (hs _ _ _ _ _)
@[simp] theorem opAdjld_keepsMem (o : TOp) (e : Env) : (opAdjld o e).KeepsMem := by
  unfold opAdjld
  dsimp only
  (repeat' split) <;> simp
@[simp] theorem opTapefl_keepsMem (o : TOp) (e : Env) : (opTapefl o e).KeepsMem := by
  unfold opTapefl
  dsimp only
  (repeat' split) <;> simp
@[simp] theorem withEngine_keepsMem (e : Env) (busy : Nat) (x : Out) (h : x.KeepsMem) : (withEngine e busy x).KeepsMem := by
  unfold withEngine
  split
  · simpa using fun _ => (Out.keepsMem_ok _).mp h
  · exact h
@[simp] theorem withASlot_keepsMem (e : Env) (busy : Nat) (x : Out) (h : x.KeepsMem) : (withASlot e busy x).KeepsMem := by
  unfold withASlot
  split
  · simpa using fun _ => (Out.keepsMem_ok _).mp h
  · exact h
theorem engAddr_keepsMem {e : Env} {x : Word64} {y : Out} (h : engAddr e x = .error y) : y.KeepsMem := by
  unfold engAddr at h
  dsimp only at h
  (repeat' split at h) <;> cases h <;> simp
@[simp] theorem engFill_keepsMem (e : Env) (slot off len b0 b1 : Nat) (held : Bool) (k : Out) (h : k.KeepsMem) :
    (engFill e slot off len b0 b1 held k).KeepsMem := by
  unfold engFill
  split
  · exact fillTest_keepsMem ‹_›
  · simp [h]
theorem tileSpan_keepsMem {e : Env} {o : TOp} {y : Out} (h : tileSpan e o = .error y) : y.KeepsMem := by
  unfold tileSpan at h
  dsimp only at h
  split at h
  · cases h
    simp
  · split at h
    · cases h
      exact engAddr_keepsMem ‹_›
    · (repeat' split at h) <;> cases h <;> simp
@[simp] theorem opMfill_keepsMem (o : TOp) (e : Env) : (opMfill o e).KeepsMem := by
  refine withEngine_keepsMem e 34 _ ?_
  split
  · exact tileSpan_keepsMem ‹_›
  · simp
@[simp] theorem opMstash_keepsMem (o : TOp) (e : Env) : (opMstash o e).KeepsMem := by
  refine withEngine_keepsMem e 34 _ ?_
  split
  · exact tileSpan_keepsMem ‹_›
  · simp
@[simp] theorem opMucfg_keepsMem (o : TOp) (e : Env) : (opMucfg o e).KeepsMem := by
  unfold opMucfg
  extract_lets x late
  refine withEngine_keepsMem e 4 _ ?_
  split
  · simp
  · split
    · exact engAddr_keepsMem ‹_›
    · simp
@[simp] theorem opMopv_keepsMem (o : TOp) (e : Env) : (opMopv o e).KeepsMem := by
  unfold opMopv
  extract_lets u b addr m0 k0 K refused
  have hr : refused.KeepsMem := Out.keepsMem_fault _ _
  refine withEngine_keepsMem e 1 _ ?_
  split
  · refine .ite hr ?_
    extract_lets
    refine .ite hr ?_
    split
    · exact fillTest_keepsMem ‹_›
    · simp
  · exact hr
@[simp] theorem ardOut_keepsMem (opc : Nat) (o : TOp) (e : Env) (clear : Bool) : (ardOut opc o e clear).KeepsMem := by simp [ardOut]
theorem spillSpan_keepsMem {e : Env} {o : TOp} {y : Out} (h : spillSpan e o = .error y) : y.KeepsMem := by
  unfold spillSpan at h
  dsimp only at h
  split at h
  · cases h
    simp
  · split at h
    · cases h
      exact engAddr_keepsMem ‹_›
    · (repeat' split at h) <;> cases h <;> simp
@[simp] theorem opAspill_keepsMem (o : TOp) (e : Env) : (opAspill o e).KeepsMem := by
  refine withASlot_keepsMem e 32 _ ?_
  split
  · exact spillSpan_keepsMem ‹_›
  · simp
@[simp] theorem opAfill_keepsMem (o : TOp) (e : Env) : (opAfill o e).KeepsMem := by
  refine withASlot_keepsMem e 32 _ ?_
  split
  · exact spillSpan_keepsMem ‹_›
  · simp
@[simp] theorem optOut_keepsMem (opc : Nat) (o : TOp) (e : Env) : (optOut opc o e).KeepsMem := by simp [optOut]
@[simp] theorem copyOk_keepsMem (e : Eff) (h : ∀ s : State, (e.spost s).mem = s.mem) : (copyOk e).KeepsMem := by simpa [copyOk] using h
@[simp] theorem opCstart_keepsMem (o : TOp) (e : Env) : (opCstart o e).KeepsMem := by
  unfold opCstart
  dsimp only
  (repeat' split) <;> simp
@[simp] theorem opEvpop_keepsMem (o : TOp) (e : Env) : (opEvpop o e).KeepsMem := by
  unfold opEvpop
  split <;> simp
@[simp] theorem opCbank_keepsMem (o : TOp) (e : Env) : (opCbank o e).KeepsMem := by
  unfold opCbank
  dsimp only
  (repeat' split) <;> simp
@[simp] theorem opBufswap_keepsMem (o : TOp) (e : Env) : (opBufswap o e).KeepsMem := by
  unfold opBufswap
  refine .ite (Out.keepsMem_fault _ _) (.ite Out.keepsMem_hold ?_)
  refine (Out.keepsMem_ok _).mpr fun s => ?_
  dsimp only
  split <;> simp
@[simp] theorem vecOut_keepsMem (e : Env) (opc : Nat) (o : TOp) (f : Nat → Word32 × Flags8) (dst : Bool) :
    (vecOut e opc o f dst).KeepsMem := by simp [vecOut]
@[simp] theorem vecBits_keepsMem (e : Env) (opc : Nat) (o : TOp) (f : Nat → Word32) (dst : Bool) :
    (vecBits e opc o f dst).KeepsMem := by simp [vecBits]
@[simp] theorem vminmax_keepsMem (e : Env) (opc : Nat) (o : TOp) (mx : Bool) : (vminmax e opc o mx).KeepsMem := by simp [vminmax]
@[simp] theorem fnOut_keepsMem (e : Env) (opc : Nat) (o : TOp) (f : XVal → XRes) : (fnOut e opc o f).KeepsMem := by simp [fnOut]
@[simp] theorem allLanes_keepsMem (e : Env) (opc : Nat) (o : TOp) (f : Nat → Word32) (fl : Flags8) :
    (allLanes e opc o f fl).KeepsMem := by simp [allLanes]
@[simp] theorem extreme_keepsMem (e : Env) (opc : Nat) (o : TOp) (mx : Bool) : (extreme e opc o mx).KeepsMem := by simp [extreme]
@[simp] theorem opVrand_keepsMem (o : TOp) (e : Env) : (opVrand o e).KeepsMem := by simp [opVrand]
end Sys2Proof.Machine
end

section
/-! ## Every step keeps the form of memory (R6, log 2) -/
namespace Sys2Proof.Machine

/-! ## Slot operations -/

/-- The meaning of a slot operation leaves memory as it is at issue: most answer in one of the shared forms, and the others have a lemma. -/
theorem sopOf_keepsMem {i : Instr} {x : SOp} (h : sopOf i = some x) (e : Env) : (x.run e).KeepsMem := by
  cases i <;> cases h <;> simp [
    opAdd, opSub, opAddsh, opMul, opMulh, opDiv, opRem, opAbs, opAnd, opOr, opXor, opAndn, opShl, opShr, opSar, opRol, opMin, opMax, opMinu,
    opMaxu, opCmp, opSel, opMov, opMovhi, opClz, opCtz, opPopc, opBrev, opBswap, opBext, opBins, opExt, opJmp, opBcmp, opBeqz, opBnez, opBpred,
    opBrg, opRet, opJmpr, opLoop, opLoopx, opWaitb, opTrap, opHalt, opSetsLc, opSetsTrappc, opSetsTapel, opFadd, opFsub, opFmul, opFma, opFdiv,
    opFsqrt, opFmin, opFmax, opFcmp, opFclass, opFsgn, opFcvt, opFcvti, opIcvtf, opLd, opSt, opVld, opVst, opVgath, opVscat, opLdc, opVldc,
    opAmadd, opAmfadd, opAmmin, opAmmax, opAmand, opAmor, opAmxor, opAmswap, opAmcas, opAmcasgt, opAmcasv, opAmcasp, opVamadd, opLdacq, opStrel,
    opFence, opDset, opDget, opDsel, opFfence, opAdjm, opAdjclr, opCkpt, opRte, opBkpt, opMop, opMops, opMopc, opMrank1, opMzero, opMscale,
    opArd, opArdc, opAsgd, opAmom, opAadam, opAstat, opCappend, opCstop, opCwm, opCrange, opCtag, opCpref, opCqfmt, opVadd, opVsub, opVmul,
    opVfma, opVfms, opVmin, opVmax, opVabs, opVneg, opVand, opVor, opVxor, opVandn, opVnot, opVshl, opVshr, opVsar, opVrol, opVclz, opVpopc,
    opVcmp, opVsel, opVmov, opVbcast, opVbcastLane, opVbcastIota, opVperm, opVrot, opVextr, opVins, opVcvt, opVrnd, opVscl, opVsat, opVmulh,
    opVrcp, opVrsqrt, opVsqrt, opVexp2, opVlog2, opVtanh, opVrsum, opVrmax, opVrmin, opVscan, opVsort, opPpack, opPunpack, opPlog, opPcnt,
    opPfirst]

/-- A slot instruction by itself issues as a bundle of one operation. -/
theorem exec_of_sopOf {i : Instr} {x : SOp} (h : sopOf i = some x) (s : State) : ∃ d, exec i s = .next (issueOps [x] d s) := by
  cases i <;> cases h <;> exact ⟨_, rfl⟩

/-- Operations that leave memory as it is leave it so when they issue together. -/
theorem issueOps_mem {ops : List SOp} (d : Bool) (s : State) (h : ∀ x ∈ ops, ∀ e, (x.run e).KeepsMem) : (issueOps ops d s).mem = s.mem := by
  rcases issueOps_cases ops d s with ht | ⟨k, x, ht⟩ | ⟨effs, nS, nC, he, ht⟩
  · rw [ht]
  · rw [ht, trapIssue_mem]
  · rw [ht]
    refine commit_mem s effs nS nC fun e hm => ?_
    obtain ⟨x, hx, l, tp, hr⟩ := he e hm
    exact h x hx _ e hr

theorem execBundleIssue_wf (w : Bundle) (s : State) (h : s.mem.wf = true) : NextWf (execBundleIssue w s) := by
  unfold execBundleIssue
  split
  · exact (nextWf_next _).mpr (State.ite_wf h (by simpa using h))
  · rw [nextWf_next, issueOps_mem _ _ fun x hx => ?_]
    · exact h
    · obtain ⟨i, -, hi⟩ := List.mem_filterMap.mp hx
      exact sopOf_keepsMem hi

/-! ## Every instruction and every event -/

/-- An instruction that stands in no slot keeps the form of the memory. -/
theorem exec_wf_of_noSlot (i : Instr) (s : State) (hi : sopOf i = none) (h : s.mem.wf = true) : NextWf (exec i s) := by
  cases i with
  | bundleIssue w => exact execBundleIssue_wf w s h
  | resultDelivery => exact execResultDelivery_wf s h
  | storePerform => exact execStorePerform_wf s h
  | beatOverrun => exact execBeatOverrun_wf s h
  | contextSwitchOut => exact execContextSwitchOut_wf s h
  | waitEnd => exact execWaitEnd_wf s h
  | dldCompletion => exact execDldCompletion_wf s h
  | tapeSpill => exact execTapeSpill_wf s h
  | tapeRefill => exact execTapeRefill_wf s h
  | trapEntry => exact execTrapEntry_wf s h
  | firmwareRoutedTrap => exact execFirmwareRoutedTrap_wf s h
  | urgentPreemption => exact execUrgentPreemption_wf s h
  | contextRestore => exact execContextRestore_wf s h
  | tombolaReloadDone => exact execTombolaReloadDone_wf s h
  | variableLoadReply id uncorrectable => exact execVariableLoadReply_wf id uncorrectable s h
  | loadTimeout id => exact execLoadTimeout_wf id s h
  | strelPerform => exact execStrelPerform_wf s h
  | fenceComplete => exact execFenceComplete_wf s h
  | fenceTimeout => exact execFenceTimeout_wf s h
  | storeFailureReport id status port => exact execStoreFailureReport_wf id status port s h
  | translationWalk addr => exact execTranslationWalk_wf addr s h
  | l2Fill die sector uncorrectable => exact execL2Fill_wf die sector uncorrectable s h
  | l2Writeback die sector uncorrectable => exact execL2Writeback_wf die sector uncorrectable s h
  | turnstileFire k => exact execTurnstileFire_wf k s h
  | homeAtomic id uncorrectable => exact execHomeAtomic_wf id uncorrectable s h
  | flatAccessAtTarget r => exact execFlatAccessAtTarget_wf r s h
  | recordFetch ch uncorrectable => exact execRecordFetch_wf ch uncorrectable s h
  | chunkRead ch uncorrectable => exact execChunkRead_wf ch uncorrectable s h
  | chunkWrite ch => exact execChunkWrite_wf ch s h
  | recordComplete ch => exact execRecordComplete_wf ch s h
  | copyRecordTimeout ch => exact execCopyRecordTimeout_wf ch s h
  | cstopEffect ch => exact execCstopEffect_wf ch s h
  | fifoChunkRelease ch => exact execFifoChunkRelease_wf ch s h
  | bankModeSwitch => exact execBankModeSwitch_wf s h
  | bufferPhaseCommit => exact execBufferPhaseCommit_wf s h
  | phaseCancel => exact execPhaseCancel_wf s h
  | launch p => exact execLaunch_wf p s h
  | coreEntry => exact execCoreEntry_wf s h
  | stepEnd job rank => exact execStepEnd_wf job rank s h
  | idleActivePark job rank => exact execIdleActivePark_wf job rank s h
  | inval p => exact execInval_wf p s h
  | invalComplete k => exact execInvalComplete_wf k s h
  | pad p => exact execPad_wf p s h
  | kill p => exact execKill_wf p s h
  | park p => exact execPark_wf p s h
  | resume p => exact execResume_wf p s h
  | cold p => exact execCold_wf p s h
  | recallRank p => exact execRecall_wf p s h
  | copyin p => exact execCopyin_wf p s h
  | copyout p => exact execCopyout_wf p s h
  | dbgread p => exact execDbgread_wf p s h
  | attest p => exact execAttest_wf p s h
  | svc p => exact execSvc_wf p s h
  | join p => exact execJoin_wf p s h
  | ranknew p => exact execRanknew_wf p s h
  | leave p => exact execLeave_wf p s h
  | packetFetch p => exact execPacketFetch_wf p s h
  | notifyTail q v => exact execNotifyTail_wf q v s h
  | notifyCompletionHead q v => exact execNotifyCompletionHead_wf q v s h
  | qcfgEnable q v => exact execQcfgEnable_wf q v s h
  | qcfgDisable q v => exact execQcfgDisable_wf q v s h
  | qifctlEnable f v => exact execQifctlEnable_wf f v s h
  | qifctlClose f v => exact execQifctlClose_wf f v s h
  | qifctlRevoke f v => exact execQifctlRevoke_wf f v s h
  | fsreqWrite v => exact execFsreqWrite_wf v s h
  | bar0RegisterWrite off v => exact execBar0RegisterWrite_wf off v s h
  | serviceRequest f object detail => exact execServiceRequest_wf f object detail s h
  | poisonScrub page scrub => exact execPoisonScrub_wf page scrub s h
  | lockstepMismatch security => exact execLockstepMismatch_wf security s h
  | boot b => exact execBoot_wf b s h
  | glitchSensor => exact execGlitchSensor_wf s h
  | meshBreach => exact execMeshBreach_wf s h
  | throttleChange level => exact execThrottleChange_wf level s h
  | mctpRead => exact execMctpRead_wf s h
  | writeRequestFlit f => exact execWriteRequestFlit_wf f s h
  | readRequestFlit f => exact execReadRequestFlit_wf f s h
  | atomicRequestFlit f => exact execAtomicRequestFlit_wf f s h
  | replyFlit f => exact execReplyFlit_wf f s h
  | collectiveDataFlit f => exact execCollectiveDataFlit_wf f s h
  | abortFlit f => exact execAbortFlit_wf f s h
  | shiftFlit f => exact execShiftFlit_wf f s h
  | beatFlit f => exact execBeatFlit_wf f s h
  | migrationFlit f => exact execMigrationFlit_wf f s h
  | linkRetry port => exact execLinkRetry_wf port s h
  | linkSilenceTimeout port => exact execLinkSilenceTimeout_wf port s h
  | linkBringUp port flight => exact execLinkBringUp_wf port flight s h
  | collectiveSend coll send => exact execCollectiveSend_wf coll send s h
  | collectiveFold coll chunk => exact execCollectiveFold_wf coll chunk s h
  | collectiveComplete coll => exact execCollectiveComplete_wf coll s h
  | collectiveTimeout coll => exact execCollectiveTimeout_wf coll s h
  | mapAdopt job rank entry => exact execMapAdopt_wf job rank entry s h
  | migration job rank target => exact execMigration_wf job rank target s h
  | tombstoneForward r => exact execTombstoneForward_wf r s h
  | hostDmaCompletion p ok => exact execHostDmaCompletion_wf p ok s h
  | _ => cases hi

/-- Every instruction keeps the form of the memory. -/
theorem exec_wf (i : Instr) (s : State) (h : s.mem.wf = true) : NextWf (exec i s) := by
  rcases hi : sopOf i with _ | x
  · exact exec_wf_of_noSlot i s hi h
  · obtain ⟨d, hx⟩ := exec_of_sopOf hi s
    rw [hx, nextWf_next, issueOps_mem d s fun y hy => ?_]
    · exact h
    · cases List.mem_singleton.mp hy
      exact sopOf_keepsMem hi

theorem runPacket_wf (p : Packet) (s : State) (h : s.mem.wf = true) : NextWf (runPacket p s) := by
  unfold runPacket
  split
  · exact execPad_wf p s h
  · exact execLaunch_wf p s h
  · exact execInval_wf p s h
  · exact execKill_wf p s h
  · exact execPark_wf p s h
  · exact execResume_wf p s h
  · exact execCold_wf p s h
  · exact execRecall_wf p s h
  · exact execCopyin_wf p s h
  · exact execCopyout_wf p s h
  · exact execDbgread_wf p s h
  · exact execAttest_wf p s h
  · exact execSvc_wf p s h
  · exact execJoin_wf p s h
  · exact execRanknew_wf p s h
  · exact execLeave_wf p s h
  · simpa using h
theorem Event.run_wf (e : Event) (s : State) (h : s.mem.wf = true) : NextWf (e.run s) := by
  cases e with
  | packet p => exact runPacket_wf p s h
  | storePerform => exact execStorePerform_wf s h
  | strelPerform => exact execStrelPerform_wf s h
  | bufferPhaseCommit => exact execBufferPhaseCommit_wf s h
  | phaseCancel => exact execPhaseCancel_wf s h
  | fifoChunkRelease ch => exact execFifoChunkRelease_wf ch s h
  | chunkWrite ch => exact execChunkWrite_wf ch s h
  | recordFetch ch => exact execRecordFetch_wf ch false s h
  | chunkRead ch => exact execChunkRead_wf ch false s h
  | recordComplete ch => exact execRecordComplete_wf ch s h
  | cstopEffect ch => exact execCstopEffect_wf ch s h
  | copyRecordTimeout ch => exact execCopyRecordTimeout_wf ch s h
  | turnstileFire k => exact execTurnstileFire_wf k s h
  | collectiveSend i j => exact execCollectiveSend_wf i j s h
  | collectiveFold i j => exact execCollectiveFold_wf i j s h
  | collectiveComplete i => exact execCollectiveComplete_wf i s h
  | collectiveTimeout i => exact execCollectiveTimeout_wf i s h
  | mapAdopt job rank e => exact execMapAdopt_wf job rank e s h
  | idleActivePark job rank => exact execIdleActivePark_wf job rank s h
  | stepEnd job rank => exact execStepEnd_wf job rank s h
  | linkSilenceTimeout port => exact execLinkSilenceTimeout_wf port s h
  | loadTimeout id => exact execLoadTimeout_wf id s h
  | tombolaReloadDone => exact execTombolaReloadDone_wf s h
  | dldCompletion => exact execDldCompletion_wf s h
  | resultDelivery => exact execResultDelivery_wf s h
  | tapeSpill => exact execTapeSpill_wf s h
  | tapeRefill => exact execTapeRefill_wf s h
  | fenceComplete => exact execFenceComplete_wf s h
  | fenceTimeout => exact execFenceTimeout_wf s h
  | bankModeSwitch => exact execBankModeSwitch_wf s h
  | trapEntry => exact execTrapEntry_wf s h
  | firmwareRoutedTrap => exact execFirmwareRoutedTrap_wf s h
  | waitEnd => exact execWaitEnd_wf s h
  | contextSwitchOut => exact execContextSwitchOut_wf s h
  | urgentPreemption => exact execUrgentPreemption_wf s h
  | coreEntry => exact execCoreEntry_wf s h

/-! ## One step -/

theorem State.nextInput_mem {s t : State} {i : Option Instr} (h : s.nextInput = some (i, t)) : t.mem = s.mem := by
  unfold State.nextInput at h
  split at h
  · cases h
  · split at h <;> cases h
    rfl
theorem runTurn_wf (s : State) (h : s.mem.wf = true) : NextWf (runTurn s) := by
  unfold runTurn
  dsimp only
  split
  · simpa using h
  · rw [nextWf_next, State.pass_mem]
    exact State.ite_wf (by simpa using h) (by simpa using h)
  · simpa using h
  · rename_i i _
    have hx := exec_wf i s.ready (by simpa using h)
    split
    · rename_i t ht
      rw [nextWf_next, State.pass_mem]
      exact State.failShifts_wf _ _ (hx t ht)
    · simp
    · exact fun _ ht => nomatch ht
theorem step_wf (s : State) (h : s.mem.wf = true) : NextWf (step s) := by
  rcases step_cases s with ⟨i, t, ht, hs⟩ | ⟨t, ht, hs⟩ | ⟨e, -, hs⟩ | hs | hs | hs | hs <;> rw [hs]
  · exact exec_wf i t (by rwa [State.nextInput_mem ht])
  · rwa [nextWf_next, State.nextInput_mem ht]
  · exact e.run_wf s h
  · exact runTurn_wf s h
  · simpa using h
  · exact Event.run_wf _ s h
  · exact (nextWf_next _).mpr (State.tick_wf s h)

end Sys2Proof.Machine
open Sys2Proof Sys2Proof.Machine
/-- Settles O19: every row writes memory only through operations that keep its canonical form, and an operation of a slot writes none
at issue. -/
theorem stepKeepsMemoryForm : Obligations.StepKeepsMemoryForm := by
  unfold Obligations.StepKeepsMemoryForm
  intro s t h ht
  exact step_wf s h t ht
end

section
namespace Sys2Proof.Machine

/-! ## A write of SETS (R97, R103) -/

@[simp] theorem Arch.endLoop_s (a : Arch) (k : Nat) : (a.endLoop k).s = a.s := by unfold Arch.endLoop; dsimp only; split <;> rfl
@[simp] theorem Arch.endLoop_v (a : Arch) (k : Nat) : (a.endLoop k).v = a.v := by unfold Arch.endLoop; dsimp only; split <;> rfl
@[simp] theorem Arch.endLoop_p (a : Arch) (k : Nat) : (a.endLoop k).p = a.p := by unfold Arch.endLoop; dsimp only; split <;> rfl
@[simp] theorem Arch.endLoop_loops (a : Arch) (k : Nat) :
    (a.endLoop k).loops = a.loops.setIfInBounds k { a.loops.toList.getD k ⟨0, 0, false⟩ with active := false } := by
  unfold Arch.endLoop; dsimp only; split <;> rfl
@[simp] theorem Arch.setLc_s (a : Arch) (k : Nat) (x : Word64) : (a.setLc k x).s = a.s := by unfold Arch.setLc; dsimp only; split <;> simp
@[simp] theorem Arch.setLc_v (a : Arch) (k : Nat) (x : Word64) : (a.setLc k x).v = a.v := by unfold Arch.setLc; dsimp only; split <;> simp
@[simp] theorem Arch.setLc_p (a : Arch) (k : Nat) (x : Word64) : (a.setLc k x).p = a.p := by unfold Arch.setLc; dsimp only; split <;> simp
/-- R97: a loop counter reads what SETS wrote. -/
theorem Arch.setLc_lc (a : Arch) (k : Fin 4) (x : Word64) : (a.setLc k x).lc.get k = x := by
  unfold Arch.setLc
  exact Vector.getElem_setIfInBounds_self ..
/-- R97: zero ends the loop. -/
theorem Arch.setLc_zero_loops (a : Arch) (k : Fin 4) : (a.setLc k 0#64).loops[k.val]?.map Loop.active = some false := by
  simp [Arch.setLc]

@[simp] theorem Core.setSpecial_s (c : Core) (t idx : Nat) (x : Word64) : (c.setSpecial t idx x).a.s = c.a.s := by
  unfold Core.setSpecial; dsimp only; split <;> simp
@[simp] theorem Core.setSpecial_v (c : Core) (t idx : Nat) (x : Word64) : (c.setSpecial t idx x).a.v = c.a.v := by
  unfold Core.setSpecial; dsimp only; split <;> simp
@[simp] theorem Core.setSpecial_p (c : Core) (t idx : Nat) (x : Word64) : (c.setSpecial t idx x).a.p = c.a.p := by
  unfold Core.setSpecial; dsimp only; split <;> simp
@[simp] theorem Core.setSpecial_pc (c : Core) (t idx : Nat) (x : Word64) : (c.setSpecial t idx x).pc = c.pc := by
  unfold Core.setSpecial; dsimp only; split <;> rfl
@[simp] theorem Core.setSpecial_shadow (c : Core) (t idx : Nat) (x : Word64) : (c.setSpecial t idx x).shadow = c.shadow := by
  unfold Core.setSpecial; dsimp only; split <;> rfl
@[simp] theorem Core.setSpecial_flights (c : Core) (t idx : Nat) (x : Word64) : (c.setSpecial t idx x).flights = c.flights := by
  unfold Core.setSpecial; dsimp only; split <;> rfl

/-! ## One write of a delivery (R12, R20) -/

@[simp] theorem Core.write_pc (c : Core) (t : Nat) (w : Wr) : (c.write t w).pc = c.pc := by
  cases w <;> simp only [Core.write, Core.setSpecial_pc] <;> split <;> rfl
@[simp] theorem Core.write_shadow (c : Core) (t : Nat) (w : Wr) : (c.write t w).shadow = c.shadow := by
  cases w <;> simp only [Core.write, Core.setSpecial_shadow] <;> split <;> rfl
@[simp] theorem Core.write_flights (c : Core) (t : Nat) (w : Wr) : (c.write t w).flights = c.flights := by
  cases w <;> simp only [Core.write, Core.setSpecial_flights] <;> split <;> rfl
@[simp] theorem Arch.wv_s (a : Arch) (n : BitVec 6) (x : Lanes) (tn : Taint) : (a.wv n x tn).s = a.s := rfl
@[simp] theorem Arch.wv_p (a : Arch) (n : BitVec 6) (x : Lanes) (tn : Taint) : (a.wv n x tn).p = a.p := rfl
@[simp] theorem Arch.ws_v (a : Arch) (n : BitVec 6) (x : Word64) (tn : Taint) : (a.ws n x tn).v = a.v := by unfold Arch.ws; split <;> rfl
@[simp] theorem Arch.ws_p (a : Arch) (n : BitVec 6) (x : Word64) (tn : Taint) : (a.ws n x tn).p = a.p := by unfold Arch.ws; split <;> rfl
@[simp] theorem Arch.wp_s (a : Arch) (n : BitVec 4) (x : Word32) : (a.wp n x).s = a.s := by unfold Arch.wp; split <;> rfl
@[simp] theorem Arch.wp_v (a : Arch) (n : BitVec 4) (x : Word32) : (a.wp n x).v = a.v := by unfold Arch.wp; split <;> rfl
theorem Arch.rs_congr {a b : Arch} (h : a.s = b.s) (n : BitVec 6) : a.rs n = b.rs n := by unfold Arch.rs; rw [h]
theorem Arch.rv_congr {a b : Arch} (h : a.v = b.v) (n : BitVec 6) : a.rv n = b.rv n := by unfold Arch.rv; rw [h]
theorem Arch.rp_congr {a b : Arch} (h : a.p = b.p) (n : BitVec 4) : a.rp n = b.rp n := by unfold Arch.rp; rw [h]

/-- R12: a scalar register that a write does not name keeps its value. -/
theorem Core.write_rs (c : Core) (t : Nat) (w : Wr) (n : BitVec 6) (h : n.toNat ∉ w.targets) : (c.write t w).a.rs n = c.a.rs n := by
  cases w with
  | s m x on tn =>
    have hm : n ≠ m := fun e => h (by simp [Wr.targets, e])
    cases on <;> simp [Core.write, Arch.rs_ws, hm]
  | cond | vis | crange | ctag =>
    simp only [Core.write]
    split <;> rfl
  | _ => exact Arch.rs_congr (by simp [Core.write]) n
/-- R12: a vector register that a write does not name keeps its value. -/
theorem Core.write_rv (c : Core) (t : Nat) (w : Wr) (n : BitVec 6) (h : 0x40 + n.toNat ∉ w.targets) : (c.write t w).a.rv n = c.a.rv n := by
  cases w with
  | v m =>
    have hm : n ≠ m := fun e => h (by simp [Wr.targets, e])
    simp [Core.write, Arch.rv_wv, hm]
  | s _ _ on => cases on <;> exact Arch.rv_congr (by simp [Core.write]) n
  | cond | vis | crange | ctag =>
    simp only [Core.write]
    split <;> rfl
  | _ => exact Arch.rv_congr (by simp [Core.write]) n
/-- R12: a predicate that a write does not name keeps its value. -/
theorem Core.write_rp (c : Core) (t : Nat) (w : Wr) (n : BitVec 4) (h : 0x80 + n.toNat ∉ w.targets) : (c.write t w).a.rp n = c.a.rp n := by
  cases w with
  | p m =>
    have hm : n ≠ m := fun e => h (by simp [Wr.targets, e])
    simp [Core.write, Arch.rp_wp, hm]
  | s _ _ on => cases on <;> exact Arch.rp_congr (by simp [Core.write]) n
  | cond | vis | crange | ctag =>
    simp only [Core.write]
    split <;> rfl
  | _ => exact Arch.rp_congr (by simp [Core.write]) n

/-! ## A delivery (R20, R29, R74) -/

/-- A fold over cores keeps what each of its steps keeps. -/
theorem Core.foldl_keeps {α β : Type} (v : Core → β) {g : Core → α → Core} :
    ∀ (l : List α) (c : Core), (∀ x ∈ l, ∀ c, v (g c x) = v c) → v (l.foldl g c) = v c
  | [], _, _ => rfl
  | x :: r, c, h =>
    (Core.foldl_keeps v r (g c x) (fun y hy => h y (List.mem_cons_of_mem x hy))).trans (h x List.mem_cons_self c)

/-- What every write of the results that are due keeps, and what depends on the registers, the place in the code, the shadow set and the
flights alone, a delivery keeps. -/
theorem Core.deliver_keeps {β : Type} (v : Core → β)
    (hv : ∀ c d : Core, d.a = c.a → d.pc = c.pc → d.shadow = c.shadow → d.flights = c.flights → v d = v c) (c : Core) (t : Nat)
    (hw : ∀ f ∈ c.flights, f.due ≤ t → ∀ w ∈ f.ws, ∀ c : Core, v (c.write t w) = v c) :
    v (c.deliver t) = v { c with flights := c.flights.filter (fun f => !decide (f.due ≤ t)) } := by
  have hnow : ∀ f ∈ c.flights.filter (fun f => decide (f.due ≤ t)), ∀ w ∈ f.ws, ∀ c : Core, v (c.write t w) = v c := fun f hf =>
    hw f (List.mem_filter.mp hf).1 (of_decide_eq_true (List.mem_filter.mp hf).2)
  have hr : ∀ (c : Core) k n p x, v (c.raise k n p x t) = v c := fun c k n p x =>
    hv _ _ (Core.raise_a ..) (Core.raise_pc ..) (by unfold Core.raise; split <;> rfl) (Core.raise_flights ..)
  have ha : ∀ (c : Core) sc, v (c.acquire t sc) = v c := fun c sc => hv _ _ rfl rfl rfl rfl
  unfold Core.deliver
  extract_lets now c1 c2 c3 bad good c4
  have h1 : v c1 = v { c with flights := c.flights.filter (fun f => !decide (f.due ≤ t)) } := hv _ _ rfl rfl rfl rfl
  have h2 : v c2 = v c1 := Core.foldl_keeps v now c1 fun f hf c => Core.foldl_keeps v f.ws c fun w hm c => by
    split
    · exact hnow f hf w hm c
    · rfl
  have h3 : v c3 = v c2 := hv _ _ rfl rfl rfl rfl
  have h4 : v c4 = v c3 := Core.foldl_keeps v good c3 fun f hf c => by
    have hl : v (f.ws.foldl (fun c w => if w.early then c else c.write t w) c) = v c := Core.foldl_keeps v f.ws c fun w hm c => by
      split
      · rfl
      · exact hnow f (List.mem_filter.mp hf).1 w hm c
    unfold Core.land
    dsimp only
    split
    · rw [ha, hl]
    · exact hl
  rw [← h1, ← h2, ← h3, ← h4]
  split
  · rfl
  · extract_lets
    split
    · rw [hr, hr]
    · rw [hr]

/-- What the stashes of a beat change: the stores that wait for their rows, the steps, and results without a write, due at once. -/
def StashFrame (s t : State) : Prop := ∃ ps held steps fs, (∀ f ∈ fs, f.due = s.beat ∧ f.ws = []) ∧
  t = { s with perfs := ps, core := { s.core with held := held, steps := steps, flights := s.core.flights ++ fs } }
theorem State.stashes_frame (s : State) : StashFrame s s.stashes := by
  unfold State.stashes
  refine List.foldlRecOn (motive := StashFrame s) _ _ ⟨s.perfs, s.core.held, s.core.steps, [], nofun, by simp⟩ fun u hu x _ => ?_
  obtain ⟨ps, held, steps, fs, hf, rfl⟩ := hu
  refine ⟨_, _, _, fs ++ [_], fun f hm => ?_, by simp only [List.append_assoc]; rfl⟩
  rcases List.mem_append.mp hm with h | h
  · exact hf f h
  · cases List.mem_singleton.mp h
    exact ⟨rfl, rfl⟩
theorem State.stashes_of_no_steps {s : State} (h : s.core.steps = []) : s.stashes = s := by
  simp [State.stashes, State.stashNow, h]

/-! ## The frame of a delivery (R20) -/

theorem Arch.rs_zero (a : Arch) : a.rs 0#6 = 0#64 := rfl
theorem Arch.rp_zero (a : Arch) : a.rp 0#4 = 0xFFFFFFFF#32 := rfl

/-- A delivery keeps what no due write of the core names. -/
theorem Core.deliver_reg {β : Type} (v : Arch → β) (n : Nat) (hv : ∀ (c : Core) t w, n ∉ w.targets → v (c.write t w).a = v c.a)
    (c : Core) (t : Nat) (hn : n ∉ (c.flights.filter (fun f => decide (f.due ≤ t))).flatMap Flight.targets) : v (c.deliver t).a = v c.a := by
  refine Core.deliver_keeps (fun c => v c.a) (fun _ _ h _ _ _ => congrArg v h) c t fun f hf hd w hw c => hv c t w fun hw' => hn ?_
  exact List.mem_flatMap.mpr ⟨f, List.mem_filter.mpr ⟨hf, decide_eq_true hd⟩, List.mem_flatMap.mpr ⟨w, hw, hw'⟩⟩
theorem Core.deliver_flights (c : Core) (t : Nat) : (c.deliver t).flights = c.flights.filter (fun f => !decide (f.due ≤ t)) :=
  Core.deliver_keeps Core.flights (fun _ _ _ _ _ h => h) c t fun _ _ _ w _ c => c.write_flights t w
theorem Core.deliver_pc (c : Core) (t : Nat) : (c.deliver t).pc = c.pc :=
  Core.deliver_keeps Core.pc (fun _ _ _ h _ _ => h) c t fun _ _ _ w _ c => c.write_pc t w
theorem Core.deliver_shadow (c : Core) (t : Nat) : (c.deliver t).shadow = c.shadow :=
  Core.deliver_keeps Core.shadow (fun _ _ _ _ h _ => h) c t fun _ _ _ w _ c => c.write_shadow t w

/-- The registers that are due are the same with the results of the stashes, which write none. -/
theorem due_targets_append (fs gs : List Flight) (t : Nat) (h : ∀ f ∈ gs, f.ws = []) :
    ((fs ++ gs).filter (fun f => decide (f.due ≤ t))).flatMap Flight.targets =
      (fs.filter (fun f => decide (f.due ≤ t))).flatMap Flight.targets := by
  have hg : (gs.filter (fun f => decide (f.due ≤ t))).flatMap Flight.targets = [] :=
    List.flatMap_eq_nil_iff.mpr fun f hf => by simp [Flight.targets, h f (List.mem_filter.mp hf).1]
  rw [List.filter_append, List.flatMap_append, hg, List.append_nil]

theorem deliveryFrame : Claims.DeliveryFrame := by
  intro s t ht due
  obtain ⟨ps, held, steps, fs, hf, hs⟩ := s.stashes_frame
  unfold exec execResultDelivery at ht
  rw [hs] at ht
  cases ht
  have hdue : ((s.core.flights ++ fs).filter (fun f => decide (f.due ≤ s.beat))).flatMap Flight.targets = due :=
    due_targets_append _ _ _ fun f h => (hf f h).2
  refine ⟨fun n hn => ?_, fun n hn => ?_, fun n hn => ?_, Arch.rs_zero _, Arch.rp_zero _, fun f hm hd => ?_, fun f hm => ?_, rfl, rfl, rfl,
    Core.deliver_pc .., Core.deliver_shadow ..⟩
  · exact Core.deliver_reg (fun a => a.rs n) _ (fun c t w => c.write_rs t w n) _ _ (hdue ▸ hn)
  · exact Core.deliver_reg (fun a => a.rv n) _ (fun c t w => c.write_rv t w n) _ _ (hdue ▸ hn)
  · exact Core.deliver_reg (fun a => a.rp n) _ (fun c t w => c.write_rp t w n) _ _ (hdue ▸ hn)
  · rw [Core.deliver_flights]
    exact List.mem_filter.mpr ⟨List.mem_append_left _ hm, by simpa using hd⟩
  · rw [Core.deliver_flights] at hm
    simpa using (List.mem_filter.mp hm).2

/-! ## The delivery of SETS (R103) -/

theorem and_ones (x : Word64) : x &&& 0xFFFFFFFFFFFFFFFF#64 = x := BitVec.and_allOnes
/-- A field inside a mask is the field of the masked word. -/
theorem field_of_masked (x m : Word64) (k n : Nat) (h : ∀ i < n, m.getLsbD (k + i) = true) :
    ((x &&& m) >>> k).setWidth n = x.extractLsb' k n := by
  refine BitVec.eq_of_getLsbD_eq fun i hi => ?_
  simp [hi, h i hi]
theorem high_half_of_masked (x : Word64) : (x &&& 0xFFFFFFFF00000000#64).toNat / 2 ^ 32 = x.toNat / 2 ^ 32 := by
  rw [BitVec.toNat_and, ← Nat.shiftRight_eq_div_pow, Nat.shiftRight_and_distrib, Nat.shiftRight_eq_div_pow]
  refine (Nat.and_two_pow_sub_one_eq_mod (x.toNat / 2 ^ 32) 32).trans (Nat.mod_eq_of_lt ?_)
  omega
theorem low_half_of_masked (x : Word64) : (x &&& 0xFFFFFFFF#64).toNat = x.toNat % 2 ^ 32 :=
  Nat.and_two_pow_sub_one_eq_mod x.toNat 32
theorem Core.setSpecial_lc (c : Core) (t : Nat) (k : Fin 4) (x : Word64) :
    c.setSpecial t (0x1B + k.val) x = { c with a := c.a.setLc k.val x } := by
  match k with
  | 0 | 1 | 2 | 3 => exact congrArg (fun y => ({ c with a := c.a.setLc _ y } : Core)) (and_ones x)

theorem deliveryOfSets : Claims.DeliveryOfSets := by
  intro c t x
  refine ⟨?_, field_of_masked x 0xFFF#64 8 4 (by decide), rfl, and_ones x, high_half_of_masked x, rfl, rfl, ⟨low_half_of_masked x, rfl⟩,
    and_ones x, rfl, ⟨rfl, rfl⟩, and_ones x, and_ones x, ?_, fun k => ?_, fun k => ?_, rfl, fun idx h => ?_⟩
  · exact field_of_masked x 0xFFF#64 0 8 (by decide)
  · simp [Core.setSpecial, specMask]
  · rw [Core.setSpecial_lc]
    exact c.a.setLc_lc k x
  · rw [Core.setSpecial_lc]
    exact c.a.setLc_zero_loops k
  · simp only [List.mem_cons, List.not_mem_nil, or_false] at h
    rcases h with rfl | rfl | rfl | rfl | rfl | rfl | rfl | rfl | rfl | rfl | rfl | rfl <;> rfl

/-! ## The delivery of one result (R20, R29, R74) -/

/-- The core as one result leaves the results in flight, before its writes: its flags are raised unless it faults. -/
def Core.took (c : Core) (t : Nat) (f : Flight) : Core :=
  { c with
    flights := []
    lastDone := t
    landed := f.ws.filterMap (fun w => match w with | .p n _ _ => some (t, 0x80 + n.toNat, f.issue, f.slot) | _ => none)
    sticky := if f.fault.isSome then c.sticky else c.sticky ||| f.fl }

/-- Of a result without an early write, the early writes change nothing. -/
theorem Core.foldl_early (ws : List Wr) (h : ∀ w ∈ ws, w.early = false) (t : Nat) (c : Core) :
    ws.foldl (fun c w => if w.early then c.write t w else c) c = c :=
  Core.foldl_keeps (fun c => c) ws c fun w hw c => by simp [h w hw]
/-- And the writes that are not early are all of them. -/
theorem Core.foldl_late : ∀ (ws : List Wr) (_ : ∀ w ∈ ws, w.early = false) (t : Nat) (c : Core),
    ws.foldl (fun c w => if w.early then c else c.write t w) c = ws.foldl (fun c w => c.write t w) c
  | [], _, _, _ => rfl
  | w :: r, h, t, c => by
    rw [List.foldl_cons, List.foldl_cons, h w List.mem_cons_self, if_neg Bool.false_ne_true]
    exact Core.foldl_late r (fun w hw => h w (List.mem_cons_of_mem _ hw)) t _

section
variable {c : Core} {t : Nat} {f : Flight} (hf : c.flights = [f]) (hd : f.due ≤ t) (he : ∀ w ∈ f.ws, w.early = false)
include hf hd he

/-- One result is due: it lands, unless it faults or raises an enabled flag. -/
theorem Core.deliver_one : c.deliver t =
    if f.fault.isSome || c.trapping f.fl then
      (c.took t f).raise (f.fault.getD (0x0F, auxArith (t - f.issue) f.slot f.fl)).1 1 c.pc
        (f.fault.getD (0x0F, auxArith (t - f.issue) f.slot f.fl)).2 t
    else (c.took t f).land t f := by
  unfold Core.deliver
  extract_lets now c1 c2 c3 bad good c4 fl n
  have hnow : now = [f] := by simp [now, hf, hd]
  have h2 : c2 = c1 := by simp only [c2, hnow, List.foldl_cons, List.foldl_nil, Core.foldl_early f.ws he]
  have h3 : c3 = c.took t f := by simp [c3, h2, c1, hnow, hf, hd, Core.took] <;> rfl
  have h4 : c4 = good.foldl (fun c f => c.land t f) (c.took t f) := h3 ▸ rfl
  have ht : ∀ g : Flight, c3.trapping g.fl = c.trapping g.fl := fun g => by rw [h3]; rfl
  by_cases hb : (f.fault.isSome || c.trapping f.fl) = true
  · have hbad : bad = [f] := by simp only [bad, hnow, ht]; exact List.filter_cons_of_pos hb
    have hgood : good = [] := by simp only [good, hnow, ht]; exact List.filter_cons_of_neg (by rw [hb]; decide)
    have hn : n = 1 := by simp only [n, hbad]; cases hx : f.fault <;> simp [hx]
    have hfl : f.fault = none → fl = f.fl := fun hx => by simp [fl, hbad, hx]
    rw [if_pos hb, h4, hgood, hbad, hn]
    cases hx : f.fault with
    | none => simp [lowestSlot, hx, hfl hx, Core.took]
    | some r => simp [lowestSlot, hx, Core.took]
  · have hbad : bad = [] := by simp only [bad, hnow, ht]; exact List.filter_cons_of_neg hb
    have hgood : good = [f] := by simp only [good, hnow, ht]; exact List.filter_cons_of_pos (by simpa using hb)
    rw [if_neg hb, h4, hgood, hbad]
    rfl
/-- R20: a plain result is written. -/
theorem Core.deliver_plain (ha : f.acq = none) (hp : Plain c f) : c.deliver t = f.ws.foldl (fun c w => c.write t w) (c.took t f) := by
  obtain ⟨h1, h2⟩ := hp
  rw [Core.deliver_one hf hd he, h1, h2, if_neg (by simp), Core.land, ha, Core.foldl_late f.ws he]
end

/-- R20: a vector write takes the lanes of its mask. -/
theorem laneAt_mergeLanes (m : Word32) (old x : Lanes) {j : Nat} (hj : j < 32) :
    laneAt (mergeLanes m old x) j = if m.getLsbD j = true then laneAt x j else laneAt old j := by
  have hv : (mergeLanes m old x).toList = (List.range 32).map (fun k => if m.getLsbD k then laneAt x k else laneAt old k) := rfl
  rw [laneAt, hv, List.getD_eq_getElem?_getD, List.getElem?_map, List.getElem?_range hj]
  rfl
theorem auxArith_dist (d slot : Nat) (fl : Flags8) : ∃ dist < 256, (d < 256 → dist = d) ∧
    auxArith d slot fl = BitVec.ofNat 64 (dist * 2 ^ 16 + slot * 2 ^ 12 + fl.toNat) := by
  unfold auxArith
  split
  · exact ⟨d, ‹_›, fun _ => rfl, rfl⟩
  · exact ⟨_, BitVec.isLt _, fun h => absurd h ‹_›, rfl⟩

/-- What the delivery of one result does, where the engine reads no tile. -/
theorem execResultDelivery_one {s : State} (h : s.core.steps = []) :
    exec .resultDelivery s = .next { s with core := s.core.deliver s.beat } := by
  unfold exec execResultDelivery
  rw [State.stashes_of_no_steps h]

theorem deliveryWritesOneResult : Claims.DeliveryWritesOneResult := by
  intro s f hf hd hs ha htr
  have hx := execResultDelivery_one hs
  refine ⟨fun n x tn hw hp => ⟨_, hx, ?_⟩, fun n m x tn hw hp => ⟨_, hx, ?_⟩, fun n m x hw hp => ⟨_, hx, ?_⟩,
    fun n x on cc tn hw hp => ⟨_, hx, ?_⟩, fun hnf hfl he _ => ⟨_, hx, ?_⟩, fun cause aux hff he _ => ⟨_, hx, ?_⟩⟩
  · rw [Core.deliver_plain hf hd (by simp [hw, Wr.early]) ha hp, hw]
    simp [Core.write, Core.took, Arch.rs_ws, hp.1, htr]
  · rw [Core.deliver_plain hf hd (by simp [hw, Wr.early]) ha hp, hw]
    refine ⟨fun k j hj => ?_, by simp [Core.write, Core.took], by simp [Core.write, Core.took, hp.1]⟩
    simp only [List.foldl_cons, List.foldl_nil, Core.write, Core.took, Arch.rv_wv]
    by_cases hk : k = n
    · simp [hk, laneAt_mergeLanes m _ x hj]
    · simp [hk]
  · rw [Core.deliver_plain hf hd (by simp [hw, Wr.early]) ha hp, hw]
    intro k
    simp only [List.foldl_cons, List.foldl_nil, Core.write, Core.took, Arch.rp_wp, mergeBits]
    by_cases hk : k = n
    · simp [hk]
    · simp [hk]
  · rw [Core.deliver_plain hf hd (by simp [hw, Wr.early]) ha hp, hw]
    simp [Core.write]
  · rw [Core.deliver_one hf hd he, hnf, hfl, if_pos (by simp)]
    obtain ⟨dist, h1, h2, h3⟩ := auxArith_dist (s.beat - f.issue) f.slot f.fl
    refine ⟨Core.raise_a .., Core.raise_flights .., ?_, dist, h1, h2, ?_⟩
    · rw [Core.raise_sticky]
      simp [Core.took, hnf]
    · rw [← h3]
      exact Core.raise_first _ _ _ _ _ _ htr
  · rw [Core.deliver_one hf hd he, hff, if_pos (by simp)]
    refine ⟨Core.raise_a .., ?_, Core.raise_first _ _ _ _ _ _ htr⟩
    rw [Core.raise_sticky]
    simp [Core.took, hff]

end Sys2Proof.Machine
open Sys2Proof Sys2Proof.Machine
/-- Settles O53: one due result lands or raises its trap; what no due write names, a delivery keeps; SETS writes under its mask. -/
theorem delivery : Obligations.Delivery := ⟨deliveryWritesOneResult, deliveryFrame, deliveryOfSets⟩
end

section
namespace Sys2Proof.Machine

/-! ## A word of the core's own scratchpad (R192, R242) -/

/-- The place of an address in the core's own window. -/
def ownOff (s : State) (x : Nat) : Nat := x - spadBase - s.core.pcore * 0x40000
/-- The value of the quarter register of an address in the core's own window. -/
def ownQf (s : State) (x : Nat) : Word64 := (s.banksOf s.core.pclus s.core.pcore).qf (ownOff s x / 0x4000)
/-- The region of a plain word of the core's own window. -/
def ownReg (s : State) (x : Nat) : Reg :=
  ⟨0, 0, qRc (ownQf s x), spadBase + s.core.pcore * 0x40000, spadBase + s.core.pcore * 0x40000 + qSbase (ownQf s x), true, true, false, true, true,
    (ownQf s x).toNat⟩
/-- Its bytes, the lowest address first. -/
def ownLocs (s : State) (x : Nat) : List Loc := (List.range 8).map (fun k => .spad s.core.pclus s.core.pcore (ownOff s x + k))
/-- And the element that it is. -/
def ownElem (s : State) (x : Nat) : Elem := ⟨0, x, ownLocs s x, 0, 64, 0, 0, qRc (ownQf s x), none⟩

/-- Where the bytes of an aligned word of the window lie. -/
structure InOwnWindow (s : State) (x : Nat) : Prop where
  core : s.core.pcore < 128
  low : spadBase + s.core.pcore * 0x40000 ≤ x
  high : x < spadBase + (s.core.pcore + 1) * 0x40000
  aligned : x % 8 = 0

section
variable {s : State} {x : Nat}

theorem OwnRaw64.no_window (h : OwnRaw64 s x) : s.windows = [] := by
  obtain ⟨_, _, _, _, _, _, _, _, _, _, hw, _⟩ := h
  exact hw
theorem OwnRaw64.window (h : OwnRaw64 s x) : InOwnWindow s x := by
  obtain ⟨h1, h2, h3, h4, _⟩ := h
  exact ⟨h1, h2, h3, h4⟩

theorem spadBase_eq : spadBase = 0x800000000000 := rfl
theorem InOwnWindow.winIn_eq (h : InOwnWindow s x) {k : Nat} (hk : k < 8) : winIn (x + k) = ownOff s x + k := by
  obtain ⟨_, h2, h3, h4⟩ := h
  have h5 := spadBase_eq
  unfold winIn winOff ownOff
  omega
theorem InOwnWindow.winCore_eq (h : InOwnWindow s x) {k : Nat} (hk : k < 8) : winCore (x + k) = s.core.pcore := by
  obtain ⟨_, h2, h3, h4⟩ := h
  have h5 := spadBase_eq
  unfold winCore winOff
  omega
theorem InOwnWindow.inWindow_eq (h : InOwnWindow s x) : inWindow x = true := by
  obtain ⟨h1, h2, h3, h4⟩ := h
  exact decide_eq_true (by omega)
theorem InOwnWindow.pathOf_eq (h : InOwnWindow s x) : pathOf s.core x = .own := by
  have hw : (x - spadBase) / 0x40000 = s.core.pcore := h.winCore_eq (k := 0) (by decide)
  obtain ⟨h1, h2, h3, h4⟩ := h
  have h5 := spadBase_eq
  unfold pathOf
  dsimp only
  rw [Int.toNat_natCast, hw, beq_self_eq_true, if_neg (by omega), if_neg (by omega), if_pos (by omega), if_pos rfl]
theorem InOwnWindow.locOf_eq (h : InOwnWindow s x) {k : Nat} (hk : k < 8) :
    s.locOf s.core (x + k) = .spad s.core.pclus s.core.pcore (ownOff s x + k) := by
  have h5 := h.winCore_eq hk
  have h6 := h.winIn_eq hk
  have h7 := spadBase_eq
  obtain ⟨h1, h2, h3, h4⟩ := h
  rw [State.locOf, h5, h6, if_neg (by omega), if_pos (by omega)]

theorem OwnRaw64.regionOf_eq (h : OwnRaw64 s x) : s.regionOf s.core x = .ok (ownReg s x) := by
  have hi := h.window.winIn_eq (k := 0) (by decide)
  have hc := h.window.winCore_eq (k := 0) (by decide)
  have hp := h.window.pathOf_eq
  obtain ⟨_, _, _, _, hmode, hfmt, hgeom, hdb, _⟩ := h
  rw [Nat.add_zero] at hi hc
  simp only [State.regionOf, hp, hi, hc, Nat.add_zero, ownReg, ownQf, ownOff] at *
  simp [hmode, hfmt, hgeom, hdb]

/-- The word counted from the data base of its quarter is the word at the address. -/
theorem InOwnWindow.elemAddr_eq (h : InOwnWindow s x) :
    elemAddr 0 .n64 (spadBase + s.core.pcore * 0x40000) (floorIndex (ownReg s x) .n64 x) = ((x : Int), 0) := by
  obtain ⟨h1, h2, h3, h4⟩ := h
  have h5 := spadBase_eq
  simp only [elemAddr, floorIndex, ownReg, elemSize, Ty.width]
  simp
  omega
theorem InOwnWindow.elemIndex_isSome (h : InOwnWindow s x) : (elemIndex 0 .n64 (spadBase + s.core.pcore * 0x40000) x).isSome = true := by
  obtain ⟨h1, h2, h3, h4⟩ := h
  have h5 := spadBase_eq
  simp [elemIndex, elemSize, Ty.width]
  omega
/-- A plain load or store of 64 bits. -/
def IsWordOp (opc : Nat) : Prop := opc = 0xB0 ∨ opc = 0xB1
theorem OwnRaw64.elemOf_eq (h : OwnRaw64 s x) {opc : Nat} (ho : IsWordOp opc) :
    s.elemOf ⟨s.core, opFmtOk opc .n64, none, x, ownReg s x, .n64, readsMem opc, writesMem opc, true⟩ 0 (floorIndex (ownReg s x) .n64 x) =
      .ok (ownElem s x, ownReg s x) := by
  have hr := h.regionOf_eq
  have ha := h.window.elemAddr_eq
  have hl : (List.range 8).map (fun k => s.locOf s.core (x + k)) = ownLocs s x :=
    List.map_congr_left fun k hk => h.window.locOf_eq (List.mem_range.mp hk)
  have hf : opFmtOk opc .n64 = fun _ => true := by rcases ho with rfl | rfl <;> rfl
  have hx : ¬ ((x : Int) < 0 ∨ (x : Int) ≥ 2 ^ 56) := by
    obtain ⟨h1, h2, h3, h4⟩ := h.window
    have h5 := spadBase_eq
    omega
  have he : x / 4096 = (x + 8 - 1) / 4096 := by
    have := h.window.aligned
    omega
  have hb : breaks (ownReg s x) (ownReg s x) x x = false := by simp [breaks]
  have hc : ∀ rd wr, regCheck (ownReg s x) .n64 rd wr x = .ok () := fun rd wr => by
    have hg : fmtOk 0 0 = true := by decide
    have ht : typeFits 0 .n64 = true := rfl
    have hl : ¬ x < spadBase + s.core.pcore * 0x40000 := Nat.not_lt.mpr h.window.low
    simp [regCheck, ownReg, hg, ht, hl]
  have hsc : ∀ i, s.scaleLoc s.core (ownReg s x) i x = .ok none := fun i => rfl
  unfold State.elemOf
  simp only [ownReg] at *
  simp only [ha, hr, he, State.edges, elemBytes, elemSize, Ty.width, if_neg hx, Int.toNat_natCast]
  simp [failsOf, firstFail, ownElem, elemWidth, elemSize, Ty.width, hb, hc, hsc, hl, hf]

/-- The access of such an operation has the one element. -/
theorem OwnRaw64.accessOf_eq (h : OwnRaw64 s x) {opc : Nat} (ho : IsWordOp opc) (o : TOp) (ht : o.t = .n64) (vb : Lanes) :
    s.accessOf s.core (accessAt opc o x [0] vb) = .ok [(ownElem s x, ownReg s x)] := by
  have hg : isGather opc = false := by rcases ho with rfl | rfl <;> rfl
  have hv : (opc == 0xC4) = false := by rcases ho with rfl | rfl <;> rfl
  have hb : s.baseOf s.core x .n64 false [0] = .ok (x, ownReg s x) := by rw [State.baseOf, h.regionOf_eq]
  have he := h.elemOf_eq ho
  have hi : (elemIndex (ownReg s x).fmt .n64 (ownReg s x).db x).isSome = true := h.window.elemIndex_isSome
  simp only [State.accessOf, accessAt, ht, hg, hv, hb, hi, if_true, Bool.not_false, Bool.false_eq_true, if_false, List.map_cons, List.map_nil,
    Int.natCast_zero, Int.add_zero, he]
  rfl
theorem OwnRaw64.laneAddrs_eq (h : OwnRaw64 s x) {opc : Nat} (ho : IsWordOp opc) (o : TOp) (ht : o.t = .n64) (vb : Lanes) :
    s.laneAddrs s.core (accessAt opc o x [0] vb) = [x] := by
  have hg : isGather opc = false := by rcases ho with rfl | rfl <;> rfl
  have hb : s.baseOf s.core x .n64 false [0] = .ok (x, ownReg s x) := by rw [State.baseOf, h.regionOf_eq]
  have he : elemAddr (ownReg s x).fmt .n64 (ownReg s x).db (floorIndex (ownReg s x) .n64 x) = ((x : Int), 0) := h.window.elemAddr_eq
  have hm : (x - (ownReg s x).db) % (max 1 (elemSize (ownReg s x).fmt .n64)) = 0 := by
    obtain ⟨h1, h2, h3, h4⟩ := h.window
    have h5 := spadBase_eq
    show (x - (spadBase + s.core.pcore * 0x40000)) % 8 = 0
    omega
  have hf : ((ownReg s x).fmt == 5) = false := rfl
  simp only [State.laneAddrs, accessAt, ht, hg, hb, List.map_cons, List.map_nil, Int.natCast_zero, Int.add_zero, he, Int.toNat_natCast, hf,
    Bool.false_eq_true, if_false, hm, Nat.add_zero]
end

/-! ## A direct load or store of a word (R36, R192) -/

theorem regN_sreg (d : BitVec 6) : regN (sreg d) = d := by revert d; decide
theorem dirMem_offset (off : BitVec 4) : ((off.setWidth 22 * 8#22 : BitVec 22).signExtend 64).toInt = 8 * off.toNat := by revert off; decide
theorem dirMem_t (d a : BitVec 6) (off : BitVec 4) : (dirMem d a off).t = .n64 := rfl
theorem activeMask_dirMem (A : Arch) (d a : BitVec 6) (off : BitVec 4) : activeMask A (dirMem d a off) = 0xFFFFFFFF#32 := by
  simp [activeMask, predNeg, predReg, dirMem, Arch.rp]
theorem memAddr_dirMem (A : Arch) {opc : Nat} (ho : IsWordOp opc) (d a : BitVec 6) (off : BitVec 4) :
    memAddr A opc (dirMem d a off) = ((A.rs a).toNat + 8 * off.toNat : Nat) := by
  have h : memAddr A opc (dirMem d a off) = addrOf (A.rs (regN (sreg a))) ((off.setWidth 22 * 8#22 : BitVec 22).signExtend 64) := by
    rcases ho with rfl | rfl <;> rfl
  rw [h, regN_sreg, addrOf, dirMem_offset]
  simp
theorem sreg_stack (a : BitVec 6) : (sreg a == 61#8 || sreg a == 63#8) = decide (a = 61#6 ∨ a = 63#6) := by revert a; decide
theorem stackTest_sreg (A : Arch) (a : BitVec 6) (x : Nat) (h : a = 61#6 ∨ a = 63#6 → A.stklo.toNat ≤ x) : stackTest A (sreg a) x = none := by
  unfold stackTest
  rw [sreg_stack, if_neg]
  simp only [Bool.and_eq_true, decide_eq_true_eq, not_and]
  exact fun ha => Int.not_lt.mpr (Int.ofNat_le.mpr (h ha))

/-! ## The tests of such an access at issue -/

section
variable {s : State} {x : Nat}

/-- No range is filling, no collective guards a byte, none failed (R254, R346). -/
theorem OwnRaw64.fillTest_none (h : OwnRaw64 s x) (e : Env) (hs : e.s = s) (rs : List (Nat × Nat)) : fillTest e rs = none := by
  obtain ⟨_, _, _, _, _, _, _, _, _, _, _, hcolls, _, hchan⟩ := h
  have hk : ∀ c, s.collsOf c = [] := fun c => by simp [State.collsOf, hcolls]
  have h1 : ∀ lo hi, e.s.failedFlag e.c lo hi = none := fun lo hi => by simp [State.failedFlag, hs, hk]
  have h2 : ∀ k lo hi, e.s.unfilled k lo hi = false := fun k lo hi => by
    rw [hs, State.unfilled, List.any_eq_false]
    intro c hc
    obtain ⟨h0, h1⟩ := hchan c hc
    simp only [List.any_cons, List.any_nil, Bool.or_false, Bool.and_eq_true, Bool.or_eq_true, decide_eq_true_eq, not_and]
    omega
  have h3 : ∀ lo hi, e.s.guarded e.c lo hi = false := fun lo hi => by simp [State.guarded, hs, hk]
  have h4 : rs.findSome? (fun r => e.s.failedFlag e.c r.1 (r.1 + r.2)) = none := List.findSome?_eq_none_iff.mpr fun r _ => h1 _ _
  have h5 : rs.find? (fun r => e.s.unfilled e.c.pclus r.1 (r.1 + r.2) || e.s.guarded e.c r.1 (r.1 + r.2)) = none :=
    List.find?_eq_none.mpr fun r _ => by simp [h2, h3]
  unfold fillTest
  rw [h4, h5]
/-- No atomic holds a bank (R202). -/
theorem windowTest_of_no_window (e : Env) (o : TOp) (els : List Elem) (b0 b1 : Nat) (h : e.s.windows = []) :
    windowTest e o els false b0 b1 = none := by
  have hk : ∀ c k b, e.s.windowHit c k b b0 b1 = false := fun c k b => by simp [State.windowHit, h]
  have hf : (banksTouched els).find? (fun k => e.s.windowHit k.1 k.2.1 k.2.2 b0 b1 || (false && e.s.bankUsed k.1 k.2.1 k.2.2 b0 b1)) = none :=
    List.find?_eq_none.mpr fun k _ => by simp [hk]
  unfold windowTest
  rw [hf]
theorem OwnRaw64.whereOf_own (h : OwnRaw64 s x) : whereOf s.core [ownElem s x] = .own := by
  have h1 : inWindow (ownElem s x).addr = true := h.window.inWindow_eq
  have h2 : winCore (ownElem s x).addr = s.core.pcore := h.window.winCore_eq (k := 0) (by decide)
  simp [whereOf, h1, h2]

/-- The address of a direct load or store passes its checks. -/
theorem OwnRaw64.checkMem_eq (h : OwnRaw64 s x) {opc : Nat} (ho : IsWordOp opc) (e : Env) (hs : e.s = s) {d a : BitVec 6} {off : BitVec 4}
    (hx : (s.core.a.rs a).toNat + 8 * off.toNat = x) (hst : a = 61#6 ∨ a = 63#6 → s.core.a.stklo.toNat ≤ x) :
    checkMem e opc (dirMem d a off) [0] = .ok ⟨x, [ownElem s x], false⟩ := by
  have hlt : (x : Int) < 2 ^ 56 ∧ x < 2 ^ 55 ∧ spadBase ≤ x := by
    obtain ⟨h1, h2, h3, h4⟩ := h.window
    have h5 := spadBase_eq
    omega
  obtain ⟨hlt, hlt', hlow⟩ := hlt
  have hm : memAddr e.a opc (dirMem d a off) = (x : Int) := by rw [memAddr_dirMem e.a ho, Env.a, hs, hx]
  have hw : wrap 56 (x : Int) = x := by
    unfold wrap
    omega
  have hn : memAt x = false := decide_eq_false (by omega)
  have hg : isGather opc = false := by rcases ho with rfl | rfl <;> rfl
  have hc : e.c = s.core := by rw [Env.c, hs]
  have hr := h.accessOf_eq ho (dirMem d a off) rfl (e.a.rv (regN (dirMem d a off).sb))
  have hl := h.laneAddrs_eq ho (dirMem d a off) rfl (e.a.rv (regN (dirMem d a off).sb))
  have ht : stackTest e.a (dirMem d a off).sa (x : Nat) = none := by
    rw [Env.a, hs]
    exact stackTest_sreg s.core.a a x hst
  have hlw : (lowest [x]).getD x = x := rfl
  unfold checkMem
  simp only [hm, hw, hs, hc, hr, hl, hlw, ht, hg, hn]
  have hge : ¬ (x : Int) < 0 := by omega
  have hno : ¬ (x : Int) ≥ 2 ^ 56 := by omega
  simp only [hge, hno, decide_false, Bool.or_false, Bool.false_and, Bool.false_eq_true, if_false, or_self, ite_self]
  rfl
end

/-! ## LD.n64 and ST.n64 of a word of the own scratchpad (R193, R198) -/

/-- No element of such an access goes to another rank. -/
theorem flatRanges_ownElem (e : Env) (opc : Nat) (o : TOp) (s : State) (x : Nat) : flatRanges e opc o ⟨x, [ownElem s x], false⟩ = [] := by
  have hf : (mkReq e opc o .load x [ownElem s x] none).flatLanes = [] := rfl
  unfold flatRanges
  simp [hf]

section
variable {s : State} {x : Nat} (h : OwnRaw64 s x) {d a : BitVec 6} {off : BitVec 4}
  (hx : (s.core.a.rs a).toNat + 8 * off.toNat = x) (hst : a = 61#6 ∨ a = 63#6 → s.core.a.stklo.toNat ≤ x)
include h hx hst in
/-- A direct load or store of a word goes to the answer of a load or of a store. -/
theorem OwnRaw64.opMem_eq {opc : Nat} (ho : IsWordOp opc) (e : Env) (hs : e.s = s) : opMem opc (dirMem d a off) e =
    if isStoreOp opc then storeOut e opc (dirMem d a off) none ⟨x, [ownElem s x], false⟩
    else loadOut e opc (dirMem d a off) ⟨x, [ownElem s x], false⟩ := by
  have hc := h.checkMem_eq ho e hs hx hst (d := d)
  have ha : activeElems opc (dirMem d a off) (memMask e opc (dirMem d a off)) = [0] := by
    rcases ho with rfl | rfl <;> simp [activeElems, memMask, isVecMem, activeMask_dirMem]
  have hg : gapped e opc = false := by rcases ho with rfl | rfl <;> simp [gapped, isAtomicOp]
  have hat : isAtomicOp opc = false := by rcases ho with rfl | rfl <;> rfl
  unfold opMem
  simp [hc, ha, hg, hat]

include h in
/-- What the load reads of its bytes: memory, where no store is pending. -/
theorem OwnRaw64.reqSee_eq (e : Env) (hs : e.s = s) (r : Req) (hr : r.got = []) {l : Loc} (hl : l ∈ ownLocs s x) :
    e.s.reqSee e.c r (e.s.heldView e.c e.t) l = (s.mem.get l.key, false) := by
  obtain ⟨_, _, _, _, _, _, _, _, hperfs, hheld, _, _, hblocks, _⟩ := h
  obtain ⟨k, _, rfl⟩ := List.mem_map.mp hl
  have hc : e.c = s.core := by rw [Env.c, hs]
  have hv : s.heldView s.core e.t = [] := by simp [State.heldView, State.heldBy, hperfs, hheld, State.pendWrites]
  rw [hs, hc, hv]
  simp [State.reqSee, hr, overlay, State.blockPoisoned, hblocks]

theorem spadKey_add (k n o i : Nat) : spadKey k n (o + i) = spadKey k n o + i := by
  unfold spadKey
  rw [← Nat.add_assoc]
theorem ownKey_eq (s : State) (x : Nat) : ownKey s x = spadKey s.core.pclus s.core.pcore (ownOff s x) := rfl
theorem ownLocs_keys (s : State) (x : Nat) : (ownLocs s x).map Loc.key = (List.range 8).map (fun i => ownKey s x + i) := by
  simp only [ownLocs, List.map_map, Function.comp_def, Loc.key, spadKey_add, ownKey_eq]
/-- None of its bytes is poisoned. -/
theorem poisonAt_ownElem (s : State) (x : Nat) {bad : Loc → Bool} (hb : ∀ l ∈ ownLocs s x, bad l = false) :
    poisonAt [ownElem s x] bad = none := by
  have hp : (ownElem s x).places.filter (fun y => bad y.2) = [] := List.filter_eq_nil_iff.mpr fun y hy => by
    have hy : y ∈ (ownLocs s x).mapIdx (fun i l => (x + i, l)) := by simpa [Elem.places, ownElem] using hy
    obtain ⟨i, hi, rfl⟩ := List.mem_mapIdx.mp hy
    simp [hb _ (List.getElem_mem hi)]
  simp [poisonAt, hp, lowest]
theorem intRes_n64 (n : Nat) : intRes .n64 (Ty.intOf .n64 n) = BitVec.ofNat 64 n := by
  have hw : wrap 64 ((n % 2 ^ 64 : Nat) : Int) = n % 2 ^ 64 := by
    unfold wrap
    omega
  have h : intRes .n64 (Ty.intOf .n64 n) = BitVec.ofNat 64 (wrap 64 ((n % 2 ^ 64 : Nat) : Int)) := by simp [intRes, Ty.intOf, Ty.signed, Ty.width]
  rw [h, hw]
  exact BitVec.eq_of_toNat_eq (by simp)
/-- R6, R198: the value of the word, the lowest address first. -/
theorem loadValues_ownElem (s : State) (x : Nat) (r : Req) (hr : r.o.t = .n64) {rd : Loc → Byte}
    (hb : ∀ l ∈ ownLocs s x, rd l = s.mem.get l.key) :
    loadValues r [ownElem s x] rd = ([(0, BitVec.ofNat 64 (leNat ((List.range 8).map (fun i => s.mem.get (ownKey s x + i)))))], 0#8) := by
  have hm : (ownLocs s x).map rd = (List.range 8).map (fun i => s.mem.get (ownKey s x + i)) := calc
    _ = (ownLocs s x).map (fun l => s.mem.get l.key) := List.map_congr_left hb
    _ = ((ownLocs s x).map Loc.key).map s.mem.get := by rw [List.map_map, Function.comp_def]
    _ = _ := by rw [ownLocs_keys, List.map_map, Function.comp_def]
  have hw : elemRaw (ownElem s x) rd = leNat ((List.range 8).map (fun i => s.mem.get (ownKey s x + i))) % 2 ^ 64 := by
    rw [← hm]
    exact congrArg (· % 2 ^ 64) (Nat.div_one _)
  simp only [loadValues, List.foldl_cons, List.foldl_nil, hr, hw]
  have ho : ∀ n : Nat, BitVec.ofNat 64 (n % 2 ^ 64) = BitVec.ofNat 64 n := fun n => BitVec.eq_of_toNat_eq (by simp)
  simp only [decodeElem, ownElem, Ty.isInt, if_true, intRes_n64, ho]
  rfl

/-- The request of a direct load of the word. -/
def wordLoad (e : Env) (d a : BitVec 6) (off : BitVec 4) (s : State) (x : Nat) : Req := mkReq e 0xB0 (dirMem d a off) .load x [ownElem s x] none
/-- R198, R217: the flight of a load of the word, whose bytes are at hand. -/
theorem loadFlight_ownElem (s : State) (x : Nat) {r : Req} {d a : BitVec 6} {off : BitVec 4} (hk : r.kind = .load) (ho : r.opc = 0xB0)
    (hro : r.o = dirMem d a off) (hm : r.mask = 0xFFFFFFFF#32) {rd : Loc → Byte × Bool}
    (hb : ∀ l ∈ ownLocs s x, rd l = (s.mem.get l.key, false))
    (due : Nat) (cls : Option LatClass) : loadFlight r [ownElem s x] rd due cls = ⟨due, r.issue, r.o.slot, cls,
      [.s d (BitVec.ofNat 64 (leNat ((List.range 8).map (fun i => s.mem.get (ownKey s x + i))))) true 0], 0#8, none, none⟩ := by
  have hp := poisonAt_ownElem s x (bad := fun l => (rd l).2) fun l hl => by rw [hb l hl]
  have hv := loadValues_ownElem s x r (by rw [hro]; rfl) (rd := fun l => (rd l).1) fun l hl => by rw [hb l hl]
  have hmem : ∀ y, memWr r (pick [(0, y)]) = .s d y true 0 := fun y => by
    simp [memWr, isVecMem, pick, taintOfLoad, ho, hm, hro, dirMem, regN_sreg]
  have hfmt : [ownElem s x].any (fun el => el.fmt == fmtFlat) = false := rfl
  rw [loadFlight, hp]
  simp only [hv, hmem, hfmt, hk, Bool.false_eq_true, if_false]
  rfl
/-- R192, R193: a store to a window of the cluster performs at its beat, where no test stops it. -/
theorem storeOut_spad (e : Env) (o : TOp) (k : Checked) (hf : ∀ rs, fillTest e rs = none) (hw : (whereOf e.c k.els != .memory) = true)
    (hwin : ∀ b, windowTest e o k.els false b b = none) : ∃ p r, storeOut e 0xB1 o none k = .ok { perfs := [p] } ∧
    p.due = storeBeat e 0xB1 k.els ∧ p.req = some r ∧ r.kind = .store ∧ r.d = e.a.rs (regN o.dst) ∧ r.elems = k.els := by
  unfold storeOut
  extract_lets due spad rel r0 r p eff eff'
  have heff : eff' = eff := if_pos hw
  refine ⟨{ p with bad := 0 }, r, ?_, rfl, rfl, rfl, rfl, rfl⟩
  have hk : (if (spad && !e.c.guarded) = true then windowTest e o k.els false due due else none) = none := by
    split
    · exact hwin due
    · rfl
  rw [hf, hk, heff]
  rfl

include h hx hst
/-- R192, R193, R198: a load of a word delivers its eight bytes, the lowest address first. -/
theorem OwnRaw64.opLd_eq (e : Env) (hs : e.s = s) : opLd (dirMem d a off) e = .ok (oneResult s (dirMem d a off) (some .sl) (beatsOf s .sl)
    [.s d (BitVec.ofNat 64 (leNat ((List.range 8).map (fun i => s.mem.get (ownKey s x + i))))) true 0] 0#8) := by
  have hop : opLd (dirMem d a off) e = loadOut e 0xB0 (dirMem d a off) ⟨x, [ownElem s x], false⟩ := h.opMem_eq hx hst (.inl rfl) e hs
  have hw : whereOf e.c [ownElem s x] = .own := by
    rw [Env.c, hs]
    exact h.whereOf_own
  have hwin : windowTest e (dirMem d a off) [ownElem s x] false e.t e.t = none := windowTest_of_no_window _ _ _ _ _ (by
    rw [hs]
    exact h.no_window)
  have hsee := fun l (hl : l ∈ ownLocs s x) => h.reqSee_eq e hs (wordLoad e d a off s x) rfl hl
  have hfl := loadFlight_ownElem s x (r := wordLoad e d a off s x) rfl rfl rfl (activeMask_dirMem e.a d a off) hsee (e.t + e.lat .sl) (some .sl)
  rw [hop, loadOut]
  simp only [h.fillTest_none e hs, hw, hwin]
  refine (congrArg (fun f => Out.ok { flights := [f] }) hfl).trans ?_
  subst hs
  rfl
/-- R192, R193: a store of a word performs two beats later. -/
theorem OwnRaw64.opSt_eq (e : Env) (hs : e.s = s) : ∃ p r, opSt (dirMem d a off) e = .ok { perfs := [p] } ∧
    p.due = s.beat + 2 ∧ p.req = some r ∧ r.kind = .store ∧ r.d = s.core.a.rs d ∧ r.elems = [ownElem s x] := by
  have hop : opSt (dirMem d a off) e = storeOut e 0xB1 (dirMem d a off) none ⟨x, [ownElem s x], false⟩ := h.opMem_eq hx hst (.inr rfl) e hs
  have hw : whereOf e.c [ownElem s x] = .own := by
    rw [Env.c, hs]
    exact h.whereOf_own
  obtain ⟨p, r, h1, h2, h3, h4, h5, h6⟩ := storeOut_spad e (dirMem d a off) ⟨x, [ownElem s x], false⟩ (h.fillTest_none e hs) (by rw [hw]; rfl)
    fun b => windowTest_of_no_window _ _ _ _ _ (by rw [hs]; exact h.no_window)
  refine ⟨p, r, hop.trans h1, ?_, h3, h4, ?_, h6⟩
  · rw [h2, storeBeat, hw]
    subst hs
    rfl
  · rw [h5, dirMem, regN_sreg, Env.a, hs]
end

theorem issued_perfs (opc : Nat) (o : TOp) (s : State) (p : Perf) (h : s.core.guarded = false) :
    (issued opc o s { perfs := [p] }).perfs = s.perfs ++ [p] := by
  simp [issued, commit, h]
theorem OwnRaw64.no_perf {s : State} {x : Nat} (h : OwnRaw64 s x) : s.perfs = [] := by
  obtain ⟨_, _, _, _, _, _, _, _, hp, _⟩ := h
  exact hp

end Sys2Proof.Machine
open Sys2Proof Sys2Proof.Machine
/-- Settles O10: the window is one region, the word one element of it, and no pending store stands between the load and memory. -/
theorem ownScratchpadWords : Obligations.OwnScratchpadWords := by
  unfold Obligations.OwnScratchpadWords
  intro d a off s o addr hraw hst
  refine ⟨fun hi => ?_, fun hi hg => ?_⟩
  · have hop := hraw.opLd_eq rfl hst (seen 0xB0 o s) rfl (d := d)
    exact congrArg Host.Outcome.next (Laws.issueOne_ok hi hop (.inr rfl))
  · obtain ⟨p, r, hop, hdue, hreq, hkind, hd, hel⟩ := hraw.opSt_eq rfl hst (seen 0xB1 o s) rfl (d := d)
    refine ⟨_, p, r, congrArg Host.Outcome.next (Laws.issueOne_ok hi hop (.inl hg)), ?_, hdue, hreq, hkind, hd, ?_, ?_⟩
    · rw [issued_perfs _ _ _ _ hg, hraw.no_perf]
      rfl
    · exact commit_mem s _ _ _ fun e he => by
        cases List.mem_singleton.mp he
        exact fun _ => rfl
    · rw [hel, List.flatMap_cons, List.flatMap_nil, List.append_nil]
      exact ownLocs_keys s addr
end

section
namespace Sys2Proof.Machine

/-! ## What a fill leaves in place (R239, R270) -/

/-- A fold over states keeps what each of its steps keeps. -/
theorem State.foldl_keeps {α β : Type} (v : State → β) {f : State → α → State} (hf : ∀ s x, v (f s x) = v s) :
    ∀ (l : List α) (s : State), v (l.foldl f s) = v s
  | [], _ => rfl
  | x :: r, s => (State.foldl_keeps v hf r (f s x)).trans (hf s x)

/-- The beat, and the place of the stepping core. -/
def State.beatPlace (s : State) : Nat × Nat × Nat := (s.beat, s.core.pclus, s.core.pcore)

@[simp] theorem Core.l1Fill_pclus (c : Core) (b : Banks) (k : Nat) (d : BitVec 1024) (p : Bool) : (c.l1Fill b k d p).pclus = c.pclus := by
  unfold Core.l1Fill; dsimp only; split <;> rfl
@[simp] theorem Core.l1Fill_pcore (c : Core) (b : Banks) (k : Nat) (d : BitVec 1024) (p : Bool) : (c.l1Fill b k d p).pcore = c.pcore := by
  unfold Core.l1Fill; dsimp only; split <;> rfl
theorem State.mapCore_beatPlace (s : State) (a b : Nat) {f : Core → Core} (hc : ∀ c, (f c).pclus = c.pclus) (hk : ∀ c, (f c).pcore = c.pcore) :
    (s.mapCore a b f).beatPlace = s.beatPlace := by
  simp only [State.beatPlace, State.mapCore]
  split <;> simp [hc, hk]
theorem State.ite_beatPlace {p : Prop} [Decidable p] {a b s : State} (ha : a.beatPlace = s.beatPlace) (hb : b.beatPlace = s.beatPlace) :
    (if p then a else b).beatPlace = s.beatPlace := by
  split
  · exact ha
  · exact hb
theorem State.poisonPage_beatPlace (s : State) (a : Nat) : (s.poisonPage a).beatPlace = s.beatPlace := State.ite_beatPlace rfl rfl
theorem State.fillSector_beatPlace (s : State) (die k : Nat) (u : Bool) : (s.fillSector die k u).beatPlace = s.beatPlace := by
  cases u with
  | false => rfl
  | true => exact s.poisonPage_beatPlace (k * 128)
theorem State.fillFor_beatPlace (s : State) (c : Core) (r : Req) (u : Bool) : (s.fillFor c r u).beatPlace = s.beatPlace :=
  State.foldl_keeps State.beatPlace (fun s _ => State.ite_beatPlace (s.fillSector_beatPlace ..) rfl) _ s
theorem State.l1Miss_beatPlace (s : State) (c : Core) (r : Req) : (s.l1Miss c r).beatPlace = s.beatPlace :=
  State.ite_beatPlace rfl (State.foldl_keeps State.beatPlace
    (fun s _ => State.ite_beatPlace rfl (s.mapCore_beatPlace _ _ (fun _ => Core.l1Fill_pclus ..) (fun _ => Core.l1Fill_pcore ..))) _ s)

/-! ## The delivery of a request (R194) -/

/-- The stepping core is the first of its place. -/
theorem State.coreAt_own {s : State} {a b : Nat} (ha : a = s.core.pclus) (hb : b = s.core.pcore) : s.coreAt a b = s.core := by
  simp [State.coreAt, State.allCores, ha, hb]
/-- R194: the flight of a delivered request is on its way, and the request is gone. -/
theorem State.reply_own {s : State} {c : Core} (r : Req) (f : Flight) (hc : c.pclus = s.core.pclus ∧ c.pcore = s.core.pcore) :
    f ∈ (s.reply c r f).core.flights ∧ r ∉ (s.reply c r f).core.reqs := by
  simp [State.reply, State.mapCore, hc.1, hc.2]

@[simp] theorem loadFlight_due (r : Req) (els : List Elem) (rd : Loc → Byte × Bool) (due : Nat) (cls : Option LatClass) :
    (loadFlight r els rd due cls).due = due := by unfold loadFlight; split <;> rfl
@[simp] theorem loadFlight_issue (r : Req) (els : List Elem) (rd : Loc → Byte × Bool) (due : Nat) (cls : Option LatClass) :
    (loadFlight r els rd due cls).issue = r.issue := by unfold loadFlight; split <;> rfl
@[simp] theorem loadFlight_slot (r : Req) (els : List Elem) (rd : Loc → Byte × Bool) (due : Nat) (cls : Option LatClass) :
    (loadFlight r els rd due cls).slot = r.o.slot := by unfold loadFlight; split <;> rfl

/-! ## The reply of a load or an atomic (R194, R199, R217) -/

/-- A request all of whose elements lie in the module is not one to the flat space. -/
theorem not_flat_of_not_leaves {r : Req} (h : leaves r = false) : (r.elems.isEmpty && !r.idle) = false :=
  (Bool.or_eq_false_iff.mp h).1

/-- An answer of data, or none yet, is neither poison nor a refusal. -/
theorem answer_data {n : Nat} (h : n ≤ 1) : (n == 9) = false ∧ ¬ 16 < n :=
  ⟨beq_false_of_ne (by omega), by omega⟩

/-- The request that VARIABLE_LOAD_REPLY answers. -/
abbrev Answered (s : State) (id : Nat) (r : Req) : Prop :=
  (inputCore s id).reqs.find? (fun r => r.id == id / 4096 && r.fixed.isNone && !r.held) = some r

section
variable {s : State} {id : Nat} {r : Req} (u : Bool) (hr : Answered s id r)
include hr

/-- R217: a poisoned answer. -/
theorem Answered.poisoned (h : r.answer = 9) : exec (.variableLoadReply id u) s =
    .next (s.reply (inputCore s id) r (failFlight s r 0x09 (auxAddr r.failAddr 0))) := by
  unfold exec execVariableLoadReply
  simp only [hr, h, beq_self_eq_true, if_true]
/-- R217: a refused answer. -/
theorem Answered.refused (h : 16 < r.answer) : exec (.variableLoadReply id u) s =
    .next (s.reply (inputCore s id) r (failFlight s r 0x08 (auxAddr r.failAddr (r.answer - 16)))) := by
  have h9 : (r.answer == 9) = false := beq_false_of_ne (by omega)
  unfold exec execVariableLoadReply
  simp only [hr, h9, h, Bool.false_eq_true, if_false, if_true]

section
variable (ha : r.answer ≤ 1)
include ha

/-- R199: a load in the module's memory waits for the earlier atomics of its core to its bytes, then reads what its fills have left. -/
theorem Answered.load (hl : leaves r = false) (hk : r.kind = .load) : exec (.variableLoadReply id u) s =
    .next (if homeOwed (inputCore s id) r then s else
      let t := (s.fillFor (inputCore s id) r u).l1Miss (inputCore s id) r
      let c := t.coreAt (inputCore s id).pclus (inputCore s id).pcore
      t.reply c r (loadFlight r (t.refresh c r) (t.reqSee c r (t.ownEarlier c r.issue)) t.beat (latOf r.opc r.o))) := by
  obtain ⟨h9, h16⟩ := answer_data ha
  unfold exec execVariableLoadReply
  simp only [hr, h9, h16, hk, hl, not_flat_of_not_leaves hl, Req.isRmw, Bool.false_eq_true, Bool.false_and, if_false]
  exact (apply_ite Host.Outcome.next ..).symm
/-- R203: an atomic waits for its homes; when every one of them has performed it, its old word is delivered in this beat. -/
theorem Answered.atomic (hk : r.kind = .atomic) :
    (r.owesHome = true → exec (.variableLoadReply id u) s = .next s) ∧
    (r.owesHome = false → ∃ f, f.due = s.beat ∧ exec (.variableLoadReply id u) s = .next (s.reply (inputCore s id) r f)) := by
  obtain ⟨h9, h16⟩ := answer_data ha
  unfold exec execVariableLoadReply
  simp only [hr, h9, h16, hk, Req.isRmw, Bool.false_eq_true, if_false, if_true]
  refine ⟨fun ho => if_pos ho, fun ho => ?_⟩
  rw [if_neg (ne_true_of_eq_false ho)]
  split
  · exact ⟨_, rfl, rfl⟩
  · exact ⟨_, rfl, rfl⟩
end
end

theorem repliesDeliver : Claims.RepliesDeliver := by
  intro s id r u c hr a0
  replace hr : Answered s id r := hr
  refine ⟨hr.poisoned u, hr.refused u, fun ha hl hk ho => ?_, fun ha hl hk ho => ?_, fun ha hk => (hr.atomic u ha hk).1,
    fun ha hk ho => ?_⟩
  · rw [hr.load u ha hl hk, if_pos ho]
  · rw [hr.load u ha hl hk, if_neg (ne_true_of_eq_false ho)]
    extract_lets t d
    have hkept : t.beatPlace = s.beatPlace := (State.l1Miss_beatPlace ..).trans (State.fillFor_beatPlace ..)
    obtain ⟨hbeat, hclus, hcore⟩ : t.beat = s.beat ∧ t.core.pclus = s.core.pclus ∧ t.core.pcore = s.core.pcore := by
      simpa [State.beatPlace] using hkept
    refine ⟨_, loadFlight r (t.refresh d r) (t.reqSee d r (t.ownEarlier d r.issue)) t.beat (latOf r.opc r.o), rfl, by simp [t],
      (loadFlight_due ..).trans hbeat, loadFlight_issue .., loadFlight_slot .., fun hc => ?_⟩
    have hd : d = t.core := State.coreAt_own (hc.1.trans hclus.symm) (hc.2.trans hcore.symm)
    exact t.reply_own r _ (hd ▸ ⟨rfl, rfl⟩)
  · obtain ⟨f, hf, hx⟩ := (hr.atomic u ha hk).2 ho
    exact ⟨_, f, hx, hf, State.reply_mem .., s.reply_own r f⟩

/-! ## Waits and the Tombola table (R78, R101) -/

/-- R101: a wait for a beat ends when the beat has come. -/
theorem execWaitEnd_beat {s : State} {b : Nat} (h : s.core.waits = [.beat b]) : exec .waitEnd s =
    .next (if b ≤ s.beat then { s with core := { s.core with waits := [], readyAt := max s.core.readyAt s.beat } } else s) := by
  unfold exec execWaitEnd
  by_cases hb : b ≤ s.beat <;> simp [h, State.waitOver, hb]
/-- R275: the table waits for the bytes that lie in another module. -/
theorem execTombolaReloadDone_away {s : State} {b : Nat} {l : Loc} {ls : List Loc} (h : s.core.tombLoad = some b)
    (ha : s.tableAway s.core s.core.a.rngt.toNat = l :: ls) :
    exec .tombolaReloadDone s = .next (s.askTable s.core.a.rngt.toNat (l :: ls)) := by
  unfold exec execTombolaReloadDone
  simp only [h, ha]
/-- R78: at its beat the table is loaded. -/
theorem execTombolaReloadDone_loaded {s : State} {b : Nat} {x : Vector (BitVec 1024) 32} (h : s.core.tombLoad = some b) (hb : b ≤ s.beat)
    (ha : s.tableAway s.core s.core.a.rngt.toNat = []) (hx : s.readTable s.core s.core.a.rngt.toNat = .ok x) :
    exec .tombolaReloadDone s = .next { s with core := { s.core with tomb := x, tombLoad := none, tombGot := [], tombBad := [] } } := by
  unfold exec execTombolaReloadDone
  simp only [h, ha, hx, if_neg (Nat.not_lt.mpr hb)]

/-! ## The fire of a Turnstile tile (R283) -/

/-- A transfer slot is a count of the trigger bits before the send. -/
theorem Coll.slotOf_eq_count (k : Coll) (i : Nat) : k.slotOf i = ((k.sends.map Send.trig).take i).count true := by
  rw [Coll.slotOf, ← List.map_take, List.count, List.countP_map, List.countP_eq_length_filter]
  congr 2
  funext x
  simp

/-- A collective whose triggered send of one transfer slot a tile starts. -/
def Coll.started (x : Coll) (xfer beat : Nat) : Coll :=
  { x with sends := x.sends.mapIdx (fun i y => if y.trig && x.slotOf i == xfer then { y with fire := some beat } else y) }
theorem Coll.started_slotOf (x : Coll) (xfer beat i : Nat) : (x.started xfer beat).slotOf i = x.slotOf i := by
  have ht : (x.started xfer beat).sends.map Send.trig = x.sends.map Send.trig := by
    refine List.ext_getElem? fun j => ?_
    simp only [Coll.started, List.getElem?_map, List.getElem?_mapIdx, Option.map_map]
    congr 1
    funext y
    simp only [Function.comp_apply]
    split <;> rfl
  rw [Coll.slotOf_eq_count, ht, ← Coll.slotOf_eq_count]
/-- R283: the triggered send of that slot starts at the beat. -/
theorem Coll.started_fire {x : Coll} {xfer beat i : Nat} {z : Send} (hz : (x.started xfer beat).sends[i]? = some z) (ht : z.trig = true)
    (hs : (x.started xfer beat).slotOf i = xfer) : z.fire = some beat := by
  rw [Coll.started_slotOf] at hs
  simp only [Coll.started, List.getElem?_mapIdx, Option.map_eq_some_iff] at hz
  obtain ⟨y, -, rfl⟩ := hz
  by_cases hy : y.trig = true
  · simp [hy, hs]
  · simp [hy] at ht

/-- R283: a full tile fires four beats later, in every die, and starts its transfer. -/
theorem execTurnstileFire_full {s : State} {k b : Nat} {x : TTile} (hx : s.pk.tiles[k]? = some x) (hf : x.full = some b)
    (hd : ∀ d ∈ x.dies, d.fired = false) (hb : b + 4 ≤ s.beat) : exec (.turnstileFire k) s = .next { s with pk := { s.pk with
      tiles := s.pk.tiles.set k { x with dies := x.dies.map (fun d => { d with fired := d.armed }) }
      colls := s.pk.colls.map (fun y => if y.job == x.job && y.rank == x.rank && y.cid == x.cid then y.started x.xfer s.beat else y) } } := by
  have hnone : x.dies.any (fun d => d.fired) = false := by simpa using hd
  unfold exec execTurnstileFire
  simp only [hx, hf, hnone, decide_eq_false (Nat.not_lt.mpr hb), Bool.or_self, Bool.false_eq_true, if_false]
  rfl

/-- R283: a collective of the tile stands, after the fire, with its send started. -/
theorem started_of_mem {cs : List Coll} {x : TTile} {beat : Nat} {y : Coll}
    (hy : y ∈ cs.map (fun y => if y.job == x.job && y.rank == x.rank && y.cid == x.cid then y.started x.xfer beat else y))
    (hj : y.job = x.job ∧ y.rank = x.rank ∧ y.cid = x.cid) : ∃ y0 : Coll, y = y0.started x.xfer beat := by
  obtain ⟨y0, -, rfl⟩ := List.mem_map.mp hy
  split at hj <;> rename_i hm
  · exact ⟨y0, if_pos hm⟩
  · simp [hj] at hm

theorem waitsReloadsAndTiles : Claims.WaitsReloadsAndTiles := by
  refine ⟨fun s b hw => ⟨fun hb => ?_, fun hb => ?_⟩, fun s b x h hb ha hx => execTombolaReloadDone_loaded h hb ha hx,
    fun s b l ls h ha => execTombolaReloadDone_away h ha, fun s k x b hx hf hd hb => ?_⟩
  · rw [execWaitEnd_beat hw, if_pos hb]
    exact ⟨_, rfl, rfl, rfl, rfl⟩
  · rw [execWaitEnd_beat hw, if_neg (Nat.not_le.mpr hb)]
  · refine ⟨_, execTurnstileFire_full hx hf hd hb, ?_, rfl, rfl, fun y hy hj i z hz ht hs => ?_⟩
    · exact List.getElem?_set_self (List.getElem?_eq_some_iff.mp hx).1
    · obtain ⟨y0, rfl⟩ := started_of_mem hy hj
      exact Coll.started_fire hz ht hs

end Sys2Proof.Machine
open Sys2Proof Sys2Proof.Machine
/-- Settles O33: one equation for each answer of a request, each wait and each load of the table; a fire keeps the transfer slots. -/
theorem repliesAndWaits : Obligations.RepliesAndWaits := ⟨repliesDeliver, waitsReloadsAndTiles⟩
end

section
namespace Sys2Proof.Machine

/-! ## Room in the withholding buffer (R220, R221) -/

/-- What settles in its beat: a fault, or effects that no store of the bundle refuses, that take no checkpoint and wait for nothing. -/
def Out.Settles : Out → Prop
  | .ok e => e.late e.perfs = none ∧ e.ckpt = false ∧ e.waits = []
  | .fault k _ => k ≠ 0x1A
  | _ => False

/-- The state after the issue of an operation whose meaning settled. -/
def settled (opc : Nat) (o : TOp) (s : State) : Out → State
  | .ok e => issued opc o s e
  | .fault k x => trapped s k x
  | _ => s

/-- The withholding buffer has room for `n` entries more (R220). -/
def HasRoom (s : State) (n : Nat) : Prop := n = 0 ∨ heldCount s.core.held + n ≤ 64

/-- An answer whose entries the withholding buffer has room for meets no checkpoint gap (R221). -/
theorem gaps_of_room {opc : Nat} {s : State} {y : Out} (hy : y.Settles)
    (h : s.core.guarded = true → HasRoom s (heldNeed (opc, y))) : s.core.gaps [(opc, y)] = [y] := by
  unfold Core.gaps
  split
  next hg =>
    have hroom : ∀ n ≤ heldCount s.core.held, (decide (n + heldNeed (opc, y) > 64) && heldNeed (opc, y) != 0) = false := fun n hn => by
      rcases h hg with h0 | h64
      · simp [h0]
      · simp [show ¬ n + heldNeed (opc, y) > 64 by omega]
    cases y with
    | ok e =>
      obtain ⟨-, hc, -⟩ := hy
      simp [gapFaults, hc, hroom _ (Nat.le_refl _)]
    | fault k x =>
      have hk : k ≠ 0x1A := hy
      unfold gapFaults
      split
      next heq => cases heq; exact absurd rfl hk
      next => simp [gapFaults, hroom _ (Nat.le_refl _)]
    | mismatch | wait | hold => exact hy.elim
  next => rfl

/-- An operation that may issue and whose answer settles commits its effects, or traps, if there is room for its entries (R16, R220, R392). -/
theorem issueOne_of_room {opc : Nat} {o : TOp} {run : TOp → Env → Out} {d : Bool} {s : State} {y : Out} (h : issues opc o d s = true)
    (hr : run o (seen opc o s) = y) (hy : y.Settles) (hn : s.core.guarded = true → HasRoom s (heldNeed (opc, y))) :
    issueOne opc o run d s = settled opc o s y := by
  obtain ⟨hreg, hdict, hbud, hstage, hcoll, hdraw, hleft, hloop⟩ := Laws.issues_parts (run o) h
  obtain ⟨hS, gS⟩ := Laws.drawPlan_cases (fun x => drawsS x.opc x.o) ⟨opc, o, run o⟩
  obtain ⟨hC, gC⟩ := Laws.drawPlan_cases (fun x => drawsC x.opc) ⟨opc, o, run o⟩
  have hrun : run o ⟨s, if drawsC opc then drawLanes s.core.tomb s.core.a.rngc
      else if drawsS opc o then drawLanes s.core.tomb s.core.a.rngs else lanes0, 0⟩ = y := hr
  have hgap := gaps_of_room hy hn
  have hone : ∀ z : Out, faultOrder false none [(o.slot, z)] = [z] := fun z => by
    by_cases h0 : o.slot = 0
    · simp [faultOrder, h0]
    · by_cases h6 : o.slot ≤ 6 <;> simp [faultOrder, h0, h6]
  unfold issueOne issueOps State.bundleWaits State.bundleLanes
  simp only [hS, hC, gS, gC, hreg, hdict, hbud, hstage, hcoll, hdraw, hloop, List.map_cons, List.map_nil, runOps, List.getD_cons_zero,
    BitVec.add_zero, hrun, List.any_cons, List.any_nil, Bool.or_false, hleft]
  cases y with
  | ok e =>
    obtain ⟨hlate, hckpt, hwaits⟩ := hy
    simp [Out.waits, Out.holds, firstMismatch, timed, hgap, withLate, hlate, Laws.withSwitches_one (.inl hwaits), withClashes, windowClash, hckpt,
      hone, firstFault, Out.eff, settled, issued]
  | fault k x =>
    simp [Out.waits, Out.holds, firstMismatch, timed, hgap, withLate, Laws.withSwitches_fault, withClashes, hone, firstFault, settled, trapped]
  | mismatch | wait | hold => exact hy.elim

/-! ## Busy units (R143) -/

/-- The same environment with other busy beats of the two units. -/
def Env.withBusy (e : Env) (m a : Nat) : Env := ⟨{ e.s with core := { e.s.core with engBusy := m, aBusy := a } }, e.lanes, e.tp⟩
/-- The answer has effects. -/
def Out.isOk (x : Out) : Bool := x.eff.isSome

theorem Out.isOk_iff {x : Out} : x.isOk = true ↔ ∃ e, x = .ok e := by
  cases x <;> simp [Out.isOk, Out.eff]
@[simp] theorem Out.isOk_ok (e : Eff) : (Out.ok e).isOk = true := rfl
@[simp] theorem Out.isOk_fault (k : Nat) (x : Word64) : (Out.fault k x).isOk = false := rfl
@[simp] theorem Env.withBusy_a (e : Env) (m a : Nat) : (e.withBusy m a).a = e.a := rfl
@[simp] theorem Env.withBusy_t (e : Env) (m a : Nat) : (e.withBusy m a).t = e.t := rfl
@[simp] theorem Env.withBusy_pclus (e : Env) (m a : Nat) : (e.withBusy m a).c.pclus = e.c.pclus := rfl
@[simp] theorem Env.withBusy_pcore (e : Env) (m a : Nat) : (e.withBusy m a).c.pcore = e.c.pcore := rfl
@[simp] theorem Env.withBusy_ownAddr (e : Env) (m a off : Nat) : ownAddr (e.withBusy m a).c off = ownAddr e.c off := rfl
@[simp] theorem Env.withBusy_banksOf (e : Env) (m a c k : Nat) : (e.withBusy m a).s.banksOf c k = e.s.banksOf c k := rfl
@[simp] theorem Env.withBusy_windowHit (e : Env) (m a c k b b0 b1 : Nat) :
    (e.withBusy m a).s.windowHit c k b b0 b1 = e.s.windowHit c k b b0 b1 := rfl
theorem unready_withBusy (e : Env) (m a lo hi : Nat) : (e.withBusy m a).s.unready (e.withBusy m a).c lo hi = e.s.unready e.c lo hi := by
  simp only [State.unready, State.allCores, Env.withBusy, Env.c, List.filter_cons]
  split <;> rfl
@[simp] theorem fillTest_withBusy (e : Env) (m a : Nat) (rs : List (Nat × Nat)) : fillTest (e.withBusy m a) rs = fillTest e rs := by
  unfold fillTest
  simp only [unready_withBusy]
  rfl
@[simp] theorem tileSpan_withBusy (e : Env) (m a : Nat) (o : TOp) : tileSpan (e.withBusy m a) o = tileSpan e o := rfl
@[simp] theorem spillSpan_withBusy (e : Env) (m a : Nat) (o : TOp) : spillSpan (e.withBusy m a) o = spillSpan e o := rfl
@[simp] theorem engAddr_withBusy (e : Env) (m a : Nat) (x : Word64) : engAddr (e.withBusy m a) x = engAddr e x := rfl

/-- Scratchpad access by a unit that is let through has the effects of what follows it, whatever the busy beats. -/
theorem engFill_withBusy_isOk (e : Env) (m a slot off len b0 b1 : Nat) (held : Bool) {k k' : Out} (h : k'.isOk = k.isOk) :
    (engFill (e.withBusy m a) slot off len b0 b1 held k').isOk = (engFill e slot off len b0 b1 held k).isOk := by
  simp only [engFill, Env.withBusy_ownAddr, Env.withBusy_pclus, Env.withBusy_pcore, Env.withBusy_windowHit, fillTest_withBusy]
  cases fillTest e [(ownAddr e.c off, len)] with
  | some => rfl
  | none =>
    by_cases hw : (!held && e.s.windowHit e.c.pclus e.c.pcore (off / 0x10000) b0 b1) = true
    · simp only [hw, if_true]
    · simpa only [hw, Bool.false_eq_true, if_false] using h

/-- The operation passes a unit's gate: what it does without the unit's busy beats has effects or not whatever the busy beats of the units. -/
def Gated (gate : Env → Nat → Out → Out) (run : Env → Out) : Prop :=
  ∃ (busy : Nat) (body : Env → Out), (∀ e, run e = gate e busy (body e)) ∧ ∀ e m a, (body (e.withBusy m a)).isOk = (body e).isOk

theorem withEngine_isOk {e : Env} {busy : Nat} {x : Out} {eff : Eff} (h : withEngine e busy x = .ok eff) : x.isOk = true := by
  unfold withEngine at h
  split at h
  · rfl
  · exact Out.isOk_iff.mpr ⟨_, h⟩
theorem withASlot_isOk {e : Env} {busy : Nat} {x : Out} {eff : Eff} (h : withASlot e busy x = .ok eff) : x.isOk = true := by
  unfold withASlot at h
  split at h
  · rfl
  · exact Out.isOk_iff.mpr ⟨_, h⟩

/-- An operation that has effects once its engine is free faults while the engine is busy. -/
theorem Gated.engine_fault {run : Env → Out} (h : Gated withEngine run) {e : Env} {m a : Nat} {eff : Eff}
    (hr : run (e.withBusy m a) = .ok eff) (hb : e.t < e.c.engBusy) : run e = .fault 0x06 (auxBusy (e.c.engBusy - e.t) 0 3) := by
  obtain ⟨busy, body, hrun, hbody⟩ := h
  rw [hrun] at hr
  obtain ⟨x, hx⟩ := Out.isOk_iff.mp ((hbody e m a).symm.trans (withEngine_isOk hr))
  rw [hrun, hx, withEngine, if_pos hb]
theorem Gated.aSlot_fault {run : Env → Out} (h : Gated withASlot run) {e : Env} {m a : Nat} {eff : Eff}
    (hr : run (e.withBusy m a) = .ok eff) (hb : e.t < e.c.aBusy) : run e = .fault 0x06 (auxBusy (e.c.aBusy - e.t) 1 7) := by
  obtain ⟨busy, body, hrun, hbody⟩ := h
  rw [hrun] at hr
  obtain ⟨x, hx⟩ := Out.isOk_iff.mp ((hbody e m a).symm.trans (withASlot_isOk hr))
  rw [hrun, hx, withASlot, if_pos hb]

/-- An operation that touches no scratchpad has effects whenever its unit is free. -/
theorem Gated.of_ok {gate : Env → Nat → Out → Out} {run : Env → Out} (busy : Nat) (eff : Env → Eff)
    (h : ∀ e, run e = gate e busy (.ok (eff e))) : Gated gate run := ⟨busy, fun e => .ok (eff e), h, fun _ _ _ => rfl⟩

theorem opMfill_gated (o : TOp) : Gated withEngine (opMfill o) := by
  refine ⟨34, _, fun e => rfl, fun e m a => ?_⟩
  rw [tileSpan_withBusy]
  cases tileSpan e o with
  | error => rfl
  | ok x => exact engFill_withBusy_isOk e m a 3 _ _ _ _ _ rfl
theorem opMstash_gated (o : TOp) : Gated withEngine (opMstash o) := by
  refine ⟨34, _, fun e => rfl, fun e m a => ?_⟩
  rw [tileSpan_withBusy]
  cases tileSpan e o with
  | error => rfl
  | ok x => exact engFill_withBusy_isOk e m a 3 _ _ _ _ _ rfl
theorem opAspill_gated (o : TOp) : Gated withASlot (opAspill o) := by
  refine ⟨32, _, fun e => rfl, fun e m a => ?_⟩
  rw [spillSpan_withBusy]
  cases spillSpan e o with
  | error => rfl
  | ok off => exact engFill_withBusy_isOk e m a 7 _ _ _ _ _ rfl
theorem opAfill_gated (o : TOp) : Gated withASlot (opAfill o) := by
  refine ⟨32, _, fun e => rfl, fun e m a => ?_⟩
  rw [spillSpan_withBusy]
  cases spillSpan e o with
  | error => rfl
  | ok off => exact engFill_withBusy_isOk e m a 7 _ _ _ _ _ rfl
/-- MUCFG past its checks: what it refuses late is found with the stores of its bundle, without any as the descriptor stands (R149). -/
theorem opMucfg_eq (o : TOp) : ∃ late : Env → Nat → List Perf → Option (Nat × Word64),
    (∀ e, opMucfg o e = withEngine e 4 (match stackTest e.a o.sa (srcA e.a o).toNat with
      | some w => .fault 0x0D w
      | none => match engAddr e (srcA e.a o) with
        | .error f => f
        | .ok off =>
          if off % 16 != 0 then .fault 0x0E (auxAddr (srcA e.a o).toNat 7)
          else engFill e 3 off 16 (e.t + 2) (e.t + 2) false
            (.ok { steps := [⟨e.t + 2, e.t + 4, e.t, 0#3, .ucfg off e.c.pc⟩], late := late e off }))) ∧
    ∀ (e : Env) (off : Nat) w, loadUnf (e.s.banksOf e.c.pclus e.c.pcore) (fun i => e.s.spadSee e.c (e.t + 2) (ownLoc e.c i)) off = .ok w →
      late e off [] = none := by
  refine ⟨_, fun e => rfl, fun e off w h => ?_⟩
  have hs : ∀ b : Bool, (if b = true then { e.s with core := { e.c with held := e.c.held } } else { e.s with perfs := e.s.perfs } : State) = e.s := by
    intro b
    cases b <;> rfl
  simp only [List.append_nil, hs]
  exact congrArg (fun z => match z with | .error f => some (f.1, auxAddr (srcA e.a o).toNat f.2) | .ok _ => none) h
theorem opMucfg_gated (o : TOp) : Gated withEngine (opMucfg o) := by
  obtain ⟨late, heq, -⟩ := opMucfg_eq o
  refine ⟨4, _, heq, fun e m a => ?_⟩
  simp only [Env.withBusy_a, engAddr_withBusy]
  cases stackTest e.a o.sa (srcA e.a o).toNat with
  | some => rfl
  | none => cases engAddr e (srcA e.a o) with
    | error => rfl
    | ok off =>
      dsimp only
      split
      · rfl
      · exact engFill_withBusy_isOk e m a 3 _ _ _ _ _ rfl

/-! ## The unfolded tensor of MOPV (R150) -/

/-- The element of the unfolded tensor in row `i` and column `j` of what MOPV reads: value, bytes, scale byte. -/
def mopvElem (x : Word64) (u : Unf) (q : Word64) (rd : Nat → Byte) (i j : Nat) : XVal × List Nat × Option Nat :=
  match u.elem (bits x.toNat 0 32 + i) (bits x.toNat 32 32 + j) with
  | none => (XVal.zero, [], none)
  | some n => tensorElem q rd ((tensorBase q u).getD 0 + n)
/-- The elements that MOPV reads, by column. -/
def mopvCols (o : TOp) (x : Word64) (u : Unf) (q : Word64) (rd : Nat → Byte) : List (List (XVal × List Nat × Option Nat)) :=
  (List.range (packOf o.t).1).map (fun j => (List.range 32).map (fun i => mopvElem x u q rd i j))
/-- Their scale bytes, and every byte that is touched. -/
def mopvScales (cols : List (List (XVal × List Nat × Option Nat))) : List Nat := (cols.flatten.filterMap (fun x => x.2.2)).eraseDups
def mopvTouched (cols : List (List (XVal × List Nat × Option Nat))) : List Nat :=
  (cols.flatten.flatMap (fun x => x.2.1)).eraseDups ++ mopvScales cols

/-- Where the bytes of an element lie does not depend on what they hold. -/
theorem tensorElem_snd (q : Word64) (rd rd' : Nat → Byte) (i : Nat) : (tensorElem q rd i).2 = (tensorElem q rd' i).2 := by
  unfold tensorElem
  dsimp only
  split <;> rfl
theorem mopvElem_snd (x : Word64) (u : Unf) (q : Word64) (rd rd' : Nat → Byte) (i j : Nat) :
    (mopvElem x u q rd i j).2 = (mopvElem x u q rd' i j).2 := by
  unfold mopvElem
  split
  · rfl
  · exact tensorElem_snd ..
theorem mopvCols_snd (o : TOp) (x : Word64) (u : Unf) (q : Word64) (rd rd' : Nat → Byte) :
    (mopvCols o x u q rd).flatten.map Prod.snd = (mopvCols o x u q rd').flatten.map Prod.snd := by
  simp only [mopvCols, List.map_flatten, List.map_map, Function.comp_def, mopvElem_snd x u q rd rd']
theorem mopvScales_congr (o : TOp) (x : Word64) (u : Unf) (q : Word64) (rd rd' : Nat → Byte) :
    mopvScales (mopvCols o x u q rd) = mopvScales (mopvCols o x u q rd') := by
  have h : ∀ l : List (XVal × List Nat × Option Nat), l.filterMap (fun x => x.2.2) = (l.map Prod.snd).filterMap Prod.snd :=
    fun l => (List.filterMap_map ..).symm
  rw [mopvScales, mopvScales, h, h, mopvCols_snd o x u q rd rd']
theorem mopvTouched_congr (o : TOp) (x : Word64) (u : Unf) (q : Word64) (rd rd' : Nat → Byte) :
    mopvTouched (mopvCols o x u q rd) = mopvTouched (mopvCols o x u q rd') := by
  have h : ∀ l : List (XVal × List Nat × Option Nat), l.flatMap (fun x => x.2.1) = (l.map Prod.snd).flatMap Prod.fst :=
    fun l => (List.flatMap_map ..).symm
  rw [mopvTouched, mopvTouched, mopvScales_congr o x u q rd rd', h, h, mopvCols_snd o x u q rd rd']

/-- The bytes that MOPV sees as it issues. -/
def mopvRd (e : Env) (i : Nat) : Byte := e.s.spadSee e.c e.t (ownLoc e.c i)

/-- What MOPV reads of a tensor, under the descriptor's register `q`. -/
def mopvSeen (o : TOp) (e : Env) (q : Word64) : List (List (XVal × List Nat × Option Nat)) :=
  mopvCols o (srcA e.a o) (unfOf e.a.unf0.toNat e.a.unf1.toNat) q (mopvRd e)

/-- The register of the descriptor's quarters, if the descriptor names a tensor. -/
def mopvReg (e : Env) : Option Word64 :=
  if unfOk e.a.unf0.toNat e.a.unf1.toNat then
    (tensorQ (e.s.banksOf e.c.pclus e.c.pcore) (unfOf e.a.unf0.toNat e.a.unf1.toNat)).toOption
  else none

/-- MOPV by what it touches: the order of its refusals, and the step that it takes. -/
theorem opMopv_eq (o : TOp) (e : Env) : opMopv o e =
    let addr := ownAddr e.c (unfOf e.a.unf0.toNat e.a.unf1.toNat).base
    withEngine e 1 (match mopvReg e, mFmt o.t with
    | some q, some f =>
      if q != e.a.unfq || Fmt.ofCode (qFmt q) != some f || !fmtOk (qFmt q) (qGeom q) then .fault 0x08 (auxAddr addr 4)
      else if (mopvScales (mopvSeen o e q)).any (fun i => !scaleOk (e.s.banksOf e.c.pclus e.c.pcore) i) then .fault 0x08 (auxAddr addr 4)
      else match fillTest e ((mopvTouched (mopvSeen o e q)).map (fun i => (ownAddr e.c i, 1))) with
        | some x => x
        | none =>
          if (mopvTouched (mopvSeen o e q)).any (fun i => e.s.windowHit e.c.pclus e.c.pcore (i / 0x10000) e.t e.t) then .fault 0x06 (auxWindow addr 3)
          else .ok { steps := [mStep e o 0 2 (.accum (mNeg o) (mInit o) ((List.range (packOf o.t).1).map (fun j =>
            (((mopvSeen o e q).getD j []).map Prod.fst,
              packed o.t (e.a.rv (regN o.sb)) j (if o.md.getLsbD 0 then some (msclB e.a.mscl j) else none)))))] }
    | _, _ => .fault 0x08 (auxAddr addr 4)) := rfl

theorem opMopv_gated (o : TOp) : Gated withEngine (opMopv o) := by
  refine ⟨1, _, opMopv_eq o, fun e m a => ?_⟩
  have hs : ∀ q, mopvScales (mopvSeen o (e.withBusy m a) q) = mopvScales (mopvSeen o e q) := fun q => mopvScales_congr ..
  have ht : ∀ q, mopvTouched (mopvSeen o (e.withBusy m a) q) = mopvTouched (mopvSeen o e q) := fun q => mopvTouched_congr ..
  have hq : mopvReg (e.withBusy m a) = mopvReg e := rfl
  simp only [hs, ht, hq, Env.withBusy_a, Env.withBusy_t, Env.withBusy_pclus, Env.withBusy_pcore, Env.withBusy_banksOf, Env.withBusy_windowHit,
    Env.withBusy_ownAddr, fillTest_withBusy]
  cases mopvReg e with
  | none => rfl
  | some q => cases mFmt o.t with
    | none => rfl
    | some f =>
      dsimp only
      cases fillTest e ((mopvTouched (mopvSeen o e q)).map (fun i => (ownAddr e.c i, 1))) with
      | some => rfl
      | none =>
        simp only [apply_ite Out.isOk, Out.isOk_fault, Out.isOk_ok]

theorem gated_engine {i : Instr} {x : SOp} (h : sopOf i = some x) (hx : x.opc / 16 = 8) : Gated withEngine x.run := by
  cases i <;> cases h <;> simp at hx
  case mop o => exact .of_ok 1 _ fun e => rfl
  case mops o => exact .of_ok 6 _ fun e => rfl
  case mopc o => exact .of_ok 9 _ fun e => rfl
  case mopv o => exact opMopv_gated o
  case mrank1 o => exact .of_ok 9 _ fun e => rfl
  case mzero o => exact .of_ok 1 _ fun e => rfl
  case mfill o => exact opMfill_gated o
  case mstash o => exact opMstash_gated o
  case mucfg o => exact opMucfg_gated o
  case mscale o => exact .of_ok 1 _ fun e => rfl
theorem gated_aSlot {i : Instr} {x : SOp} (h : sopOf i = some x) (hx : x.opc / 16 = 9) : Gated withASlot x.run := by
  cases i <;> cases h <;> simp at hx
  case ard o => exact .of_ok 1 _ fun e => rfl
  case ardc o => exact .of_ok 1 _ fun e => rfl
  case aspill o => exact opAspill_gated o
  case afill o => exact opAfill_gated o
  case asgd o => exact .of_ok 1 _ fun e => rfl
  case amom o => exact .of_ok 1 _ fun e => rfl
  case aadam o => exact .of_ok 4 _ fun e => rfl
  case astat o => exact .of_ok 1 _ fun e => rfl

theorem issues_anyDict {opc : Nat} {o : TOp} {s : State} (h : issues opc o true s = true) (d : Bool) : issues opc o d s = true := by
  cases d with
  | true => exact h
  | false =>
    have hd : dictWait s true = false → dictWait s false = false := by
      unfold dictWait
      split <;> simp_all
    simp only [issues, Bool.and_eq_true, Bool.not_eq_true'] at h ⊢
    simp_all

/-- An operation that faults as it issues traps, and nothing of it takes effect, if there is room for the entries that it would take (R220, R227). -/
theorem exec_fault {i : Instr} {x : SOp} {s : State} {k : Nat} {y : Word64} (h : sopOf i = some x) (hi : issues x.opc x.o true s = true)
    (hr : x.run (seen x.opc x.o s) = .fault k y) (hk : k ≠ 0x1A) (hn : heldCount s.core.held + heldStatic x.opc ≤ 64) :
    exec i s = .next (trapped s k y) := by
  obtain ⟨d, hx⟩ := exec_of_sopOf h s
  rw [hx]
  exact congrArg Host.Outcome.next (issueOne_of_room (run := fun _ => x.run) (issues_anyDict hi d) hr hk fun _ => .inr hn)

end Sys2Proof.Machine
open Sys2Proof Sys2Proof.Machine
/-- Settles O14: every M and A operation passes its unit's gate, and its meaning behind it does not ask how long the unit is busy. -/
theorem busyUnitsFault : Obligations.BusyUnitsFault := by
  unfold Obligations.BusyUnitsFault
  intro i x s e h hi hn
  refine ⟨fun hx hb hr => ?_, fun hx hb hr => ?_⟩
  · have hf := (gated_engine h hx).engine_fault (e := seen x.opc x.o s) hr hb
    rw [exec_fault h hi hf (by decide) hn, auxBusy, Nat.zero_mul, Nat.add_zero]
    rfl
  · have hf := (gated_aSlot h hx).aSlot_fault (e := seen x.opc x.o s) hr hb
    rw [exec_fault h hi hf (by decide) hn, auxBusy, Nat.one_mul]
    rfl
end

section
namespace Sys2Proof.Machine

/-! ## What the sequencer leaves alone (R24, R232, R233) -/

/-- The cores differ in what the sequencer and the loops may change: results in flight, the next bundle, a drain, architected state. -/
def Core.Sequenced (c d : Core) : Prop :=
  d = { c with a := d.a, flights := d.flights, pc := d.pc, readyAt := d.readyAt, drain := d.drain, switchOut := d.switchOut }

theorem Core.Sequenced.refl (c : Core) : c.Sequenced c := rfl
theorem Core.Sequenced.trans {c d e : Core} (h : c.Sequenced d) (k : d.Sequenced e) : c.Sequenced e := by
  unfold Core.Sequenced at h k ⊢
  rw [k, h]
theorem Core.Sequenced.ite {c d e : Core} {p : Prop} [Decidable p] (h : c.Sequenced d) (k : c.Sequenced e) : c.Sequenced (if p then d else e) := by
  split
  · exact h
  · exact k
/-- A further change of those fields. -/
theorem Core.Sequenced.update {c d : Core} (h : c.Sequenced d) (a : Arch) (fs : List Flight) (pc r : Nat) (dr : Option (Word64 × Word64)) (so : Bool) :
    c.Sequenced { d with a := a, flights := fs, pc := pc, readyAt := r, drain := dr, switchOut := so } := h.trans rfl

theorem Core.passBoundary_sequenced (c : Core) (k lc : Nat) (rngs rngc : Word64) : c.Sequenced (c.passBoundary k lc rngs rngc).1 := by
  unfold Core.passBoundary
  split
  · exact (Core.Sequenced.ite (.update (.refl c) ..) (.refl c)).update ..
  · exact .refl c
theorem Core.backEdge_sequenced (t pc : Nat) (rngs rngc : Word64) : ∀ (k : Nat) (c : Core), c.Sequenced (c.backEdge t pc rngs rngc k).1
  | 0, c => .refl c
  | k + 1, c => by
    unfold Core.backEdge
    extract_lets l lc drains lc' c1 r _ c2 r2
    split
    · split
      · have h1 : c.Sequenced r.1 := (Core.Sequenced.ite (.refl c) (.update (.refl c) ..)).trans (Core.passBoundary_sequenced ..)
        exact .ite (h1.update ..) h1
      · have h2 : c.Sequenced r2.1 := ((Core.Sequenced.refl c).update ..).trans (Core.backEdge_sequenced t pc rngs rngc k c2)
        rw [apply_ite Prod.fst]
        exact .ite h2 h2
    · exact Core.backEdge_sequenced t pc rngs rngc k c
theorem Core.setLoop_sequenced (c : Core) (l : LoopSet) (rngs rngc : Word64) : c.Sequenced (c.setLoop l rngs rngc) := by
  unfold Core.setLoop
  extract_lets a
  split
  · exact (Core.Sequenced.refl c).update ..
  · split
    · exact (Core.Sequenced.refl c).update ..
    · have h : ∀ x n, c.Sequenced (({ c with a := x } : Core).passBoundary l.k n rngs rngc).1 :=
        fun x n => ((Core.Sequenced.refl c).update ..).trans (Core.passBoundary_sequenced ..)
      exact .ite ((h ..).update ..) (h ..)
theorem Core.advance_sequenced (c : Core) (t : Nat) (taken : Option Taken) (loop : Option LoopSet) (rngs rngc : Word64) :
    c.Sequenced (c.advance t taken loop rngs rngc) := by
  unfold Core.advance
  extract_lets pc aged _ a c1 _ c2
  have h1 : c.Sequenced c1 := (Core.Sequenced.refl c).update ..
  have h2 : c.Sequenced c2 := by
    unfold c2
    split
    · exact h1.update ..
    · exact h1
  clear_value c2
  split
  · exact h2.update ..
  · split
    · exact (h2.trans (Core.setLoop_sequenced ..)).update ..
    · exact .ite (h2.update ..) ((h2.trans (Core.backEdge_sequenced ..)).update ..)

/-! ## The issue of plain effects (R16) -/

/-- Effects without a checkpoint, without a trap behind them, and without changes past those of the commit. -/
structure Eff.Plain (e : Eff) : Prop where
  ckpt : e.ckpt = false
  after : e.after = none
  final : e.final = id
  spost : e.spost = id

section
variable {e : Eff} (h : e.Plain) (opc : Nat) (o : TOp) (s : State)
include h

/-- What they leave of the core: what they put on its way stands behind what was, and beside that only the sequencer went on. -/
theorem Eff.Plain.issued_core : ∃ c, (e.post s.core).Sequenced c ∧ c.flights ++ e.flights <+: (issued opc o s e).core.flights ∧
    (issued opc o s e).core.steps = c.steps ++ e.steps ∧ (issued opc o s e).core.aBusy = c.aBusy ∧ (issued opc o s e).core.trap = c.trap ∧
    (s.core.guarded = false → (issued opc o s e).perfs = s.perfs ++ e.perfs) := by
  unfold issued commit
  extract_lets c0 t rngs rngc ck oldHeld _ c1 c2 dr c3 c4 _ c5 c6 c7 s1 c8 s2
  have hck : ck = false := by simp [ck, h.ckpt]
  have h1 : c1 = s.core := if_neg (by simp [hck])
  have h3 : (e.post s.core).Sequenced c3 := h1 ▸ Core.advance_sequenced (e.post c1) ..
  have h5 : c5 = c4 := if_neg (by simp [hck])
  have h6 : c6 = c4 := by
    simp only [c6, List.findSome?_cons, List.findSome?_nil, h.after]
    exact h5
  have h7 : c7 = c4 := (congrFun h.final c6).trans h6
  have hs : [e].foldl (fun s e => e.spost s) s2 = s2 := congrFun h.spost s2
  have hp : s1.perfs = s.perfs := congrArg State.perfs (if_neg (by simp [hck]))
  rw [hs]
  have single : ∀ {α : Type} (f : Eff → List α), [e].flatMap f = f e := fun f => List.flatMap_singleton f e
  refine ⟨c3, h3, ?_, ?_, ?_, ?_, fun hg => ?_⟩
  · show _ <+: c7.flights
    rw [h7, ← single Eff.flights]
    exact ⟨_, rfl⟩
  · show c7.steps = _
    rw [h7, ← single Eff.steps]
  · show c7.aBusy = _
    rw [h7]
  · show c7.trap = _
    rw [h7]
  · show s1.perfs ++ (if ck then _ else _) ++ (if s.core.guarded then _ else _) = _
    rw [hp, if_neg (by simp [hck]), if_neg (by simp [hg]), List.append_nil, single]

theorem Eff.Plain.issued_mem : (issued opc o s e).mem = s.mem :=
  commit_mem s _ _ _ fun x hx => by
    cases List.mem_singleton.mp hx
    rw [h.spost]
    exact fun _ => rfl
theorem Eff.Plain.issued_flight {f : Flight} (hf : f ∈ e.flights) : f ∈ (issued opc o s e).core.flights := by
  obtain ⟨c, -, hfl, -⟩ := h.issued_core opc o s
  exact hfl.subset (List.mem_append_right _ hf)
theorem Eff.Plain.issued_step {x : EngStep} (hx : x ∈ e.steps) : x ∈ (issued opc o s e).core.steps := by
  obtain ⟨c, -, -, hst, -⟩ := h.issued_core opc o s
  rw [hst]
  exact List.mem_append_right _ hx
theorem Eff.Plain.issued_aBusy : (issued opc o s e).core.aBusy = (e.post s.core).aBusy := by
  obtain ⟨c, hseq, -, -, ha, -⟩ := h.issued_core opc o s
  rw [ha, hseq]
theorem Eff.Plain.issued_trap : (issued opc o s e).core.trap = (e.post s.core).trap := by
  obtain ⟨c, hseq, -, -, -, ht, -⟩ := h.issued_core opc o s
  rw [ht, hseq]
theorem Eff.Plain.issued_perfs (hg : s.core.guarded = false) : (issued opc o s e).perfs = s.perfs ++ e.perfs := by
  obtain ⟨c, -, -, -, -, -, hp⟩ := h.issued_core opc o s
  exact hp hg
end

/-! ## Operations of a free unit (R143, R153) -/

/-- The effects with the beat until which the engine is busy, or the A slot. -/
def Eff.engine (e : Eff) (b : Nat) : Eff := { e with post := fun c => { e.post c with engBusy := b } }
def Eff.aSlot (e : Eff) (b : Nat) : Eff := { e with post := fun c => { e.post c with aBusy := b } }

theorem withEngine_free {e : Env} (h : e.c.engBusy ≤ e.t) (busy : Nat) (x : Eff) : withEngine e busy (.ok x) = .ok (x.engine (e.t + busy)) :=
  if_neg (Nat.not_lt.mpr h)
theorem withASlot_free {e : Env} (h : e.c.aBusy ≤ e.t) (busy : Nat) (x : Eff) : withASlot e busy (.ok x) = .ok (x.aSlot (e.t + busy)) :=
  if_neg (Nat.not_lt.mpr h)

/-- Scratchpad access by a unit goes on when nothing holds its bytes up (R158). -/
theorem engFill_free {e : Env} {slot off len b0 b1 : Nat} {held : Bool} (k : Out) (hf : fillTest e [(ownAddr e.c off, len)] = none)
    (hw : held = false → e.s.windowHit e.c.pclus e.c.pcore (off / 0x10000) b0 b1 = false) : engFill e slot off len b0 b1 held k = k := by
  unfold engFill
  rw [hf]
  cases held with
  | true => rfl
  | false => simp [hw rfl]

section
variable {o : TOp} {s : State}

/-- An operation of the free A slot issues; its rows to come have room. -/
theorem aSlot_issues {opc busy : Nat} {run : TOp → Env → Out} {x : Eff} (hb : s.core.aBusy ≤ s.beat) (hi : issues opc o true s = true)
    (hr : run o (seen opc o s) = withASlot (seen opc o s) busy (.ok x)) (hs : (Out.ok x).Settles)
    (hn : s.core.guarded = true → HasRoom s (heldCount x.perfs)) :
    issueOne opc o run true s = issued opc o s (x.aSlot (s.beat + busy)) :=
  issueOne_of_room hi (hr.trans (withASlot_free (e := seen opc o s) hb busy x)) hs hn
theorem engine_issues {opc busy : Nat} {run : TOp → Env → Out} {x : Eff} (hb : s.core.engBusy ≤ s.beat) (hi : issues opc o true s = true)
    (hr : run o (seen opc o s) = withEngine (seen opc o s) busy (.ok x)) (hs : (Out.ok x).Settles)
    (hn : s.core.guarded = true → HasRoom s (heldCount x.perfs)) :
    issueOne opc o run true s = issued opc o s (x.engine (s.beat + busy)) :=
  issueOne_of_room hi (hr.trans (withEngine_free (e := seen opc o s) hb busy x)) hs hn
end

end Sys2Proof.Machine
end

section
namespace Sys2Proof.Machine

/-! ## The A slot (R153 to R157) -/

section
variable {o : TOp} {s : State}

/-- An operation of the A slot that has one result: it is on its way, and the slot is busy for the operation's beats. -/
theorem aSlot_result_completes {i : Instr} {opc busy : Nat} {run : TOp → Env → Out} {f : Flight} {more : Nat} (hb : s.core.aBusy ≤ s.beat)
    (hi : issues opc o true s = true) (hx : exec i s = .next (issueOne opc o run true s))
    (hr : run o (seen opc o s) = withASlot (seen opc o s) busy (.ok { flights := [f] }))
    (hf : f.issue = s.beat ∧ f.slot = o.slot ∧ f.due = s.beat + beatsOf s .ar + more) (hw : f.ws ≠ []) :
    ∃ t f, exec i s = .next t ∧ f ∈ t.core.flights ∧ f.issue = s.beat ∧ f.slot = o.slot ∧ f.due = s.beat + beatsOf s .ar + more ∧
      f.ws ≠ [] ∧ t.core.aBusy = s.beat + busy ∧ t.core.trap = s.core.trap ∧ t.mem = s.mem := by
  have hp : (Eff.aSlot { flights := [f] } (s.beat + busy)).Plain := ⟨rfl, rfl, rfl, rfl⟩
  obtain ⟨hissue, hslot, hdue⟩ := hf
  exact ⟨_, f, hx.trans (congrArg _ (aSlot_issues hb hi hr ⟨rfl, rfl, rfl⟩ fun _ => .inl rfl)),
    hp.issued_flight opc o s (List.mem_singleton_self f), hissue, hslot, hdue, hw, hp.issued_aBusy opc o s, hp.issued_trap opc o s,
    hp.issued_mem opc o s⟩
end

/-- ASPILL and AFILL of a span that nothing holds up (R156). -/
theorem opAspill_free {o : TOp} {e : Env} {off : Nat} (hs : spillSpan e o = .ok off)
    (hf : fillTest e [(ownAddr e.c off, if o.ty.toNat == 0 then 6144 else 4096)] = none)
    (hw : e.c.guarded = false → e.s.windowHit e.c.pclus e.c.pcore (off / 0x10000) (e.t + 2) (e.t + 33) = false) :
    opAspill o e = withASlot e 32 (.ok { perfs := rowPerfs e o (e.t + 2) (spillRow e.c (o.ty.toNat == 0) (e.a.rt (tileN o.dst)) off) }) := by
  unfold opAspill
  rw [hs]
  exact congrArg (withASlot e 32) (engFill_free _ hf hw)
theorem opAfill_free {o : TOp} {e : Env} {off : Nat} (hs : spillSpan e o = .ok off)
    (hf : fillTest e [(ownAddr e.c off, if o.ty.toNat == 0 then 6144 else 4096)] = none)
    (hw : e.s.windowHit e.c.pclus e.c.pcore (off / 0x10000) (e.t + 2) (e.t + 33) = false) :
    opAfill o e = withASlot e 32 (.ok { steps := [⟨e.t + 33, e.t + 36, e.t, tileN o.dst, .aread (o.ty.toNat == 0) [] off⟩]
                                        flights := [⟨e.t + 36, e.t, o.slot, none, [.tile (tileN o.dst)
                                          ((List.range 32).map (fun i => (i, 0xFFFFFFFF#32))) tile0], 0#8, none, none⟩] }) := by
  unfold opAfill
  rw [hs]
  exact congrArg (withASlot e 32) (engFill_free _ hf fun _ => hw)

theorem aSlotResults (o : TOp) (s : State) (hb : s.core.aBusy ≤ s.beat) :
    ∀ p ∈ [(Instr.ard, 0x90, 1, 0), (Instr.ardc, 0x91, 1, 0), (Instr.asgd, 0x94, 1, 0), (Instr.amom, 0x95, 1, 0), (Instr.aadam, 0x96, 4, 4),
      (Instr.astat, 0x97, 1, 0)], issues p.2.1 o true s = true →
      ∃ t f, exec (p.1 o) s = .next t ∧ f ∈ t.core.flights ∧ f.issue = s.beat ∧ f.slot = o.slot ∧ f.due = s.beat + beatsOf s .ar + p.2.2.2 ∧
        f.ws ≠ [] ∧ t.core.aBusy = s.beat + p.2.2.1 ∧ t.core.trap = s.core.trap ∧ t.mem = s.mem := by
  intro p hp hi
  simp only [List.mem_cons, List.not_mem_nil, or_false] at hp
  rcases hp with rfl | rfl | rfl | rfl | rfl | rfl
  · exact aSlot_result_completes (run := opArd) hb hi rfl rfl ⟨rfl, rfl, rfl⟩ (List.cons_ne_nil _ _)
  · exact aSlot_result_completes (run := opArdc) hb hi rfl rfl ⟨rfl, rfl, rfl⟩ (List.cons_ne_nil _ _)
  · exact aSlot_result_completes (run := opAsgd) hb hi rfl rfl ⟨rfl, rfl, rfl⟩ (List.cons_ne_nil _ _)
  · exact aSlot_result_completes (run := opAmom) hb hi rfl rfl ⟨rfl, rfl, rfl⟩ (List.cons_ne_nil _ _)
  · exact aSlot_result_completes (run := opAadam) hb hi rfl rfl ⟨rfl, rfl, rfl⟩ (List.cons_ne_nil _ _)
  · exact aSlot_result_completes (run := opAstat) hb hi rfl rfl ⟨rfl, rfl, rfl⟩ (List.cons_ne_nil _ _)

theorem length_rowPerfs (e : Env) (o : TOp) (first : Nat) (row : Nat → List ByteW) : (rowPerfs e o first row).length = 32 := by
  rw [rowPerfs, List.length_map, List.length_range]

end Sys2Proof.Machine
open Sys2Proof Sys2Proof.Machine
/-- Settles O15: each operation of a free A slot issues with the effects of its rule. -/
theorem accumulatorSlotCompletes : Obligations.AccumulatorSlotCompletes := by
  unfold Obligations.AccumulatorSlotCompletes
  intro o s hb
  refine ⟨aSlotResults o s hb, fun off => ⟨fun hi hg hs hf hw => ?_, fun hi hs hf hw => ?_⟩⟩
  · have hr := opAspill_free hs hf fun _ => hw
    have hp : ∀ ps, (Eff.aSlot { perfs := ps } (s.beat + 32)).Plain := fun _ => ⟨rfl, rfl, rfl, rfl⟩
    have hperfs := fun ps => (hp ps).issued_perfs 0x92 o s hg
    refine ⟨_, congrArg Host.Outcome.next (aSlot_issues hb hi hr ⟨rfl, rfl, rfl⟩ fun h => ?_), ?_, (hp _).issued_aBusy 0x92 o s,
      (hp _).issued_mem 0x92 o s, fun i hlt => ⟨mkPerf (seen 0x92 o s) o (s.beat + 2 + i) none
        (spillRow s.core (o.ty.toNat == 0) (s.core.a.rt (tileN o.dst)) off i) none 1, ?_, rfl, rfl, rfl, rfl⟩⟩
    · exact absurd (h.symm.trans hg) (by decide)
    · exact (congrArg List.length (hperfs _)).trans (List.length_append.trans (congrArg _ (length_rowPerfs ..)))
    · rw [hperfs]
      exact List.mem_append_right _ (List.mem_map.mpr ⟨i, List.mem_range.mpr hlt, rfl⟩)
  · have hp : ∀ fs xs, (Eff.aSlot { flights := fs, steps := xs } (s.beat + 32)).Plain := fun _ _ => ⟨rfl, rfl, rfl, rfl⟩
    refine ⟨_, _, _, congrArg Host.Outcome.next (aSlot_issues hb hi (opAfill_free hs hf hw) ⟨rfl, rfl, rfl⟩ fun _ => .inl rfl),
      (hp _ _).issued_step 0x93 o s (List.mem_singleton_self _), rfl, rfl, (hp _ _).issued_flight 0x93 o s (List.mem_singleton_self _), rfl, rfl,
      (hp _ _).issued_aBusy 0x93 o s, (hp _ _).issued_mem 0x93 o s⟩
end

section
namespace Sys2Proof.Machine

/-! ## Spans of the engine (R149, R151, R152) -/

/-- MFILL, MSTASH and MUCFG of a span that nothing holds up. -/
theorem opMfill_free {o : TOp} {e : Env} {off len : Nat} (hs : tileSpan e o = .ok (off, len)) (hf : fillTest e [(ownAddr e.c off, len)] = none)
    (hw : e.s.windowHit e.c.pclus e.c.pcore (off / 0x10000) (e.t + 2) (e.t + 33) = false) :
    opMfill o e = withEngine e 34 (.ok { steps := [mStep e o 33 0 (.fill [] (o.md.getLsbD 0) off)] }) := by
  unfold opMfill
  rw [hs]
  exact congrArg (withEngine e 34) (engFill_free _ hf fun _ => hw)
theorem opMstash_free {o : TOp} {e : Env} {off len : Nat} (hs : tileSpan e o = .ok (off, len)) (hf : fillTest e [(ownAddr e.c off, len)] = none)
    (hw : e.c.guarded = false → e.s.windowHit e.c.pclus e.c.pcore (off / 0x10000) (e.t + e.lat .mx + 2) (e.t + e.lat .mx + 33) = false) :
    opMstash o e = withEngine e 34 (.ok
      { steps := [⟨e.t + e.lat .mx + 1, e.t + e.lat .mx + 1, e.t, tileN o.dst, .stash (o.md.getLsbD 0) o.mode e.lanes off⟩]
        perfs := rowPerfs e o (e.t + e.lat .mx + 2) (fun _ => []) }) := by
  unfold opMstash
  rw [hs]
  exact congrArg (withEngine e 34) (engFill_free _ hf hw)
theorem opMucfg_free {o : TOp} {e : Env} {off : Nat} {w : Nat × Nat × Word64} (hst : stackTest e.a o.sa (srcA e.a o).toNat = none)
    (ha : engAddr e (srcA e.a o) = .ok off) (hal : off % 16 = 0) (hf : fillTest e [(ownAddr e.c off, 16)] = none)
    (hw : e.s.windowHit e.c.pclus e.c.pcore (off / 0x10000) (e.t + 2) (e.t + 2) = false)
    (hl : loadUnf (e.s.banksOf e.c.pclus e.c.pcore) (fun i => e.s.spadSee e.c (e.t + 2) (ownLoc e.c i)) off = .ok w) :
    ∃ late, opMucfg o e = withEngine e 4 (.ok { steps := [⟨e.t + 2, e.t + 4, e.t, 0#3, .ucfg off e.c.pc⟩], late := late }) ∧ late [] = none := by
  obtain ⟨late, heq, hlate⟩ := opMucfg_eq o
  refine ⟨late e off, ?_, hlate e off w hl⟩
  rw [heq, hst, ha]
  dsimp only
  rw [if_neg (by simp [hal]), engFill_free _ hf fun _ => hw]
/-- The values in column `j` of what MOPV reads. -/
theorem mopvCols_values (o : TOp) (x : Word64) (u : Unf) (q : Word64) (rd : Nat → Byte) {j : Nat} (hj : j < (packOf o.t).1) :
    ((mopvCols o x u q rd).getD j []).map Prod.fst = (List.range 32).map (fun i => (mopvElem x u q rd i j).1) := by
  rw [mopvCols, List.getD_eq_getElem?_getD, List.getElem?_map, List.getElem?_range hj]
  exact List.map_map ..
/-- MOPV of a tensor that is still as MUCFG found it, with its bytes at hand. -/
theorem opMopv_free {o : TOp} {e : Env} {q : Word64} {f : Fmt} (hu : unfOk e.a.unf0.toNat e.a.unf1.toNat = true)
    (hq : tensorQ (e.s.banksOf e.c.pclus e.c.pcore) (unfOf e.a.unf0.toNat e.a.unf1.toNat) = .ok q) (hunf : q = e.a.unfq)
    (hm : mFmt o.t = some f) (hfm : Fmt.ofCode (qFmt q) = some f) (hg : fmtOk (qFmt q) (qGeom q) = true)
    (hsc : ∀ x ∈ mopvScales (mopvSeen o e q), scaleOk (e.s.banksOf e.c.pclus e.c.pcore) x = true)
    (hf : fillTest e ((mopvTouched (mopvSeen o e q)).map (fun i => (ownAddr e.c i, 1))) = none)
    (hw : ∀ x ∈ mopvTouched (mopvSeen o e q), e.s.windowHit e.c.pclus e.c.pcore (x / 0x10000) e.t e.t = false) :
    opMopv o e = withEngine e 1 (.ok { steps := [mStep e o 0 2 (.accum (mNeg o) (mInit o) ((List.range (packOf o.t).1).map (fun j =>
      ((List.range 32).map (fun i => (mopvElem (srcA e.a o) (unfOf e.a.unf0.toNat e.a.unf1.toNat) q (mopvRd e) i j).1),
        packed o.t (e.a.rv (regN o.sb)) j (if o.md.getLsbD 0 then some (msclB e.a.mscl j) else none)))))] }) := by
  have hreg : mopvReg e = some q := by rw [mopvReg, if_pos hu, hq]; rfl
  have hscales : (mopvScales (mopvSeen o e q)).any (fun i => !scaleOk (e.s.banksOf e.c.pclus e.c.pcore) i) = false := by
    simpa using hsc
  have hwins : (mopvTouched (mopvSeen o e q)).any (fun i => e.s.windowHit e.c.pclus e.c.pcore (i / 0x10000) e.t e.t) = false := by
    simpa using hw
  have hcols : ∀ j ∈ List.range (packOf o.t).1, (((mopvSeen o e q).getD j []).map Prod.fst,
      packed o.t (e.a.rv (regN o.sb)) j (if o.md.getLsbD 0 then some (msclB e.a.mscl j) else none)) = (_, _) :=
    fun j hj => congrArg (·, _) (mopvCols_values o _ _ q _ (List.mem_range.mp hj))
  rw [opMopv_eq, hreg, hm, ← List.map_congr_left hcols]
  simp only [hscales, hf, hwins, hfm, hg, ← hunf, bne_self_eq_false, Bool.or_false, Bool.not_true, Bool.false_eq_true, if_false]
/-- What an operation refuses late plays no part once it issues. -/
theorem issued_late (opc : Nat) (o : TOp) (s : State) (x : Eff) (late : List Perf → Option (Nat × Word64)) :
    issued opc o s { x with late := late } = issued opc o s x := rfl

theorem engineOperationsIssue : Claims.EngineOperationsIssue := by
  unfold Claims.EngineOperationsIssue
  intro o s hb
  refine ⟨fun hi => ?_, fun hi => ?_, fun hi => ?_, fun hi => ?_, fun hi => ?_, fun hi => ?_, fun off len hi hs hf hw => ?_,
    fun off len hi hs hf hw hn => ?_⟩
  · exact congrArg Host.Outcome.next (engine_issues (run := opMop) hb hi rfl ⟨rfl, rfl, rfl⟩ fun _ => .inl rfl)
  · exact congrArg Host.Outcome.next (engine_issues (run := opMops) hb hi rfl ⟨rfl, rfl, rfl⟩ fun _ => .inl rfl)
  · exact congrArg Host.Outcome.next (engine_issues (run := opMopc) hb hi rfl ⟨rfl, rfl, rfl⟩ fun _ => .inl rfl)
  · exact congrArg Host.Outcome.next (engine_issues (run := opMrank1) hb hi rfl ⟨rfl, rfl, rfl⟩ fun _ => .inl rfl)
  · exact congrArg Host.Outcome.next (engine_issues (run := opMzero) hb hi rfl ⟨rfl, rfl, rfl⟩ fun _ => .inl rfl)
  · exact congrArg Host.Outcome.next (engine_issues (run := opMscale) hb hi rfl ⟨rfl, rfl, rfl⟩ fun _ => .inl rfl)
  · exact congrArg Host.Outcome.next (engine_issues hb hi (opMfill_free hs hf hw) ⟨rfl, rfl, rfl⟩ fun _ => .inl rfl)
  · exact congrArg Host.Outcome.next (engine_issues hb hi (opMstash_free hs hf hw) ⟨rfl, rfl, rfl⟩ fun hg =>
      .inr (Nat.add_le_add_right (hn hg) 32))

theorem unfoldingOperationsIssue : Claims.UnfoldingOperationsIssue := by
  unfold Claims.UnfoldingOperationsIssue
  intro o s hb
  refine ⟨fun off w hi hst ha hal hl hf hw => ?_, fun q f hi hu hq hunf hm hfm hg hsc hf hw => ?_⟩
  · obtain ⟨late, hr, hlate⟩ := opMucfg_free (e := seen 0x88 o s) hst ha hal hf hw hl
    have hx := engine_issues (s := s) hb hi hr ⟨hlate, rfl, rfl⟩ fun _ => .inl rfl
    exact congrArg Host.Outcome.next (hx.trans (issued_late 0x88 o s
      (Eff.engine { steps := [⟨s.beat + 2, s.beat + 4, s.beat, 0#3, .ucfg off s.core.pc⟩] } (s.beat + 4)) late))
  · have hr := opMopv_free (e := seen 0x83 o s) hu hq hunf hm hfm hg hsc hf hw
    exact congrArg Host.Outcome.next (engine_issues (s := s) hb hi hr ⟨rfl, rfl, rfl⟩ fun _ => .inl rfl)
end Sys2Proof.Machine
open Sys2Proof Sys2Proof.Machine
/-- Settles O36: each operation of a free engine issues with its steps, the ones on the scratchpad past their checks. -/
theorem engineIssue : Obligations.EngineIssue := ⟨engineOperationsIssue, unfoldingOperationsIssue⟩
end

section
namespace Sys2Proof.Machine

/-! ## Elements of a tile (R13) -/

theorem vecOf_getD {α : Type} {n : Nat} (f : Nat → α) {i : Nat} (hi : i < n) (d : α) : (vecOf n f).toList.getD i d = f i := by
  show ((List.range n).map f).getD i d = f i
  rw [List.getD_eq_getElem?_getD, List.getElem?_map, List.getElem?_range hi]
  rfl
theorem tileAt_tileOf (f : Nat → Nat → Af48) {i j : Nat} (hi : i < 32) (hj : j < 32) : tileAt (tileOf f) i j = f i j := by
  unfold tileAt tileOf
  rw [vecOf_getD _ hi, vecOf_getD _ hj]
/-- An element of the tile that a step makes. -/
theorem tileAt_stepTile (f : Nat → Nat → Acc) {i j : Nat} (hi : i < 32) (hj : j < 32) :
    tileAt (stepTile f).1 i j = BitVec.ofNat 48 (f i j).pat := by
  unfold stepTile
  rw [tileAt_tileOf _ hi hj]
  simp [List.getD_eq_getElem?_getD, hi, hj]

/-! ## Accumulation of finite terms (R140) -/

theorem finTerms_fin (pd : List Dy) : finTerms (pd.map XVal.fin) = pd := by
  unfold finTerms
  rw [List.filterMap_map]
  exact List.filterMap_some ..
/-- Finite values hold neither a NaN nor an infinity. -/
theorem any_isNan_fin (pd : List Dy) : (pd.map XVal.fin).any XVal.isNan = false := by
  rw [List.any_map]
  exact List.any_eq_false.mpr fun _ _ => Bool.false_ne_true
theorem any_inf_fin (pd : List Dy) (b : Bool) : (pd.map XVal.fin).any (fun x => x == .inf b) = false := by
  rw [List.any_map]
  exact List.any_eq_false.mpr fun _ _ => by simp

/-- R140: the element as it enters the sum: on the grid 47 bits under the largest product that is not zero, itself without one. -/
def gridded (cd : Dy) (pd : List Dy) : Dy :=
  match pd.filter (fun d => d.m != 0) with
  | [] => cd
  | d :: ds => gridRound cd (ds.foldl (fun m x => max m x.log2) d.log2 - 47)

theorem accum_fin (cd : Dy) (pd : List Dy) : (accum (.fin cd) false (pd.map XVal.fin)).pat = (roundAf (dySum (gridded cd pd :: pd))).pat := by
  have hinf : ∀ b, (XVal.fin cd :: pd.map XVal.fin).any (fun x => x == .inf b) = false := fun b => any_inf_fin (cd :: pd) b
  unfold gridded
  cases hnz : pd.filter (fun d => d.m != 0) <;>
    simp only [accum, any_isNan_fin, hinf, finTerms_fin, hnz, XVal.isNan, Bool.or_false, Bool.false_eq_true, if_false, Bool.and_false]

theorem gridded_of_zeros {cd : Dy} {pd : List Dy} (h : ∀ d ∈ pd, d.m = 0) : gridded cd pd = cd := by
  have hf : pd.filter (fun d => d.m != 0) = [] := List.filter_eq_nil_iff.mpr fun d hd => by simp [h d hd]
  unfold gridded
  rw [hf]

theorem gridded_of_max {cd : Dy} {pd : List Dy} {ep : Int}
    (hex : ∃ d ∈ pd, d.m ≠ 0 ∧ d.log2 = ep) (hle : ∀ d ∈ pd, d.m ≠ 0 → d.log2 ≤ ep) :
    gridded cd pd = gridRound cd (ep - 47) := by
  have hmax : ((pd.filter (fun d => d.m != 0)).map Dy.log2).max? = some ep := by
    rw [List.max?_eq_some_iff]
    refine ⟨by simpa [and_assoc] using hex, fun b hb => ?_⟩
    obtain ⟨d, hd, rfl⟩ := List.mem_map.mp hb
    obtain ⟨hmem, hm⟩ := List.mem_filter.mp hd
    exact hle d hmem (bne_iff_ne.mp hm)
  unfold gridded
  cases hnz : pd.filter (fun d => d.m != 0) with
  | nil => simp [hnz] at hmax
  | cons d ds =>
    rw [hnz, List.map_cons, List.max?_cons', List.foldl_map, Option.some_inj] at hmax
    exact congrArg (fun m => gridRound cd (m - 47)) hmax

/-! ## The outer-product step (R140, R145) -/

theorem tileAt_outerStep (t : Tile) (neg init : Bool) (prods : List (List XVal × List XVal)) {i j : Nat} {cd : Dy} {pd : List Dy}
    (hi : i < 32) (hj : j < 32) (hc : afAt t init i j = .fin cd)
    (hfin : ∀ p ∈ prods, (∃ d, p.1.getD i .zero = .fin d) ∧ (∃ d, p.2.getD j .zero = .fin d))
    (hpd : prods.map (fun p => let v := (xmul (p.1.getD i .zero) (p.2.getD j .zero)).v; if neg then v.negate else v) = pd.map XVal.fin) :
    tileAt (outerStep t neg init prods).1 i j = BitVec.ofNat 48 (roundAf (dySum (gridded cd pd :: pd))).pat := by
  have hnan : (prods.map (fun p => (p.1.getD i XVal.zero, p.2.getD j XVal.zero))).any (fun x => x.1.isNan || x.2.isNan) = false := by
    rw [List.any_map]
    refine List.any_eq_false.mpr fun p hp => ?_
    obtain ⟨⟨x, hx⟩, y, hy⟩ := hfin p hp
    dsimp only [Function.comp]
    rw [hx, hy]
    exact Bool.false_ne_true
  unfold outerStep
  rw [tileAt_stepTile _ hi hj]
  dsimp only
  rw [hnan, hc, List.map_map, Function.comp_def, hpd, accum_fin]

/-- MZERO: the tile is clear, and shows at its beat as the next step of the engine. -/
theorem State.runStep_zero {s : State} {c : Core} {x : EngStep} (hx : x.kind = .zero) : s.runStep c x =
    { c with
      eng := c.eng.set x.tile.toFin tile0
      order := c.order + 1
      flights := c.flights ++ [⟨x.visible, x.issue, 3, none, [.vis x.tile (c.order + 1) tile0, .mxc false false false false], 0#8, none, none⟩] } := by
  unfold State.runStep
  rw [hx]
  rfl

theorem engineSteps : Claims.EngineSteps := by
  unfold Claims.EngineSteps
  refine ⟨fun _ => rfl, fun t neg init prods i j cd pd hi hj hc hfin hpd => ?_, fun s c x hx => ?_⟩
  · have htile := tileAt_outerStep t neg init prods hi hj hc hfin hpd
    refine ⟨_, _, rfl, fun h0 => ?_, fun ep hex hle => ?_⟩
    · rw [gridded_of_zeros h0] at htile
      exact htile
    · rw [gridded_of_max hex hle] at htile
      exact htile
  · rw [State.runStep_zero hx]
    exact ⟨Vector.getElem_set_self .., rfl⟩
end Sys2Proof.Machine
open Sys2Proof Sys2Proof.Machine
/-- Settles O37: an element of a step is the accumulation of its finite terms, and MZERO clears its tile. -/
theorem engineResults : Obligations.EngineResults := engineSteps
end
